-- ==== Sys2Proof/Word.lean ====
section
/-! DEFINITION. The word types of the T256L: bytes and 32-bit words as the manual numbers their bits.
Ticks, addresses inside the part, counts and indexes are natural numbers (log entries 9 and 10). -/

namespace Sys2Proof

/-- One byte of board memory or of a hub frame. -/
abbrev Byte := BitVec 8

/-- A 32-bit word: a register, a counter, a stream total or an event sequence. -/
abbrev Word32 := BitVec 32

end Sys2Proof
end

