-- ==== Sys2Proof/Syntax.lean ====
section
/-! DEFINITION. The commands of the T256L: one constructor of `Instr` for each row of spec/opcode_table.json.
A command is a register write, an edge of the reset pin, the answer to a memory access, the arrival of a hub frame, or
an expiry of one of the part's timers. -/

namespace Sys2Proof

/-- How the board answers a read (R170): with the data read, or with a bus error. -/
inductive ReadAnswer where
  /-- the bus answered without error, with these bytes, the byte at the lowest address first -/
  | data (bytes : List Byte)
  /-- the bus answered with an error -/
  | error
deriving DecidableEq, Repr

/-- The two record streams of DLV (R147). -/
inductive StreamId where
  | pick
  | event
deriving DecidableEq, Repr

/-- The commands, in the order of the table. An answer command answers the access that is on the board bus (R169). -/
inductive Instr where
  /-- POWER_ON_RESET: RST_N is released with the strap pins at these levels (R17). -/
  | powerOnReset (auto : Bool) (dirsel : BitVec 2)
  /-- RESET: the code 15 is written to CONTROL, with the strap pins at these levels (R17). -/
  | reset (auto : Bool) (dirsel : BitVec 2)
  /-- BIND: the code 1 is written to CONTROL (R9). -/
  | bind
  /-- LISTEN: the code 2 is written to CONTROL (R14). -/
  | listen
  /-- STOP: the code 3 is written to CONTROL (R15). -/
  | stop
  /-- NUDGE: the code 4 is written to CONTROL (R14). -/
  | nudge
  /-- REFUSED_CODE: a value that is none of the five codes is written to CONTROL (R6). -/
  | refusedCode (value : Word32)
  /-- CAUSE_WRITE: a write to CAUSE (R5). -/
  | causeWrite (value : Word32)
  /-- MASK_WRITE: a write to MASK (R5). -/
  | maskWrite (value : Word32)
  /-- DIRBASE_WRITE: a write to DIRBASE_HI (`hi`) or to DIRBASE_LO (R4). -/
  | dirbaseWrite (hi : Bool) (value : Word32)
  /-- IGNORED_REGISTER_WRITE: a write to ID, to STATUS or to an offset from 0x1C to 0x1F (R3). -/
  | ignoredRegisterWrite (offset : BitVec 5) (value : Word32)
  /-- DIRECTORY_READ_DONE: the directory read of a binding is answered (R10). -/
  | directoryReadDone (answer : ReadAnswer)
  /-- BIND_TABLE_READ_DONE: a table read of a binding is answered (R12). -/
  | bindTableReadDone (answer : ReadAnswer)
  /-- HUB_FRAME_ARRIVAL: a burst on a link port has ended (R18). `line` holds the level of the line in each bit time
  from the moment it left idle to the arrival (true is high). -/
  | hubFrameArrival (port : Fin 16) (line : List Bool)
  /-- BAD_FRAME_LIMIT: the consecutive-bad-frame count of a hub stands at 8 (R26). -/
  | badFrameLimit (hub : Fin 16)
  /-- SILENCE_TIMER_EXPIRY: the silence timer of a hub expires (R27). -/
  | silenceTimerExpiry (hub : Fin 16)
  /-- CF_READ_ANSWER: CHC answers the CF history read that the running scan waits for (R92). -/
  | cfReadAnswer
  /-- ROW_FETCH_DONE: the row fetch in flight is answered (R115). -/
  | rowFetchDone (answer : ReadAnswer)
  /-- REFINE_READ_DONE: the refine entry read in flight is answered (R96). -/
  | refineReadDone (answer : ReadAnswer)
  /-- POLL_TIMER_EXPIRY: the poll timer expires (R131). -/
  | pollTimerExpiry
  /-- ORDER_SLOT_READ_DONE: a slot read of the poll is answered (R132). -/
  | orderSlotReadDone (answer : ReadAnswer)
  /-- ORDER_SLOT_WRITE_DONE: one of the two writes of an order slot is answered, without error when `ok` (R143). -/
  | orderSlotWriteDone (ok : Bool)
  /-- GRIDDEFS_RELOAD_DONE: the last grid record read of a GRIDDEFS reload is answered (R120). -/
  | griddefsReloadDone (answer : ReadAnswer)
  /-- STATIONS_RELOAD_DONE: the last station entry read of a STATIONS reload is answered (R121). -/
  | stationsReloadDone (answer : ReadAnswer)
  /-- HUBS_RELOAD_DONE: the last hub entry read of a HUBS reload is answered (R122). -/
  | hubsReloadDone (answer : ReadAnswer)
  /-- CONFIG_RELOAD_DONE: the settings block read of a CONFIG reload is answered (R123). -/
  | configReloadDone (answer : ReadAnswer)
  /-- RETURN_BLOCK_READ_DONE: the return block read in flight is answered (R152). -/
  | returnBlockReadDone (answer : ReadAnswer)
  /-- RECORD_WRITE_DONE: a stream record write is answered (R149). -/
  | recordWriteDone (ok : Bool)
  /-- PROGRESS_WRITE_DONE: the last word of a progress block write is answered (R164). -/
  | progressWriteDone (ok : Bool)
  /-- NOTICE_COUNT_REACHED: the notice count of a stream has reached or passed its k (R150). -/
  | noticeCountReached (stream : StreamId)
  /-- RAW_STATE_READ_DONE: a raw half state read is answered (R161). -/
  | rawStateReadDone (answer : ReadAnswer)
  /-- RAW_HALF_WRITE_DONE: a header or sample write of a raw half is answered (R162). -/
  | rawHalfWriteDone (ok : Bool)
  /-- RAW_FULL_WRITE_DONE: the FULL write of a raw half is answered (R161). -/
  | rawFullWriteDone (ok : Bool)
  /-- ANSWER_LIMIT_EXPIRY: the access on the bus gets no answer within 1 ms (R170). -/
  | answerLimitExpiry
  /-- POWER_ON_RESET_HOLD: RST_N goes low (R17). -/
  | powerOnResetHold
  /-- RELOAD_READ_DONE: a read of a reload that is not its last one is answered (R120 to R122). -/
  | reloadReadDone (answer : ReadAnswer)
  /-- PROGRESS_BLOCK_WORD_WRITE_DONE: the first word or the middle words of a progress block write are
  answered (R164). -/
  | progressBlockWordWriteDone (ok : Bool)
deriving DecidableEq, Repr

end Sys2Proof
end

