-- ==== Sys2Proof/Config.lean ====
section
/-! DEFINITION. What the manual leaves open as a value: the one free value of the model. -/

namespace Sys2Proof

/-- DESIGN CHOICE (log entry 8). The manual gives the update count (R164) and the epoch count (R160) four bytes
and says that each increases by 1. It states no result for an increase past 4,294,967,295. The value then is free:
this constant has no body, and it is applied to the model's own plain counter `Chip.freeUses`. -/
opaque Config.countPastMax : Nat → Word32

end Sys2Proof
end

