-- ==== Sys2Proof/Machine/State.lean ====
section
/-! DEFINITION. The state of the T256L as plain data: the nine blocks of the manual's block list, each with the state it
owns, the queue of waiting commands, and the state right after reset. -/

namespace Sys2Proof.Machine

/-! ## Why a step can stop -/

/-- Raised by the answer commands when the data they carry is not as long as the read they answer. No bus can present
such an answer (R169, R170). Safe: the model stops where no hardware run goes. -/
inductive Fault where
  /-- the answer's data is not of the length of the access on the bus -/
  | answerLength
deriving DecidableEq, Repr

/-- Why a command has no meaning. -/
inductive Refusal where
  /-- exec has no meaning for the row yet. Safe. -/
  | notModelled (mnemonic : String)
  /-- Raised by REFUSED_CODE carrying one of the five codes, and by IGNORED_REGISTER_WRITE naming an offset whose
  writes are not ignored: the operand belongs to another row. Safe. -/
  | operandOfAnotherRow
deriving DecidableEq, Repr

/-! ## RGP: the register port -/

/-- The six part states (R8). -/
inductive PartState where
  | unbound | binding | bound | listening | stopping | faulted
deriving DecidableEq, Repr

/-- The bind result of STATUS (R7). -/
inductive BindResult where
  | none | ok | badSignature | badVersion | badWindow | badLayout | badConfig | readFault
deriving DecidableEq, Repr

/-- The halt source of STATUS (R7). -/
inductive HaltSource where
  | none | progress | orders
deriving DecidableEq, Repr

/-- The acceptance field of CONTROL (R6). -/
inductive Acceptance where
  | none | accepted | refusedCode | refusedState
deriving DecidableEq, Repr

/-- Which read a binding waits for, or that it waits for the first progress block image (R10, R12, R13). -/
inductive BindStage where
  | directory
  | settings
  | grid (g : Nat)
  | hub (h : Nat)
  | station (c : Nat)
  | image
deriving DecidableEq, Repr

/-- A binding under way: whether AUTO started it, what it waits for, and the settings block as read, kept until it is
judged (R12). -/
structure Binding where
  auto : Bool
  stage : BindStage
  settingsBlock : List Byte
deriving DecidableEq, Repr

/-- The base addresses of the eleven areas, from the directory of the binding in force (R2). -/
structure Layout where
  settings : Nat
  hubs : Nat
  stations : Nat
  grids : Nat
  returnBlock : Nat
  orders : Nat
  progress : Nat
  picks : Nat
  events : Nat
  raw0 : Nat
  raw1 : Nat
deriving DecidableEq, Repr

/-- RGP: the registers, the part state, the strap latches, the reset pin and the binding under way. ID is a constant,
and the interrupt line is computed from CAUSE and MASK (R5). -/
structure Rgp where
  partState : PartState
  bindResult : BindResult
  haltSource : HaltSource
  /-- AUTO and DIRSEL as latched at the last reset release (R17) -/
  autoStrap : Bool
  dirselStrap : BitVec 2
  /-- CONTROL: the low eight bits of the last value written, and its acceptance (R6) -/
  lastCode : BitVec 8
  acceptance : Acceptance
  /-- DIRBASE (R4) -/
  dirbase : BitVec 40
  /-- the eight bits of CAUSE and of MASK (R5) -/
  cause : BitVec 8
  mask : BitVec 8
  /-- RST_N is held low (R17) -/
  resetHeld : Bool
  binding : Option Binding
  layout : Option Layout
deriving DecidableEq, Repr

/-! ## MPT: the memory port -/

/-- The four blocks that request accesses (R169). -/
inductive Requester where
  | rgp | tcu | ord | dlv
deriving DecidableEq, Repr

/-- What an access is for: the item read or written, and with it the block that asked (R169). -/
inductive Purpose where
  | directory
  | bindSettings
  | bindGrid (g : Nat)
  | bindHub (h : Nat)
  | bindStation (c : Nat)
  | row (grid node : Nat)
  | refine (grid node : Nat)
  /-- the reads of a reload; `last` marks the one whose answer performs it (R120 to R123) -/
  | reloadGrid (g : Nat) (last : Bool)
  | reloadStation (c : Nat) (last : Bool)
  | reloadHub (h : Nat) (last : Bool)
  | reloadConfig
  | slotRead (slot : Nat)
  /-- the first write of a slot: result code and words (R177) -/
  | slotResult (slot : Nat)
  /-- the second write of a slot: its first word, DONE or TAKEN (R177) -/
  | slotState (slot : Nat) (done : Bool)
  | returnBlock
  | record (stream : StreamId)
  | progressFirst
  | progressMiddle
  | progressLast
  | rawState (half : Nat)
  | rawHeader (half : Nat)
  | rawTick (half tick : Nat)
  | rawFull (half : Nat)
deriving DecidableEq, Repr

/-- One access: what it is for, read or write, the address of its first byte, its length, and the bytes to write. -/
structure Access where
  purpose : Purpose
  write : Bool
  addr : Nat
  len : Nat
  data : List Byte
deriving DecidableEq, Repr

/-- A window: base and limit, both inside (R168). -/
structure Window where
  base : Nat
  limit : Nat
deriving DecidableEq, Repr

/-- The read window and the write window (R167). -/
structure Windows where
  read : Window
  write : Window
deriving DecidableEq, Repr

/-- The sources of faults (R172). -/
inductive FaultSource where
  | raw | rows | refine | tables | orders | streams | progress | bind
deriving DecidableEq, Repr

/-- The kinds of faults (R172). -/
inductive FaultKind where
  | windowRead | windowWrite | bus
deriving DecidableEq, Repr

/-- A valid fault record (R172). -/
structure FaultRecord where
  source : FaultSource
  kind : FaultKind
  addr : Nat
  count : Nat
  horizon : Option Nat
deriving DecidableEq, Repr

/-- MPT: the windows, the four fault records, the overflow count, each block's waiting requests, the access on the bus
and the block last granted (R167, R169, R172). -/
structure Mpt where
  windows : Option Windows
  records : List (Option FaultRecord)
  overflow : Word32
  waitRgp : List Access
  waitTcu : List Access
  waitOrd : List Access
  waitDlv : List Access
  onBus : Option Access
  lastGrant : Requester
deriving DecidableEq, Repr

/-! ## LKI: link ingest -/

/-- The four hub states (R22). -/
inductive HubState where
  | disabled | seeking | live | stalled
deriving DecidableEq, Repr

/-- A frame in a hub's buffer (R29): its first tick, usable lane count, timing-lost mark, and its samples tick-major,
`usable` of them for each of its 25 ticks. -/
structure Frame where
  firstTick : Nat
  usable : Nat
  timingLost : Bool
  samples : List (BitVec 24)
deriving DecidableEq, Repr

/-- The eleven link counters of a hub (R38). -/
structure LinkCounters where
  good : Word32
  crcFailures : Word32
  lengthErrors : Word32
  misrouted : Word32
  misaligned : Word32
  duplicates : Word32
  late : Word32
  slips : Word32
  gapTicks : Word32
  timingLost : Word32
  timingHold : Word32
deriving DecidableEq, Repr

/-- The link state of one hub (R21 to R29). -/
structure Hub where
  state : HubState
  buffer : List Frame
  nextTick : Option Nat
  lastSeq : Option (BitVec 8)
  /-- the acquisition marker: first tick and sequence of the provisional frame (R23) -/
  marker : Option (Nat × BitVec 8)
  /-- the silence timer, running with the limit in ms it was last started with (R27) -/
  silence : Option Nat
  badCount : Nat
  actualLanes : Nat
  counters : LinkCounters
deriving DecidableEq, Repr

/-- LKI: the sixteen hubs and the array horizon H (R30). lead is computed (R31). -/
structure Lki where
  hubs : List Hub
  horizon : Option Nat
deriving DecidableEq, Repr

/-! ## CHC: the channel conditioner -/

/-- The trigger states (R40). -/
inductive Trigger where
  | off | on | blocked
deriving DecidableEq, Repr

/-- The values captured from an enabled station entry (R41). -/
structure StationParams where
  ks : Nat
  kl : Nat
  floor : Nat
  ton : Nat
  toff : Nat
  maxLength : Nat
  weight : Nat
  reportPicks : Bool
deriving DecidableEq, Repr

/-- One channel record (R40), its CF history (R56) and its bit of the invalid-station map (R41). `params` is none
when the channel is not enabled; its weight then is 0. The CF history is a canonical list of cells: strictly rising
indexes, and an unlisted cell reads ABSENT, the contents after reset and bind. -/
structure Channel where
  xPrev : Option (BitVec 24)
  sta : Nat
  lta : Nat
  warm : Nat
  trigger : Trigger
  onTick : Option Nat
  peakCf : Option Nat
  peakTick : Option Nat
  lastOn : Option Nat
  params : Option StationParams
  invalid : Bool
  history : List Host.Cell
deriving DecidableEq, Repr

/-- The seven counters of CHC (R60). -/
structure ChcCounters where
  normal : Word32
  cut : Word32
  long : Word32
  disabled : Word32
  reload : Word32
  unreported : Word32
  restarts : Word32
deriving DecidableEq, Repr

/-- CHC: the 256 channels and the counters. -/
structure Chc where
  channels : List Channel
  counters : ChcCounters
deriving DecidableEq, Repr

/-! ## CCU: the coincidence unit -/

/-- A scan request (R68). -/
structure Request where
  number : Nat
  /-- slot index and sequence of the order of an ORDERED request; none for a DECLARED one -/
  order : Option (Nat × BitVec 8)
  level : Nat
  refTick : Nat
  grid : Nat
  firstNode : Nat
  /-- 0 means the whole grid -/
  nodeCount : Nat
  spanFirst : Nat
  spanLast : Nat
  step : Nat
  settleLag : Nat
  collapse : Option Nat
  declaredVotes : Nat
  peakVotes : Nat
  merged : Nat
deriving DecidableEq, Repr

/-- The collapse target (R62). -/
structure CollapseTarget where
  number : Nat
  refTick : Nat
  window : Nat
deriving DecidableEq, Repr

/-- CCU: the vote state, the scan queue in creation order, the request counter and the four counters (R62, R69, R71,
R80). Its settings are those TCU holds in force. -/
structure Ccu where
  prevCount : Nat
  target : Option CollapseTarget
  queue : List Request
  requestCounter : Nat
  declarations : Word32
  merges : Word32
  lost : Word32
  displaced : Word32
deriving DecidableEq, Repr

/-! ## SCE: the scan engine -/

/-- The outcomes of a scan request (R75, R101). -/
inductive ScanOutcome where
  | located | weak | empty | stale | cancelled | stopped | displaced
deriving DecidableEq, Repr

/-- The seven flags of a scan (R100). -/
structure ScanFlags where
  partialRead : Bool
  expired : Bool
  tableChanged : Bool
  tableFault : Bool
  range : Bool
  unrefined : Bool
  resumed : Bool
deriving DecidableEq, Repr

/-- The grid parameters a bank captures (R81). -/
structure CapturedGrid where
  nodeCount : Nat
  ttmin : Nat
  qacc : Nat
  wmin : Nat
  hasRefine : Bool
  halfWindow : Nat
deriving DecidableEq, Repr

/-- A candidate (R93): also the stage parts of an outcome, which name its grid. -/
structure Peak where
  grid : Nat
  node : Nat
  t0 : Nat
  q : Nat
  wsum : Nat
  contributors : Nat
deriving DecidableEq, Repr

/-- One entry of an arrival list (R99), with its weighted CF, by which the list is ranked. -/
structure Arrival where
  channel : Nat
  offset : Nat
  cf : Nat
  weighted : Nat
deriving DecidableEq, Repr

/-- What the scan of a bank waits for (R90, R96, R99). -/
inductive ScanPhase where
  /-- nothing: the scan stands at a node boundary, as a PARKED scan does -/
  | boundary
  /-- the row of the node at the cursor -/
  | nodeRow
  /-- the CF read of `channel` for the pair of the cursor's node and `t0`, with the sums of R93 so far -/
  | stacking (row : List (BitVec 16)) (t0 channel sum wsum contributors : Nat)
  /-- the refine entry of the stage-1 peak -/
  | refineEntry
  /-- the row of the final peak, for the arrival list of an outcome -/
  | listRow (outcome : ScanOutcome)
  /-- the CF read of `channel` for the arrival list -/
  | listing (outcome : ScanOutcome) (row : List (BitVec 16)) (channel : Nat) (found : List Arrival)
deriving DecidableEq, Repr

/-- A context bank in service (R81). A FREE bank is none. -/
structure Scan where
  request : Request
  /-- RUNNING (true) or PARKED -/
  running : Bool
  stage : Nat
  grid : Nat
  captured : CapturedGrid
  weights : List Nat
  firstNode : Nat
  lastNode : Nat
  cursor : Nat
  spanFirst : Nat
  spanLast : Nat
  spanStep : Nat
  best : Option Peak
  stage1 : Option Peak
  stage2 : Option Peak
  flags : ScanFlags
  cancelMark : Bool
  /-- slot and sequence of the CANCEL orders that wait for this scan's finish, in sequence order (R103, R140) -/
  cancels : List (Nat × BitVec 8)
  /-- for grids 0 to 3 the lowest and highest node requested (R81) -/
  ranges : List (Option (Nat × Nat))
  phase : ScanPhase
deriving DecidableEq, Repr

/-- SCE: the four banks and the three counters (R81, R107). The in-service level set is computed from the banks. -/
structure Sce where
  banks : List (Option Scan)
  parks : Word32
  resumes : Word32
  stage2Runs : Word32
deriving DecidableEq, Repr

/-! ## TCU: the table cache -/

/-- The settings in force (R111). -/
structure Settings where
  lmax : Nat
  silenceLimit : Nat
  window : Nat
  nmin : Nat
  n2 : Nat
  n1 : Nat
  n0 : Nat
  collapse : Nat
  back : Nat
  step : Nat
  surveyGrid : Nat
  settleLag : Nat
  pollPeriod : Nat
  reportWeak : Nat
  eventNotice : Nat
  pickNotice : Nat
deriving DecidableEq, Repr

/-- A grid record that defines its grid (R108). A refine base of 0 means no refine table. -/
structure GridDef where
  nodeCount : Nat
  stride : Nat
  ttBase : Nat
  refineBase : Nat
  ttmin : Nat
  ttmax : Nat
  qacc : Nat
  halfWindow : Nat
  wmin : Nat
deriving DecidableEq, Repr

/-- A grid record in force: its definition, none for an undefined grid, and whether the record was found invalid. -/
structure GridRecord where
  defn : Option GridDef
  invalid : Bool
deriving DecidableEq, Repr

/-- A hub entry as loaded (R20, R112). -/
structure HubEntry where
  enabled : Nat
  lanes : Nat
deriving DecidableEq, Repr

/-- A station entry as loaded (R41, R112). -/
structure StationEntry where
  enabled : Nat
  ks : Nat
  kl : Nat
  floor : Nat
  ton : Nat
  toff : Nat
  maxLength : Nat
  weight : Nat
  reportPicks : Nat
deriving DecidableEq, Repr

/-- An entry of the row cache (R113). -/
structure CacheEntry where
  grid : Nat
  node : Nat
  row : List (BitVec 16)
deriving DecidableEq, Repr

/-- The row fetch in flight (R115); `keep` is cleared by a covering invalidation (R117). -/
structure RowFetch where
  grid : Nat
  node : Nat
  keep : Bool
deriving DecidableEq, Repr

/-- An INVALIDATE order as ORD hands it to TCU (R118, R138, R180). -/
structure InvalOrder where
  slot : Nat
  seq : BitVec 8
  scope : Nat
  grid : Nat
  first : Nat
  count : Nat
  drain : Bool
deriving DecidableEq, Repr

/-- A reload under way: its order and what its reads have answered so far, in order (R120 to R123). -/
structure Reload where
  order : InvalOrder
  got : List (Option (List Byte))
deriving DecidableEq, Repr

/-- What TCU reports to ORD, and ORD writes into the slot: a result code and three words (R126). -/
structure SlotResult where
  code : Nat
  word1 : Nat
  word2 : Nat
  word3 : Nat
deriving DecidableEq, Repr

/-- A drain set that is not empty, with the order it completes and the result determined for it (R124, R125). -/
structure Drain where
  order : InvalOrder
  numbers : List Nat
  result : SlotResult
deriving DecidableEq, Repr

/-- TCU: the table caches, the row cache (least recently used first), the fetch in flight, the invalidation being
performed, the orders waiting behind it, the drain set, and the counters (R111 to R127). -/
structure Tcu where
  settings : Option Settings
  grids : List GridRecord
  hubEntries : List (Option HubEntry)
  stationEntries : List (Option StationEntry)
  cache : List CacheEntry
  fetch : Option RowFetch
  reload : Option Reload
  waiting : List InvalOrder
  drain : Option Drain
  hits : Word32
  misses : Word32
  evictions : Word32
  dropped : Word32
  invalidations : Word32
deriving DecidableEq, Repr

/-! ## ORD: the order unit -/

/-- The kinds of the orders whose completion can be still to come (R130). -/
inductive OpenKind where
  | scan | invalidate | cancel
deriving DecidableEq, Repr

/-- An entry of the open-order list (R130). -/
structure OpenOrder where
  slot : Nat
  seq : BitVec 8
  kind : OpenKind
deriving DecidableEq, Repr

/-- ORD: the expected sequence, the drain-pending marker (with the order that set it), the open-order list, the poll in
progress with the slots read so far, the repeat mark, the poll timer with its period in ms, the slots written in the
take run under way, and the counters (R128 to R146). -/
structure Orders where
  expected : BitVec 8
  drainPending : Option (Nat × BitVec 8)
  openOrders : List OpenOrder
  poll : Option (List (Option (List Byte)))
  repeatMark : Bool
  timer : Option Nat
  takeRun : Option (List Nat)
  polls : Word32
  taken : Word32
  duplicates : Word32
  torn : Word32
deriving DecidableEq, Repr

/-! ## DLV: the delivery unit -/

/-- The event outcome that SCE or CCU hands to DLV (R75, R101). -/
structure EventOutcome where
  number : Nat
  order : Option (Nat × BitVec 8)
  level : Nat
  refTick : Nat
  declaredVotes : Nat
  peakVotes : Nat
  merged : Nat
  outcome : ScanOutcome
  flags : ScanFlags
  stage1 : Option Peak
  stage2 : Option Peak
  arrivals : List Arrival
deriving DecidableEq, Repr

/-- What an event record holds besides its sequence: an outcome, or the tag of a marker (R141, R156). -/
inductive EventContent where
  | scan (o : EventOutcome)
  | marker (tag : Word32)
deriving DecidableEq, Repr

/-- An event record with its event sequence. -/
structure EventRecord where
  seq : Word32
  content : EventContent
deriving DecidableEq, Repr

/-- Why a trigger ended (R54). -/
inductive EndReason where
  | normal | cut | long | disabled | reload
deriving DecidableEq, Repr

/-- A pick as CHC forms it (R54). -/
structure Pick where
  channel : Nat
  onTick : Nat
  offTick : Nat
  peakCf : Nat
  peakTick : Nat
  reason : EndReason
deriving DecidableEq, Repr

/-- The state DLV keeps for a stream (R147). With no stream, after reset and a failed binding, the slot count and the
totals are 0. -/
structure StreamState where
  slots : Nat
  written : Word32
  released : Word32
  published : Word32
  shown : Word32
  sequence : Word32
  notice : Nat
  noRoom : Bool
deriving DecidableEq, Repr

/-- One epoch of raw samples (R160): its number, how many of its 500 ticks have been placed, the present samples by
position 256 × tick + channel (an unlisted position below the placed ticks is in the absent form), and the absent
map. -/
structure RawEpoch where
  epoch : Nat
  placed : Nat
  samples : List (Nat × BitVec 24)
  absent : BitVec 256
deriving DecidableEq, Repr

/-- The outgoing epoch, and whether half 0 read FREE once its state read is answered (R161). -/
structure Outgoing where
  epoch : RawEpoch
  half0Free : Bool
deriving DecidableEq, Repr

/-- The progress block write in flight: the published totals, the epoch count and the faults it carries (R164, R173). -/
structure ProgressWrite where
  pickTotal : Word32
  eventTotal : Word32
  epochCount : Word32
  showsFault : Bool
deriving DecidableEq, Repr

/-- The eighteen counters of DLV (R165). -/
structure DlvCounters where
  picksWritten : Word32
  eventsWritten : Word32
  lostPicks : Word32
  lostEvents : Word32
  located : Word32
  weak : Word32
  empty : Word32
  stale : Word32
  cancelled : Word32
  stopped : Word32
  displaced : Word32
  unreported : Word32
  markers : Word32
  rawWritten : Word32
  rawLost : Word32
  returnReads : Word32
  clamps : Word32
  progressWrites : Word32
deriving DecidableEq, Repr

/-- The progress block image that DLV keeps on chip (R163, R166). -/
inductive ProgressImage where
  /-- after a reset, and from the start of a binding until the image is built: 4,096 bytes of zero -/
  | cleared
  /-- built at bind: each item at its current value, so the bytes follow from the rest of the state (log entry 10) -/
  | current
  /-- from entry to FAULTED: the 4,096 bytes as they stood at the entry (log entry 34) -/
  | frozen (bytes : List Byte)
deriving DecidableEq, Repr

/-- DLV: the streams, the pending event queue, the return block read, the raw writer, the progress block image and its
write, and the counters (R147 to R166). -/
structure Dlv where
  pick : StreamState
  event : StreamState
  pendingEvents : List EventRecord
  returnRead : Bool
  reread : Bool
  assembly : Option RawEpoch
  outgoing : Option Outgoing
  /-- the half last written (R161) -/
  selector : Option (Fin 2)
  progress : Option ProgressWrite
  /-- a progress block write begins in the step under way, with the image the step leaves (log entry 15); false
  between steps -/
  progressAsked : Bool
  rewrite : Bool
  image : ProgressImage
  updateCount : Word32
  epochCount : Word32
  /-- the epoch count carried by the last completed progress block write (R164) -/
  epochShown : Word32
  /-- a fault recorded since the last progress block write began (R173) -/
  faultUnshown : Bool
  counters : DlvCounters
deriving DecidableEq, Repr

/-! ## The part and the machine -/

/-- The whole part: its nine blocks, and the model's own count of free values used (log entry 8). -/
structure Chip where
  rgp : Rgp
  mpt : Mpt
  lki : Lki
  chc : Chc
  ccu : Ccu
  sce : Sce
  tcu : Tcu
  ord : Orders
  dlv : Dlv
  freeUses : Nat
deriving DecidableEq, Repr

/-- The machine: the part, and the commands that wait for it, first in, first out. -/
structure State where
  chip : Chip
  pending : List Instr
deriving DecidableEq, Repr

/-! ## Reset -/

/-- RGP after a reset release with AUTO = 0 (R17). -/
def Rgp.atReset : Rgp :=
  ⟨.unbound, .none, .none, false, 0, 0, .none, 0, 0, 0, false, none, none⟩

/-- MPT after reset (R176). -/
def Mpt.atReset : Mpt :=
  ⟨none, List.replicate 4 none, 0, [], [], [], [], none, .dlv⟩

/-- The link counters after reset (R39). -/
def LinkCounters.zero : LinkCounters := ⟨0, 0, 0, 0, 0, 0, 0, 0, 0, 0, 0⟩

/-- A hub after reset and bind (R39). -/
def Hub.atReset : Hub := ⟨.disabled, [], none, none, none, none, 0, 0, LinkCounters.zero⟩

/-- LKI after reset (R39). -/
def Lki.atReset : Lki := ⟨List.replicate 16 Hub.atReset, none⟩

/-- A channel after reset (R61). -/
def Channel.atReset : Channel := ⟨none, 0, 0, 0, .off, none, none, none, none, none, false, []⟩

/-- CHC after reset (R61). -/
def Chc.atReset : Chc := ⟨List.replicate 256 Channel.atReset, ⟨0, 0, 0, 0, 0, 0, 0⟩⟩

/-- CCU after reset (R78). -/
def Ccu.atReset : Ccu := ⟨0, none, [], 0, 0, 0, 0, 0⟩

/-- SCE after reset (R106). -/
def Sce.atReset : Sce := ⟨List.replicate 4 none, 0, 0, 0⟩

/-- TCU after reset (R127). -/
def Tcu.atReset : Tcu :=
  ⟨none, List.replicate 4 ⟨none, false⟩, List.replicate 16 none, List.replicate 256 none, [], none, none, [], none,
    0, 0, 0, 0, 0⟩

/-- ORD after reset (R145). -/
def Orders.atReset : Orders := ⟨0, none, [], none, false, none, none, 0, 0, 0, 0⟩

/-- A stream after reset (R166). -/
def StreamState.atReset : StreamState := ⟨0, 0, 0, 0, 0, 0, 0, false⟩

/-- DLV's counters after reset (R166). -/
def DlvCounters.zero : DlvCounters := ⟨0, 0, 0, 0, 0, 0, 0, 0, 0, 0, 0, 0, 0, 0, 0, 0, 0, 0⟩

/-- DLV after reset (R166). -/
def Dlv.atReset : Dlv :=
  ⟨StreamState.atReset, StreamState.atReset, [], false, false, none, none, none, none, false, false,
    .cleared, 0, 0, 0, false, DlvCounters.zero⟩

/-- The part after a reset release with AUTO = 0. -/
def Chip.atReset : Chip :=
  ⟨Rgp.atReset, Mpt.atReset, Lki.atReset, Chc.atReset, Ccu.atReset, Sce.atReset, Tcu.atReset, Orders.atReset, Dlv.atReset, 0⟩

/-- The machine right after a reset release with every strap pin unconnected (R17, R181), no command waiting. -/
def State.reset : State := ⟨Chip.atReset, []⟩

end Sys2Proof.Machine
end

