-- ==== Sys2Proof/Machine/Bytes.lean ====
section
/-! DEFINITION. Helpers shared by every block: little-endian fields (R177), the canonical lists of cells that stand for
on-chip memories, list access by number, and counters. -/

namespace Sys2Proof.Machine

/-! ## Little-endian fields -/

/-- The byte at an offset. -/
def byteAt (b : List Byte) (i : Nat) : Nat := (b.getD i 0).toNat

/-- The little-endian value of the `n` bytes from `off` (R177). -/
def leValue (b : List Byte) (off : Nat) : Nat → Nat
  | 0 => 0
  | n + 1 => byteAt b off + 256 * leValue b (off + 1) n

/-- The `n` low bytes of a value, least significant first (R177). -/
def leBytes : Nat → Nat → List Byte
  | 0, _ => []
  | n + 1, v => BitVec.ofNat 8 v :: leBytes n (v / 256)

/-- A structure of `size` bytes from its fields, given by rising offset; every byte between them is 0 (R177). -/
def render (size : Nat) : Nat → List (Nat × List Byte) → List Byte
  | pos, [] => List.replicate (size - pos) 0
  | pos, (off, bytes) :: rest =>
    List.replicate (off - pos) 0 ++ bytes ++ render size (off + bytes.length) rest

/-- A byte that holds 1 or 0. -/
def boolByte (b : Bool) : List Byte := [if b then 1 else 0]

/-! ## Memories as canonical lists of cells -/

/-- The value at a place of a memory whose unlisted places read `d`. -/
def cellRead {α : Type} (d : α) : List (Nat × α) → Nat → α
  | [], _ => d
  | (k, v) :: m, i => if i = k then v else if i < k then d else cellRead d m i

/-- Writes a place, keeping the form canonical: the keys rise, and no entry holds `d`. -/
def cellWrite {α : Type} [DecidableEq α] (d : α) : List (Nat × α) → Nat → α → List (Nat × α)
  | [], i, v => if v = d then [] else [(i, v)]
  | (k, w) :: m, i, v =>
    if i < k then (if v = d then (k, w) :: m else (i, v) :: (k, w) :: m)
    else if i = k then (if v = d then m else (i, v) :: m)
    else (k, w) :: cellWrite d m i v

/-- The canonical form from a lowest key on: strictly rising keys, no entry that holds `d`. -/
def cellsFrom {α : Type} [DecidableEq α] (d : α) : Nat → List (Nat × α) → Bool
  | _, [] => true
  | lo, (k, v) :: m => decide (lo ≤ k) && decide (v ≠ d) && cellsFrom d (k + 1) m

/-- The canonical form of a memory. -/
def cellsWf {α : Type} [DecidableEq α] (d : α) (m : List (Nat × α)) : Bool := cellsFrom d 0 m

/-! ## Lists by number -/

/-- Changes the item of a given number, and leaves a list without that number alone. -/
def modifyAt {α : Type} (f : α → α) : List α → Nat → List α
  | [], _ => []
  | a :: l, 0 => f a :: l
  | a :: l, i + 1 => a :: modifyAt f l i

/-- The numbers from `start`, `count` of them, in rising order. -/
def numbersFrom (start : Nat) : Nat → List Nat
  | 0 => []
  | n + 1 => start :: numbersFrom (start + 1) n

/-- Each item with its number, counting from `start`. -/
def numbered {α : Type} (start : Nat) : List α → List (Nat × α)
  | [] => []
  | a :: l => (start, a) :: numbered (start + 1) l

/-! ## Counters -/

/-- The value at which a 32-bit counter stays (manual, CONVENTIONS, Counters). -/
def counterMax : Nat := 4294967295

/-- A counter increased by `n`: it stays at its largest value once it reaches that. -/
def addCount (c : Word32) (n : Nat) : Word32 := BitVec.ofNat 32 (min (c.toNat + n) counterMax)

/-- A counter increased by 1. -/
def countUp (c : Word32) : Word32 := addCount c 1

end Sys2Proof.Machine
end

