-- ==== Sys2Proof/Machine/Flags.lean ====
section
/-! DEFINITION. The flag words of the part: the bits of CAUSE and the interrupt line (R5, R179), the event flags (R178),
the fields of CONTROL and STATUS (R6, R7, R179), and the reading of the registers. -/

namespace Sys2Proof.Machine

/-- The cause bits, by number (R179). -/
def causeEvent : Nat := 0
/-- PICK -/
def causePick : Nat := 1
/-- ORDER -/
def causeOrder : Nat := 2
/-- ROOM -/
def causeRoom : Nat := 3
/-- FAULT -/
def causeFault : Nat := 4
/-- LINK -/
def causeLink : Nat := 5
/-- STATE -/
def causeState : Nat := 6
/-- EPOCH -/
def causeEpoch : Nat := 7

/-- The word with one cause bit set. -/
def causeMask (bit : Nat) : BitVec 8 := BitVec.twoPow 8 bit

/-- A block sets a cause bit, whatever the mask (R5). -/
def Rgp.setCause (bit : Nat) (r : Rgp) : Rgp := { r with cause := r.cause ||| causeMask bit }

/-- A cause bit is set. -/
def Rgp.hasCause (bit : Nat) (r : Rgp) : Bool := r.cause.getLsbD bit

/-- The interrupt line: asserted while some bit is set in both CAUSE and MASK (R5). -/
def Rgp.irq (r : Rgp) : Bool := (r.cause &&& r.mask) != 0

/-- The codes of the part state (R178). -/
def partStateCode : PartState → Nat
  | .unbound => 0
  | .binding => 1
  | .bound => 2
  | .listening => 3
  | .stopping => 4
  | .faulted => 5

/-- The codes of the bind result (R179). -/
def bindResultCode : BindResult → Nat
  | .none => 0
  | .ok => 1
  | .badSignature => 2
  | .badVersion => 3
  | .badWindow => 4
  | .badLayout => 5
  | .badConfig => 6
  | .readFault => 7

/-- The codes of the halt source (R179). -/
def haltSourceCode : HaltSource → Nat
  | .none => 0
  | .progress => 1
  | .orders => 2

/-- The codes of the acceptance field of CONTROL (R179). -/
def acceptanceCode : Acceptance → Nat
  | .none => 0
  | .accepted => 1
  | .refusedCode => 2
  | .refusedState => 3

/-- The word CONTROL reads (R6, R179). -/
def Rgp.controlWord (r : Rgp) : Word32 :=
  BitVec.ofNat 32 (r.lastCode.toNat + 256 * acceptanceCode r.acceptance)

/-- The word STATUS reads (R7, R179). -/
def Rgp.statusWord (r : Rgp) : Word32 :=
  BitVec.ofNat 32 (partStateCode r.partState + 16 * bindResultCode r.bindResult + 256 * haltSourceCode r.haltSource
    + 4096 * (if r.autoStrap then 1 else 0) + 8192 * r.dirselStrap.toNat)

/-- What a read of the register port returns (R3, R4, R179). While the reset pin is held the fields hold their reset
values (R17), so that this reads them. -/
def Rgp.readRegister (offset : BitVec 5) (r : Rgp) : Word32 :=
  if offset = 0x00 then 0x02564C01
  else if offset = 0x04 then r.controlWord
  else if offset = 0x08 then r.statusWord
  else if offset = 0x0C then r.dirbase.setWidth 32
  else if offset = 0x10 then (r.dirbase >>> 32).setWidth 32
  else if offset = 0x14 then r.cause.setWidth 32
  else if offset = 0x18 then r.mask.setWidth 32
  else 0

/-- No flag raised. -/
def noFlags : ScanFlags := ⟨false, false, false, false, false, false, false⟩

/-- One flag as a bit of the event flags field. -/
def flagBit (b : Bool) (bit : Nat) : Nat := if b then 2 ^ bit else 0

/-- The event flags field of an event record (R178). -/
def flagsWord (f : ScanFlags) : Nat :=
  flagBit f.partialRead 0 + flagBit f.expired 1 + flagBit f.tableChanged 2 + flagBit f.tableFault 3
    + flagBit f.range 4 + flagBit f.unrefined 5 + flagBit f.resumed 6

end Sys2Proof.Machine
end

