-- ==== Sys2Proof/Machine/Operands.lean ====
section
/-! DEFINITION. The forms of what the part reads: the directory, the tables, the rows, the order slots and the return
block, taken from their bytes by the layouts of the formats chapter, and the checks the rules make on them. -/

namespace Sys2Proof.Machine

/-- Every address is below this (R2, R177). -/
def addressEnd : Nat := 2 ^ 40

/-! ## The directory (R2, R10, R11) -/

/-- The signature of a directory (R2). -/
def directorySignature : Nat := 0x3C5AE107

/-- A window as the directory gives it. -/
def directoryWindow (b : List Byte) (off : Nat) : Window := ⟨leValue b off 8, leValue b (off + 8) 8⟩

/-- The two windows of a directory (R2). -/
def directoryWindows (b : List Byte) : Windows := ⟨directoryWindow b 0x08, directoryWindow b 0x18⟩

/-- The eleven area bases of a directory (R2). -/
def directoryLayout (b : List Byte) : Layout :=
  { settings := leValue b 0x28 8
    hubs := leValue b 0x30 8
    stations := leValue b 0x38 8
    grids := leValue b 0x40 8
    returnBlock := leValue b 0x48 8
    orders := leValue b 0x50 8
    progress := leValue b 0x58 8
    picks := leValue b 0x60 8
    events := leValue b 0x68 8
    raw0 := leValue b 0x70 8
    raw1 := leValue b 0x78 8 }

/-- A stream as the directory describes it: slot count, written total and released total (R2). -/
structure DirectoryStream where
  slots : Nat
  written : Word32
  released : Word32
deriving DecidableEq, Repr

/-- The pick stream of a directory. -/
def directoryPicks (b : List Byte) : DirectoryStream :=
  ⟨leValue b 0x80 4, BitVec.ofNat 32 (leValue b 0x88 4), BitVec.ofNat 32 (leValue b 0x8C 4)⟩

/-- The event stream of a directory. -/
def directoryEvents (b : List Byte) : DirectoryStream :=
  ⟨leValue b 0x84 4, BitVec.ofNat 32 (leValue b 0x90 4), BitVec.ofNat 32 (leValue b 0x94 4)⟩

/-- Check 3 of R10 on one window. -/
def windowValid (w : Window) : Bool :=
  decide (w.base < addressEnd) && decide (w.limit < addressEnd) && decide (w.base ≤ w.limit)

/-- The checks of R10 in their order: none when all pass, else the result of the first that fails. -/
def directoryCheck (b : List Byte) : Option BindResult :=
  if leValue b 0x00 4 ≠ directorySignature then some .badSignature
  else if leValue b 0x04 4 ≠ 1 then some .badVersion
  else if !(windowValid (directoryWindows b).read && windowValid (directoryWindows b).write) then some .badWindow
  else none

/-- The `n` bytes from `a` lie in a window: both addresses of a window are inside it (R168). -/
def Window.holds (w : Window) (a n : Nat) : Bool := decide (w.base ≤ a) && decide (a + n ≤ w.limit + 1)

/-- An area: base and size in bytes. -/
abbrev Area := Nat × Nat

/-- The five table areas (R2). -/
def tableAreas (l : Layout) : List Area :=
  [(l.settings, 256), (l.hubs, 512), (l.stations, 8192), (l.grids, 256), (l.returnBlock, 64)]

/-- The six areas the part writes (R2). -/
def writtenAreas (l : Layout) (pickSlots eventSlots : Nat) : List Area :=
  [(l.orders, 2048), (l.progress, 4096), (l.picks, pickSlots * 32), (l.events, eventSlots * 256),
    (l.raw0, 512128), (l.raw1, 512128)]

/-- Two areas share no byte. -/
def apart (x y : Area) : Bool := decide (x.1 + x.2 ≤ y.1) || decide (y.1 + y.2 ≤ x.1)

/-- No two areas of a list share a byte. -/
def allApart : List Area → Bool
  | [] => true
  | x :: rest => rest.all (apart x) && allApart rest

/-- Check 1 of R11 on one area. -/
def baseValid (x : Area) : Bool := decide (x.1 < addressEnd) && decide (x.1 % 64 = 0)

/-- Check 5 of R11: written − released, modulo 2^32, does not exceed the slot count. -/
def totalsValid (s : DirectoryStream) : Bool := decide ((s.written - s.released).toNat ≤ s.slots)

/-- The layout checks of R11. -/
def layoutValid (w : Windows) (l : Layout) (p e : DirectoryStream) : Bool :=
  let tables := tableAreas l
  let written := writtenAreas l p.slots e.slots
  (tables.all baseValid && written.all baseValid)
    && (decide (16 ≤ p.slots) && decide (p.slots ≤ 4096) && decide (16 ≤ e.slots) && decide (e.slots ≤ 1024))
    && (written.all (fun x => w.write.holds x.1 x.2)
        && tables.all (fun x => w.read.holds x.1 x.2 || w.write.holds x.1 x.2))
    && (allApart written && tables.all (fun x => written.all (apart x)))
    && (totalsValid p && totalsValid e)

/-! ## The settings block (R111) -/

/-- The settings block's fields. -/
def parseSettings (b : List Byte) : Settings :=
  { lmax := leValue b 0x00 2
    silenceLimit := leValue b 0x02 2
    window := leValue b 0x04 2
    nmin := leValue b 0x06 2
    n2 := leValue b 0x08 2
    n1 := leValue b 0x0A 2
    n0 := leValue b 0x0C 2
    collapse := leValue b 0x0E 2
    back := leValue b 0x10 2
    step := byteAt b 0x12
    surveyGrid := byteAt b 0x13
    settleLag := leValue b 0x14 2
    pollPeriod := leValue b 0x16 2
    reportWeak := byteAt b 0x18
    eventNotice := byteAt b 0x19
    pickNotice := byteAt b 0x1A }

/-- A value lies in a range that includes both ends. -/
def inRange (lo hi v : Nat) : Bool := decide (lo ≤ v) && decide (v ≤ hi)

/-- A step of 1, 2 or 4 (R12, R136). -/
def stepValid (n : Nat) : Bool := n == 1 || n == 2 || n == 4

/-- The definition of a grid in force. -/
def gridDefn (grids : List GridRecord) (g : Nat) : Option GridDef := (grids.getD g ⟨none, false⟩).defn

/-- The settings block is valid (R12, R111): every setting in its range and the survey grid defined. -/
def settingsValid (grids : List GridRecord) (s : Settings) : Bool :=
  inRange 25 2000 s.lmax && inRange 100 10000 s.silenceLimit && inRange 1 1024 s.window
    && inRange 1 256 s.nmin && inRange 1 256 s.n2 && inRange 1 256 s.n1 && inRange 1 256 s.n0
    && decide (s.nmin ≤ s.n2) && decide (s.n2 ≤ s.n1) && decide (s.n1 ≤ s.n0)
    && inRange 1 2047 s.collapse && inRange 1 2047 s.back && stepValid s.step && inRange 1 2047 s.settleLag
    && inRange 0 3 s.surveyGrid && (gridDefn grids s.surveyGrid).isSome
    && inRange 10 1000 s.pollPeriod && inRange 0 1 s.reportWeak
    && inRange 0 255 s.eventNotice && inRange 0 255 s.pickNotice

/-! ## Grid records, hub entries and station entries (R20, R41, R108) -/

/-- The fields of a grid record. -/
def parseGrid (b : List Byte) : GridDef :=
  { nodeCount := leValue b 0x00 2
    stride := leValue b 0x04 4
    ttBase := leValue b 0x08 8
    refineBase := leValue b 0x10 8
    ttmin := leValue b 0x18 2
    ttmax := leValue b 0x1A 2
    qacc := byteAt b 0x1C
    halfWindow := byteAt b 0x1D
    wmin := leValue b 0x1E 2 }

/-- A record whose node count is not 0 is valid (R108). -/
def gridValid (g : GridDef) : Bool :=
  inRange 1 8192 g.nodeCount
    && decide (g.ttBase < addressEnd) && decide (g.ttBase % 64 = 0)
    && decide (512 ≤ g.stride) && decide (g.stride % 64 = 0)
    && decide (g.ttmax ≤ 4095) && decide (g.ttmin ≤ g.ttmax)
    && inRange 1 254 g.qacc && inRange 1 3840 g.wmin && inRange 1 255 g.halfWindow
    && decide (g.refineBase < addressEnd) && decide (g.refineBase % 64 = 0)
    && decide (g.ttBase + (g.nodeCount - 1) * g.stride + 511 < addressEnd)
    && (g.refineBase == 0 || decide (g.refineBase + 8 * g.nodeCount - 1 < addressEnd))

/-- The record in force that a grid record's bytes give (R108). -/
def judgeGrid (b : List Byte) : GridRecord :=
  let g := parseGrid b
  if g.nodeCount = 0 then ⟨none, false⟩
  else if gridValid g then ⟨some g, false⟩
  else ⟨none, true⟩

/-- The fields of a hub entry. -/
def parseHubEntry (b : List Byte) : HubEntry := ⟨byteAt b 0x00, byteAt b 0x01⟩

/-- A hub entry is valid and enables its hub (R20). -/
def hubEnabled : Option HubEntry → Bool
  | some e => e.enabled == 1 && inRange 1 16 e.lanes
  | none => false

/-- The expected lane count an entry gives (R20). -/
def expectedLanes : Option HubEntry → Nat
  | some e => e.lanes
  | none => 0

/-- The fields of a station entry. -/
def parseStation (b : List Byte) : StationEntry :=
  { enabled := byteAt b 0x00
    ks := byteAt b 0x01
    kl := byteAt b 0x02
    ton := byteAt b 0x03
    toff := byteAt b 0x04
    weight := byteAt b 0x05
    reportPicks := byteAt b 0x06
    floor := leValue b 0x08 2
    maxLength := leValue b 0x0A 2 }

/-- The other fields of a station entry that enables its channel lie in their ranges (R41). -/
def stationFieldsValid (e : StationEntry) : Bool :=
  inRange 1 7 e.ks && inRange 6 13 e.kl && decide (e.ks < e.kl) && inRange 1 65535 e.floor
    && inRange 1 254 e.ton && inRange 1 254 e.toff && decide (e.toff ≤ e.ton)
    && inRange 1 65535 e.maxLength && inRange 0 15 e.weight && inRange 0 1 e.reportPicks

/-- A station entry is valid (R41). -/
def stationValid (e : StationEntry) : Bool := e.enabled == 0 || (e.enabled == 1 && stationFieldsValid e)

/-- The values a channel captures from an entry: none when the entry does not enable it (R41). -/
def stationParams (e : StationEntry) : Option StationParams :=
  if e.enabled == 1 && stationFieldsValid e then
    some ⟨e.ks, e.kl, e.floor, e.ton, e.toff, e.maxLength, e.weight, e.reportPicks == 1⟩
  else none

/-! ## Rows, refine entries, order slots and raw half state words -/

/-- The 256 travel times of a row (R109). -/
def parseRow (b : List Byte) : List (BitVec 16) :=
  (numbersFrom 0 256).map (fun c => BitVec.ofNat 16 (leValue b (2 * c) 2))

/-- A row of 256 NONE values (R116). -/
def noneRow : List (BitVec 16) := List.replicate 256 0xFFFF

/-- A refine entry: child grid, first node and count (R110). -/
structure RefineEntry where
  child : Nat
  first : Nat
  count : Nat
deriving DecidableEq, Repr

/-- The fields of a refine entry. -/
def parseRefine (b : List Byte) : RefineEntry := ⟨byteAt b 0x00, leValue b 0x02 2, leValue b 0x04 2⟩

/-- A slot reads POSTED (R128, R178). -/
def slotPosted (b : List Byte) : Bool := byteAt b 0x00 == 1

/-- The sequence of a slot. -/
def slotSeq (b : List Byte) : BitVec 8 := BitVec.ofNat 8 (byteAt b 0x01)

/-- The seal of a slot is the bitwise complement of its sequence (R128). -/
def slotSealed (b : List Byte) : Bool := BitVec.ofNat 8 (byteAt b 0x3C) == ~~~ slotSeq b

/-- An INVALIDATE order's fields (R180). -/
def parseInval (slot : Nat) (b : List Byte) : InvalOrder :=
  { slot := slot
    seq := slotSeq b
    scope := byteAt b 0x08
    drain := byteAt b 0x09 != 0
    grid := byteAt b 0x0A
    first := leValue b 0x0C 2
    count := leValue b 0x0E 2 }

/-- A SCAN order's fields (R180). -/
structure ScanOrder where
  level : Nat
  grid : Nat
  step : Nat
  first : Nat
  count : Nat
  t0Start : Nat
  t0End : Nat
deriving DecidableEq, Repr

/-- The fields of a SCAN order. -/
def parseScan (b : List Byte) : ScanOrder :=
  { level := byteAt b 0x05
    grid := byteAt b 0x08
    step := byteAt b 0x09
    first := leValue b 0x0A 2
    count := leValue b 0x0C 2
    t0Start := leValue b 0x10 8
    t0End := leValue b 0x18 8 }

/-- A raw half's state word reads FREE (R178). -/
def rawFree (b : List Byte) : Bool := leValue b 0 4 == 1

end Sys2Proof.Machine
end

