-- ==== Sys2Proof/Machine/Image.lean ====
section
/-! DEFINITION. The forms of what the part writes: pick records, event records, raw halves, order slot results and the
progress block, as bytes by the layouts of the formats chapter (R163, R177, R178, R180). -/

namespace Sys2Proof.Machine

/-! ## Code values (R178) -/

/-- End reasons. -/
def endReasonCode : EndReason → Nat
  | .normal => 1
  | .cut => 2
  | .long => 3
  | .disabled => 4
  | .reload => 5

/-- Outcomes of scans. A marker's outcome field holds 8. -/
def outcomeCode : ScanOutcome → Nat
  | .located => 1
  | .weak => 2
  | .empty => 3
  | .stale => 4
  | .cancelled => 5
  | .stopped => 6
  | .displaced => 7

/-- The outcome field of a marker record. -/
def markOutcomeCode : Nat := 8

/-- Hub states. -/
def hubStateCode : HubState → Nat
  | .disabled => 0
  | .seeking => 1
  | .live => 2
  | .stalled => 3

/-- Fault sources. -/
def faultSourceCode : FaultSource → Nat
  | .raw => 1
  | .rows => 2
  | .refine => 3
  | .tables => 4
  | .orders => 5
  | .streams => 6
  | .progress => 7
  | .bind => 8

/-- Fault kinds. -/
def faultKindCode : FaultKind → Nat
  | .windowRead => 1
  | .windowWrite => 2
  | .bus => 3

/-- The raw half selector. -/
def selectorCode : Option (Fin 2) → Nat
  | none => 0
  | some h => h.val + 1

/-! ## Fields -/

/-- A one-byte field. -/
def field1 (v : Nat) : List Byte := leBytes 1 v

/-- A 32-bit field. -/
def field32 (w : Word32) : List Byte := leBytes 4 w.toNat

/-- A tick field: eight bytes (R177). An absent tick is zero. -/
def fieldTick (t : Option Nat) : List Byte := leBytes 8 (t.getD 0)

/-- A map of 256 marks: channel c at bit c mod 8 of byte c ÷ 8. -/
def fieldMap (m : BitVec 256) : List Byte := leBytes 32 m.toNat

/-! ## Pick and event records -/

/-- A pick record with its sequence. -/
def pickBytes (seq : Word32) (p : Pick) : List Byte :=
  render 32 0
    [(0x00, field32 seq), (0x04, field1 p.channel), (0x05, field1 (endReasonCode p.reason)), (0x06, field1 p.peakCf),
      (0x08, leBytes 8 p.onTick), (0x10, leBytes 8 p.offTick), (0x18, leBytes 8 p.peakTick)]

/-- A stage part of an event record, zeros when it is absent (R177). -/
def stagePart : Option Peak → List Byte
  | none => render 32 0 []
  | some p =>
    render 32 0
      [(0x00, field1 p.grid), (0x02, leBytes 2 p.node), (0x04, field1 p.q), (0x06, leBytes 2 p.wsum),
        (0x08, leBytes 2 p.contributors), (0x10, leBytes 8 p.t0)]

/-- An arrival entry. -/
def arrivalBytes (a : Arrival) : List Byte :=
  render 8 0 [(0x00, field1 a.channel), (0x01, field1 a.cf), (0x02, leBytes 2 a.offset)]

/-- The presence field of an event record. -/
def presenceBits (o : EventOutcome) : Nat :=
  flagBit o.stage1.isSome 0 + flagBit o.stage2.isSome 1 + flagBit o.order.isSome 2

/-- The kind of a request: DECLARED 1, ORDERED 2 (R178). -/
def requestKindCode (order : Option (Nat × BitVec 8)) : Nat := if order.isSome then 2 else 1

/-- The slot index that an order names, 0 for none. -/
def orderSlot (order : Option (Nat × BitVec 8)) : Nat := (order.map Prod.fst).getD 0

/-- The sequence that an order names, 0 for none. -/
def orderSeq (order : Option (Nat × BitVec 8)) : Nat := (order.map (fun o => o.2.toNat)).getD 0

/-- An event record. A marker record holds the outcome MARK and its tag, and zeros (R156). -/
def eventBytes (r : EventRecord) : List Byte :=
  match r.content with
  | .marker tag =>
    render 256 0 [(0x00, field32 r.seq), (0x08, field1 markOutcomeCode), (0x20, field32 tag)]
  | .scan o =>
    render 256 0
      [(0x00, field32 r.seq), (0x04, leBytes 2 o.number), (0x06, field1 (requestKindCode o.order)),
        (0x07, field1 o.level), (0x08, field1 (outcomeCode o.outcome)), (0x09, field1 (presenceBits o)),
        (0x0A, field1 (orderSlot o.order)), (0x0B, field1 (orderSeq o.order)), (0x0C, leBytes 2 (flagsWord o.flags)),
        (0x0E, leBytes 2 o.declaredVotes), (0x10, leBytes 2 o.peakVotes), (0x12, field1 o.arrivals.length),
        (0x14, leBytes 4 o.merged), (0x18, leBytes 8 o.refTick), (0x30, stagePart o.stage1),
        (0x50, stagePart o.stage2), (0x70, (o.arrivals.map arrivalBytes).flatten)]

/-! ## Raw halves -/

/-- What a raw position of an absent sample holds (R160). -/
def absentSample : List Byte := leBytes 4 0x80000000

/-- A raw position: the sample extended to 32 bits, or the absent form. -/
def rawSampleBytes (samples : List (Nat × BitVec 24)) (position : Nat) : List Byte :=
  match samples.find? (fun e => e.1 == position) with
  | some e => leBytes 4 (e.2.signExtend 32).toNat
  | none => absentSample

/-- The 1,024 bytes of one tick of an epoch (R169). -/
def rawTickBytes (e : RawEpoch) (tick : Nat) : List Byte :=
  let here := e.samples.filter fun x => x.1 / 256 == tick
  ((numbersFrom (256 * tick) 256).map (rawSampleBytes here)).flatten

/-- The header bytes from offset 0x08 to 0x7F: epoch number and absent map (R169). -/
def rawHeaderBytes (e : RawEpoch) : List Byte :=
  render 120 0 [(0x00, leBytes 8 e.epoch), (0x08, fieldMap e.absent)]

/-! ## The progress block (R163) -/

/-- The levels of the banks in service (R82). -/
def inServiceLevels (banks : List (Option Scan)) : List Nat :=
  banks.filterMap (fun b => b.map (fun sc => sc.request.level))

/-- The in-service level set as bits, bit n for level n. -/
def levelBits (banks : List (Option Scan)) : Nat :=
  ((numbersFrom 0 4).map (fun n => flagBit ((inServiceLevels banks).contains n) n)).sum

/-- A bank's four bytes: state, level and request number. -/
def bankBytes : Option Scan → List Byte
  | none => render 4 0 []
  | some sc =>
    render 4 0 [(0, field1 (if sc.running then 1 else 2)), (1, field1 sc.request.level), (2, leBytes 2 sc.request.number)]

/-- The node count in force of a grid, 0 for an undefined one (R108). -/
def nodeCountInForce (grids : List GridRecord) (g : Nat) : Nat :=
  ((gridDefn grids g).map GridDef.nodeCount).getD 0

/-- A grid's four bytes: node count in force and invalid mark. -/
def gridBytes (r : GridRecord) : List Byte :=
  render 4 0 [(0, leBytes 2 ((r.defn.map GridDef.nodeCount).getD 0)), (2, boolByte r.invalid)]

/-- A fault record of the mirror, 24 bytes. -/
def faultRecordBytes : Option FaultRecord → List Byte
  | none => render 24 0 []
  | some f =>
    render 24 0
      [(0x00, field1 1), (0x01, field1 (faultSourceCode f.source)), (0x02, field1 (faultKindCode f.kind)),
        (0x03, boolByte f.horizon.isSome), (0x04, leBytes 2 f.count), (0x08, leBytes 8 f.addr),
        (0x10, fieldTick f.horizon)]

/-- A hub's 64 bytes: state, actual lane count and the eleven counters in the order of R38's table. -/
def hubBytes (h : Hub) : List Byte :=
  let c := h.counters
  render 64 0
    [(0x00, field1 (hubStateCode h.state)), (0x01, field1 h.actualLanes),
      (0x04, ([c.good, c.crcFailures, c.lengthErrors, c.misrouted, c.misaligned, c.duplicates, c.late, c.slips,
        c.gapTicks, c.timingLost, c.timingHold].map field32).flatten)]

/-- The invalid-station map (R41), channel c at bit c. -/
def invalidMap (channels : List Channel) : BitVec 256 :=
  BitVec.ofNat 256 ((numbered 0 channels).map (fun e => flagBit e.2.invalid e.1)).sum

/-- The forty-one counters of the progress block, each group in its rule's order. -/
def progressCounters (c : Chip) : List Word32 :=
  let d := c.dlv.counters
  [c.ord.polls, c.ord.taken, c.ord.duplicates, c.ord.torn,
    c.sce.parks, c.sce.resumes, c.sce.stage2Runs,
    c.chc.counters.normal, c.chc.counters.cut, c.chc.counters.long, c.chc.counters.disabled, c.chc.counters.reload,
    c.chc.counters.unreported, c.chc.counters.restarts,
    c.ccu.declarations, c.ccu.merges, c.ccu.lost, c.ccu.displaced,
    c.tcu.hits, c.tcu.misses, c.tcu.evictions, c.tcu.dropped, c.tcu.invalidations,
    d.picksWritten, d.eventsWritten, d.lostPicks, d.lostEvents, d.located, d.weak, d.empty, d.stale, d.cancelled,
    d.stopped, d.displaced, d.unreported, d.markers, d.rawWritten, d.rawLost, d.returnReads, d.clamps, d.progressWrites]

/-- The part state that a successful binding enters (R13, R17). -/
def boundState (c : Chip) : PartState :=
  if (c.rgp.binding.map Binding.auto).getD false then .listening else .bound

/-- The progress block image with a given part state (R163). The bind completion's first image shows the state about
to be entered (R13). -/
def progressImage (state : PartState) (c : Chip) : List Byte :=
  render 4096 0
    [(0x000, field32 c.dlv.updateCount), (0x004, field1 (partStateCode state)),
      (0x005, boolByte c.lki.horizon.isSome), (0x006, field1 (selectorCode c.dlv.selector)),
      (0x007, field1 c.ord.expected.toNat), (0x008, fieldTick c.lki.horizon), (0x010, field32 c.dlv.epochCount),
      (0x014, boolByte c.ord.drainPending.isSome), (0x015, field1 c.ord.openOrders.length),
      (0x016, field1 c.dlv.pendingEvents.length), (0x017, field1 c.ccu.queue.length),
      (0x018, field32 c.dlv.pick.published), (0x01C, field32 c.dlv.pick.released),
      (0x020, field32 c.dlv.event.published), (0x024, field32 c.dlv.event.released),
      (0x028, field1 (flagBit c.dlv.pick.noRoom 0 + flagBit c.dlv.event.noRoom 1)),
      (0x029, field1 (levelBits c.sce.banks)), (0x030, (c.sce.banks.map bankBytes).flatten),
      (0x040, (c.tcu.grids.map gridBytes).flatten), (0x050, field1 c.tcu.cache.length),
      (0x060, (c.mpt.records.map faultRecordBytes).flatten), (0x0C0, field32 c.mpt.overflow),
      (0x100, fieldMap (invalidMap c.chc.channels)), (0x140, ((progressCounters c).map field32).flatten),
      (0x200, (c.lki.hubs.map hubBytes).flatten), (0xFFC, field32 c.dlv.updateCount)]

/-- The part state in the image: in a binding that has built its image, the state about to be entered (R13). -/
def imageState (c : Chip) : PartState := if c.rgp.partState = .binding then boundState c else c.rgp.partState

/-- A cleared image (R166; log entry 34). -/
def clearedImage : List Byte := List.replicate 4096 0

/-- The bytes of the progress block image that DLV holds (R163, R166). -/
def Chip.image (c : Chip) : List Byte :=
  match c.dlv.image with
  | .cleared => clearedImage
  | .current => progressImage (imageState c) c
  | .frozen bytes => bytes

end Sys2Proof.Machine
end

