-- ==== Sys2Proof/Machine/Ops.lean ====
section
/-! DEFINITION. The operations every block shares: the memory port (R168 to R175), the asking for a progress block
write (R164), the return block read (R151), the changes of the part state (R8, R16), and the form of a step. -/

namespace Sys2Proof.Machine

/-! ## Changes of one block -/

/-- Changes RGP alone. -/
def Chip.onRgp (f : Rgp → Rgp) (c : Chip) : Chip := { c with rgp := f c.rgp }
/-- Changes MPT alone. -/
def Chip.onMpt (f : Mpt → Mpt) (c : Chip) : Chip := { c with mpt := f c.mpt }
/-- Changes LKI alone. -/
def Chip.onLki (f : Lki → Lki) (c : Chip) : Chip := { c with lki := f c.lki }
/-- Changes CHC alone. -/
def Chip.onChc (f : Chc → Chc) (c : Chip) : Chip := { c with chc := f c.chc }
/-- Changes CCU alone. -/
def Chip.onCcu (f : Ccu → Ccu) (c : Chip) : Chip := { c with ccu := f c.ccu }
/-- Changes SCE alone. -/
def Chip.onSce (f : Sce → Sce) (c : Chip) : Chip := { c with sce := f c.sce }
/-- Changes TCU alone. -/
def Chip.onTcu (f : Tcu → Tcu) (c : Chip) : Chip := { c with tcu := f c.tcu }
/-- Changes ORD alone. -/
def Chip.onOrd (f : Orders → Orders) (c : Chip) : Chip := { c with ord := f c.ord }
/-- Changes DLV alone. -/
def Chip.onDlv (f : Dlv → Dlv) (c : Chip) : Chip := { c with dlv := f c.dlv }
/-- Changes DLV's counters alone. -/
def Chip.onDlvCounters (f : DlvCounters → DlvCounters) (c : Chip) : Chip :=
  c.onDlv fun d => { d with counters := f d.counters }

/-- A block sets a cause bit (R5). -/
def setCause (bit : Nat) (c : Chip) : Chip := c.onRgp (Rgp.setCause bit)

/-- The part states in which ORD polls and DLV writes: BOUND, LISTENING and STOPPING. -/
def PartState.active : PartState → Bool
  | .bound | .listening | .stopping => true
  | .unbound | .binding | .faulted => false

/-- The part is BOUND, LISTENING or STOPPING. -/
def Chip.active (c : Chip) : Bool := c.rgp.partState.active

/-- The layout in force; all zeros when there is none. -/
def Chip.layout (c : Chip) : Layout := c.rgp.layout.getD ⟨0, 0, 0, 0, 0, 0, 0, 0, 0, 0, 0⟩

/-! ## The memory port -/

/-- A read of `len` bytes. -/
def readAccess (p : Purpose) (addr len : Nat) : Access := ⟨p, false, addr, len, []⟩

/-- A write of some bytes. -/
def writeAccess (p : Purpose) (addr : Nat) (bytes : List Byte) : Access := ⟨p, true, addr, bytes.length, bytes⟩

/-- The requests of a block that wait. -/
def Mpt.waits (m : Mpt) : Requester → List Access
  | .rgp => m.waitRgp
  | .tcu => m.waitTcu
  | .ord => m.waitOrd
  | .dlv => m.waitDlv

/-- Puts a block's waiting requests. -/
def Mpt.setWaits (m : Mpt) (l : List Access) : Requester → Mpt
  | .rgp => { m with waitRgp := l }
  | .tcu => { m with waitTcu := l }
  | .ord => { m with waitOrd := l }
  | .dlv => { m with waitDlv := l }

/-- A block requests an access: it joins the end of the block's requests (R169). -/
def request (b : Requester) (a : Access) (c : Chip) : Chip := c.onMpt fun m => m.setWaits (m.waits b ++ [a]) b

/-- A block requests several accesses, in order. -/
def requestAll (b : Requester) (l : List Access) (c : Chip) : Chip := c.onMpt fun m => m.setWaits (m.waits b ++ l) b

/-- The block after a block in the rotation (R169). -/
def Requester.after : Requester → Requester
  | .rgp => .tcu
  | .tcu => .ord
  | .ord => .dlv
  | .dlv => .rgp

/-- Grants the bus to the first of the listed blocks that has a request waiting. -/
def grantAmong : List Requester → Mpt → Mpt
  | [], m => m
  | b :: rest, m =>
    match m.waits b with
    | [] => grantAmong rest m
    | a :: l => { m.setWaits l b with onBus := some a, lastGrant := b }

/-- MPT grants a free bus in rotation, from the block after the one last granted; one access a grant (R169). -/
def Mpt.grant (m : Mpt) : Mpt :=
  match m.onBus with
  | some _ => m
  | none =>
    let b := m.lastGrant.after
    grantAmong [b, b.after, b.after.after, b.after.after.after] m

/-- The window check of R168: a read passes wholly in the read window or wholly in the write window, a write wholly in
the write window. -/
def accessPasses (w : Option Windows) (a : Access) : Bool :=
  match w with
  | none => false
  | some w => (!a.write && w.read.holds a.addr a.len) || w.write.holds a.addr a.len

/-- The source under which a failed access is recorded (R171). -/
def faultSourceOf : Purpose → FaultSource
  | .directory | .bindSettings | .bindGrid _ | .bindHub _ | .bindStation _ => .bind
  | .row _ _ => .rows
  | .refine _ _ => .refine
  | .reloadGrid _ _ | .reloadStation _ _ | .reloadHub _ _ | .reloadConfig => .tables
  | .slotRead _ | .slotResult _ | .slotState _ _ => .orders
  | .returnBlock | .record _ => .streams
  | .progressFirst | .progressMiddle | .progressLast => .progress
  | .rawState _ | .rawHeader _ | .rawTick _ _ | .rawFull _ => .raw

/-- The accesses whose bus error halts the part, with the halt source (R16, R171). -/
def haltSourceOf : Purpose → Option HaltSource
  | .slotResult _ | .slotState _ _ => some .orders
  | .progressFirst | .progressMiddle | .progressLast => some .progress
  | _ => none

/-! ## Fault records (R172, R174) -/

/-- A record whose source is `src` holds one more fault; its count stays at 65,535 (R172). -/
def againIn (src : FaultSource) : Option FaultRecord → Option FaultRecord
  | some f => some (if f.source = src then { f with count := min (f.count + 1) 65535 } else f)
  | none => none

/-- A valid record has this source. -/
def hasSource (src : FaultSource) : Option FaultRecord → Bool
  | some f => f.source == src
  | none => false

/-- Puts a record into the lowest-numbered free place; none when no place is free. -/
def putFree (f : FaultRecord) : List (Option FaultRecord) → Option (List (Option FaultRecord))
  | [] => none
  | none :: rest => some (some f :: rest)
  | some g :: rest => (putFree f rest).map (some g :: ·)

/-- MPT records a fault in one of the three ways of R172. -/
def Mpt.record (src : FaultSource) (kind : FaultKind) (addr : Nat) (horizon : Option Nat) (m : Mpt) : Mpt :=
  if m.records.any (hasSource src) then { m with records := m.records.map (againIn src) }
  else
    match putFree ⟨src, kind, addr, 1, horizon⟩ m.records with
    | some l => { m with records := l }
    | none => { m with overflow := countUp m.overflow }

/-! ## The progress block write (R164) -/

/-- One more than a count of four bytes. Past its largest value the manual states no result: the value is free. -/
def countOrFree (w : Word32) (free : Nat) : Word32 :=
  if w.toNat = counterMax then Config.countPastMax free else w + 1

/-- The free values used once a count has been increased. -/
def freeAfter (w : Word32) (free : Nat) : Nat := if w.toNat = counterMax then free + 1 else free

/-- The update count increases by 1 (R164). -/
def stepUpdateCount (c : Chip) : Chip :=
  { c with
    dlv := { c.dlv with updateCount := countOrFree c.dlv.updateCount c.freeUses }
    freeUses := freeAfter c.dlv.updateCount c.freeUses }

/-- DLV notes what the write now beginning carries: the published totals, the epoch count and the faults (R164, R173). -/
def Dlv.carry (d : Dlv) : Dlv :=
  { d with
    progress := some ⟨d.pick.published, d.event.published, d.epochCount, d.faultUnshown⟩
    faultUnshown := false }

/-- The three accesses of a progress block write of an image (R164, R169). -/
def progressAccesses (base : Nat) (image : List Byte) : List Access :=
  [writeAccess .progressFirst base (image.take 4),
    writeAccess .progressMiddle (base + 4) ((image.drop 4).take 4088),
    writeAccess .progressLast (base + 0xFFC) (image.drop 4092)]

/-- A progress block write begins, with the image as it stands and the part state it is to show (R13, R164). -/
def beginProgress (state : PartState) (c : Chip) : Chip :=
  let c := (stepUpdateCount c).onDlv Dlv.carry
  requestAll .dlv (progressAccesses c.layout.progress (progressImage state c)) c

/-- An occasion for a progress block write: a write begins, or, with one in flight or begun, the rewrite mark is set
(R164). -/
def Dlv.ask (d : Dlv) : Dlv :=
  if d.progress.isSome || d.progressAsked then { d with rewrite := true } else { d with progressAsked := true }

/-- DLV asks for a progress block write, in BOUND, LISTENING and STOPPING (R164). -/
def askProgress (c : Chip) : Chip := if c.active then c.onDlv Dlv.ask else c

/-- A write begun in the step under way carries the image that the step leaves (R163, R164). -/
def startAsked (c : Chip) : Chip :=
  if c.dlv.progressAsked then
    let c := c.onDlv fun d => { d with progressAsked := false }
    if c.active then beginProgress c.rgp.partState c else c
  else c

/-- The end of a step: a progress block write asked for begins, and MPT grants a free bus (R164, R169). -/
def concludeStep (c : Chip) : Chip := (startAsked c).onMpt Mpt.grant

/-- MPT records a fault and sets FAULT at once (R173, second way). -/
def recordFaultNow (src : FaultSource) (kind : FaultKind) (addr : Nat) (c : Chip) : Chip :=
  setCause causeFault (c.onMpt (Mpt.record src kind addr c.lki.horizon))

/-- MPT records a fault. In BOUND, LISTENING and STOPPING DLV asks for the progress block write that will set FAULT;
elsewhere MPT sets FAULT at once (R173). -/
def recordFault (src : FaultSource) (kind : FaultKind) (addr : Nat) (c : Chip) : Chip :=
  if c.active then
    askProgress ((c.onMpt (Mpt.record src kind addr c.lki.horizon)).onDlv fun d => { d with faultUnshown := true })
  else recordFaultNow src kind addr c

/-! ## The return block read (R151) -/

/-- DLV begins a return block read, or sets the reread mark when one is in flight (R151). -/
def beginReturnRead (c : Chip) : Chip :=
  if c.active then
    if c.dlv.returnRead then c.onDlv fun d => { d with reread := true }
    else
      request .dlv (readAccess .returnBlock c.layout.returnBlock 64) (c.onDlv fun d => { d with returnRead := true })
  else c

/-! ## Part states (R8, R16) -/

/-- The part changes state, which sets STATE (R8). -/
def changeState (st : PartState) (c : Chip) : Chip :=
  setCause causeState (c.onRgp fun r => { r with partState := st })

/-- The part enters BOUND, LISTENING or STOPPING, which DLV writes into the progress block (R8, R164). -/
def enterState (st : PartState) (c : Chip) : Chip := askProgress (changeState st c)

/-- LKI disables a hub: it drops its buffer and forgets its place, and keeps its counters and actual lane count (R22). -/
def Hub.disable (h : Hub) : Hub :=
  { h with state := .disabled, buffer := [], nextTick := none, lastSeq := none, marker := none, silence := none
           badCount := 0 }

/-- LKI disables every hub; H keeps its value (R22). -/
def Lki.disableAll (l : Lki) : Lki := { l with hubs := l.hubs.map Hub.disable }

/-- MPT abandons the accesses not yet issued (R175). -/
def Mpt.abandonWaiting (m : Mpt) : Mpt := { m with waitRgp := [], waitTcu := [], waitOrd := [], waitDlv := [] }

/-- CCU on entry to FAULTED (R78). -/
def Ccu.discard (u : Ccu) : Ccu := { u with queue := [], target := none }

/-- SCE on entry to FAULTED (R106). -/
def Sce.discard (e : Sce) : Sce := { e with banks := e.banks.map fun _ => none }

/-- TCU on entry to FAULTED (R127). -/
def Tcu.discard (t : Tcu) : Tcu := { t with fetch := none, reload := none, waiting := [], drain := none }

/-- ORD on entry to FAULTED (R145). -/
def Orders.discard (o : Orders) : Orders :=
  { o with drainPending := none, openOrders := [], poll := none, repeatMark := false, timer := none, takeRun := none }

/-- DLV on entry to FAULTED: pending records are counted lost, the raw epochs and the writes and reads in flight are
abandoned (R158, R166). -/
def Dlv.discard (d : Dlv) : Dlv :=
  { d with
    pendingEvents := []
    returnRead := false
    reread := false
    assembly := none
    outgoing := none
    progress := none
    progressAsked := false
    rewrite := false
    counters := { d.counters with lostEvents := addCount d.counters.lostEvents d.pendingEvents.length } }

/-- DLV's image is frozen on entry to FAULTED (R166). -/
def Dlv.freeze (image : List Byte) (d : Dlv) : Dlv := { d with image := .frozen image }

/-- RGP on entry to FAULTED. A binding ended by its first progress block write still has the result OK (R13, R16). -/
def Rgp.halt (hs : HaltSource) (r : Rgp) : Rgp :=
  { r with
    partState := .faulted
    haltSource := hs
    bindResult := if r.binding.isSome then .ok else r.bindResult
    binding := none }

/-- The part enters FAULTED (R16). The image that DLV freezes is the one before the entry's other effects, and a fault
recorded in FAULTED does not reach it: that reading of R166 beside R163 and R173 is the model's (log entry 34). -/
def enterFaulted (hs : HaltSource) (c : Chip) : Chip :=
  setCause causeState
    { c with
      rgp := c.rgp.halt hs
      mpt := c.mpt.abandonWaiting
      lki := c.lki.disableAll
      ccu := c.ccu.discard
      sce := c.sce.discard
      tcu := c.tcu.discard
      ord := c.ord.discard
      dlv := c.dlv.discard.freeze c.image }

/-! ## The end of an access (R170, R171, R175) -/

/-- The bus is free: the access on it has ended. -/
def freeBus (c : Chip) : Chip := c.onMpt fun m => { m with onBus := none }

/-- An access fails with a bus error. A failed progress block or order slot write halts the part; any other failure is
recorded and handed to the block that asked, as its `handler` says (R171). The part enters FAULTED while the bus is free
and before MPT grants it again: R16, R171 and R175 also speak of an access on the bus at the entry and of a second halting
fault, which no run of the model then meets. That order is the model's choice (log entry 33). -/
def accessFails (handler : Access → Option (List Byte) → Chip → Chip) (a : Access) (c : Chip) : Chip :=
  match haltSourceOf a.purpose with
  | some hs => enterFaulted hs (recordFaultNow (faultSourceOf a.purpose) .bus a.addr c)
  | none => handler a none (recordFault (faultSourceOf a.purpose) .bus a.addr c)

/-- An access has ended: with the data read (none of it for a write), or with a bus error. In FAULTED an answer is
discarded, and a failure is recorded (R175). R149 and R165 count every record write that fails as lost, and R149 advances
the published total past it; R175 has a failure in FAULTED recorded and names nothing else. The model follows R175: the
counter and the total stay (log entry 32). -/
def accessResult (handler : Access → Option (List Byte) → Chip → Chip) (a : Access) (result : Option (List Byte))
    (c : Chip) : Chip :=
  match result with
  | some bytes => if c.rgp.partState = .faulted then c else handler a (some bytes) c
  | none =>
    if c.rgp.partState = .faulted then recordFaultNow (faultSourceOf a.purpose) .bus a.addr c
    else accessFails handler a c

/-- The access on the bus ends, the block that asked acts on its answer, and MPT grants the bus again (R169, R170). -/
def accessEnds (handler : Access → Option (List Byte) → Chip → Chip) (a : Access) (result : Option (List Byte))
    (c : Chip) : Chip :=
  concludeStep (accessResult handler a result (freeBus c))

/-! ## The form of a step -/

/-- What the host calls the outcome of a step of this machine. -/
abbrev StepOutcome := Host.Outcome State Fault Refusal

/-- A command that changes the part alone. -/
def commandStep (f : Chip → Chip) (s : State) : StepOutcome :=
  .next { s with chip := concludeStep (f s.chip) }

/-- A register write: ignored while the reset pin is held (R17). -/
def registerWrite (f : Chip → Chip) (s : State) : StepOutcome :=
  commandStep (fun c => if c.rgp.resetHeld then c else f c) s

/-- The answer to a read. It concerns the access on the bus when that access has the purpose the answer is for; any
other answer is late and is discarded (R170). -/
def answerRead (isFor : Purpose → Bool) (handler : Access → Option (List Byte) → Chip → Chip) (answer : ReadAnswer)
    (s : State) : StepOutcome :=
  match s.chip.mpt.onBus with
  | none => .next s
  | some a =>
    if isFor a.purpose then
      match answer with
      | .error => .next { s with chip := accessEnds handler a none s.chip }
      | .data bytes =>
        if bytes.length = a.len then .next { s with chip := accessEnds handler a (some bytes) s.chip }
        else .fault .answerLength
    else .next s

/-- The answer to a write, judged as `answerRead` judges one to a read. -/
def answerWrite (isFor : Purpose → Bool) (handler : Access → Option (List Byte) → Chip → Chip) (ok : Bool)
    (s : State) : StepOutcome :=
  match s.chip.mpt.onBus with
  | none => .next s
  | some a =>
    if isFor a.purpose then
      .next { s with chip := accessEnds handler a (if ok then some [] else none) s.chip }
    else .next s

end Sys2Proof.Machine
end

