-- ==== Sys2Proof/Machine/Delivery.lean ====
section
/-! DEFINITION. DLV: streams and room, picks, event records and the pending event queue, the return block, raw epochs,
and the completion of a progress block write (R147 to R166). -/

namespace Sys2Proof.Machine

/-! ## Streams (R147, R148) -/

/-- A stream of DLV. -/
def Dlv.stream (d : Dlv) : StreamId → StreamState
  | .pick => d.pick
  | .event => d.event

/-- Changes one stream of DLV. -/
def Dlv.onStream (id : StreamId) (f : StreamState → StreamState) (d : Dlv) : Dlv :=
  match id with
  | .pick => { d with pick := f d.pick }
  | .event => { d with event := f d.event }

/-- Changes one stream. -/
def onStream (id : StreamId) (f : StreamState → StreamState) (c : Chip) : Chip := c.onDlv (Dlv.onStream id f)

/-- A stream has room (R148). -/
def StreamState.hasRoom (s : StreamState) : Bool := decide ((s.written - s.released).toNat < s.slots)

/-- The base of a stream. -/
def Layout.streamBase (l : Layout) : StreamId → Nat
  | .pick => l.picks
  | .event => l.events

/-- The record size of a stream (R2). -/
def recordSize : StreamId → Nat
  | .pick => 32
  | .event => 256

/-- The address of the slot the next record of a stream takes (R147). -/
def slotAddress (l : Layout) (id : StreamId) (s : StreamState) : Nat :=
  l.streamBase id + (s.written.toNat % s.slots) * recordSize id

/-- Assigns a record the next slot and issues its write (R147, R149). -/
def assignRecord (id : StreamId) (bytes : List Byte) (c : Chip) : Chip :=
  onStream id (fun s => { s with written := s.written + 1 })
    (request .dlv (writeAccess (.record id) (slotAddress c.layout id (c.dlv.stream id)) bytes) c)

/-- The sequence after a sequence: it wraps from 4,294,967,295 to 1 (R154, R156). -/
def nextSequence (w : Word32) : Word32 := if w.toNat = counterMax then 1 else w + 1

/-- The no-room mark of a stream is set; ROOM is set when the mark was clear (R153). -/
def markNoRoom (id : StreamId) (c : Chip) : Chip :=
  if (c.dlv.stream id).noRoom then c
  else setCause causeRoom (onStream id (fun s => { s with noRoom := true }) c)

/-- A record meets a stream with no room: the mark and ROOM, and a return block read (R151, R153). -/
def meetNoRoom (id : StreamId) (c : Chip) : Chip := beginReturnRead (markNoRoom id c)

/-! ## Picks (R154) -/

/-- The next sequence of a stream is taken. -/
def takeSequence (id : StreamId) (c : Chip) : Chip :=
  onStream id (fun s => { s with sequence := nextSequence s.sequence }) c

/-- DLV judges a pick: it writes the pick with the next sequence, or drops it for lack of room (R154). -/
def deliverPick (p : Pick) (c : Chip) : Chip :=
  if c.dlv.pick.hasRoom then
    assignRecord .pick (pickBytes (nextSequence c.dlv.pick.sequence) p) (takeSequence .pick c)
  else
    meetNoRoom .pick (c.onDlvCounters fun n => { n with lostPicks := countUp n.lostPicks })

/-! ## Event records (R155 to R159) -/

/-- The final peak of an outcome LOCATED or WEAK (R99, R157). -/
def finalPeakOf (o : EventOutcome) : Option Peak :=
  match o.outcome with
  | .located => if o.flags.unrefined then o.stage1 else o.stage2
  | .weak => o.stage1
  | .empty | .stale | .cancelled | .stopped | .displaced => none

/-- The coherence of a record in the full-queue rule (R157). -/
def coherence : EventContent → Nat
  | .scan o => ((finalPeakOf o).map Peak.q).getD 0
  | .marker _ => 0

/-- The waiting record with the lowest coherence, of equal ones the one with the highest event sequence (R157). Where the
queue holds sequences from both sides of the wrap from 4,294,967,295 to 1 (R156), the model takes the highest to be the
newest, the record appended last, and not the numerically highest (log entry 31). -/
def weakestRecord : List EventRecord → Option EventRecord
  | [] => none
  | r :: rest =>
    match weakestRecord rest with
    | none => some r
    | some w => if coherence r.content < coherence w.content then some r else some w

/-- Removes a record, named by its event sequence, from the pending event queue. -/
def removeRecord (seq : Word32) (l : List EventRecord) : List EventRecord := l.filter fun r => r.seq != seq

/-- Puts the pending event queue. -/
def setPendingEvents (l : List EventRecord) (c : Chip) : Chip := c.onDlv fun d => { d with pendingEvents := l }

/-- The pending write of R158 over the records that wait: the oldest are assigned slots while the stream has room. When
it stops for lack of room, the no-room mark and ROOM are set, and a return block read begins if the mark was clear. -/
def writePending : List EventRecord → Chip → Chip
  | [], c => setPendingEvents [] c
  | r :: rest, c =>
    if c.dlv.event.hasRoom then writePending rest (assignRecord .event (eventBytes r) c)
    else if c.dlv.event.noRoom then setPendingEvents (r :: rest) c
    else meetNoRoom .event (setPendingEvents (r :: rest) c)

/-- The pending write (R158). -/
def pendingWrite (c : Chip) : Chip := writePending c.dlv.pendingEvents c

/-- A record takes the next event sequence and joins the pending event queue (R156, R157). -/
def joinPending (content : EventContent) (c : Chip) : Chip :=
  setPendingEvents (c.dlv.pendingEvents ++ [⟨nextSequence c.dlv.event.sequence, content⟩]) (takeSequence .event c)

/-- A record is appended to the pending event queue. With room in the stream the pending write follows; with none the
record meets a stream with no room (R156, R158). -/
def appendRecord (content : EventContent) (c : Chip) : Chip :=
  let c := joinPending content c
  if c.dlv.event.hasRoom then pendingWrite c else meetNoRoom .event c

/-- A record is written directly: the pending event queue is empty and the stream has room (R156). -/
def writeDirect (content : EventContent) (c : Chip) : Chip :=
  assignRecord .event (eventBytes ⟨nextSequence c.dlv.event.sequence, content⟩) (takeSequence .event c)

/-- A record displaced or dropped by the full-queue rule is lost (R157). -/
def countLostEvent (c : Chip) : Chip := c.onDlvCounters fun n => { n with lostEvents := countUp n.lostEvents }

/-- A record that has displaced another is appended. It has met a stream with no room already; were there room, the
pending write would follow (R157, R158). -/
def appendDisplacing (content : EventContent) (c : Chip) : Chip :=
  let c := joinPending content c
  if c.dlv.event.hasRoom then pendingWrite c else c

/-- The full-queue rule (R157): the weakest waiting record gives way to a record of greater coherence; any other new
record is dropped, and takes no sequence. Either way the record has met a stream with no room (R156). -/
def deliverFull (content : EventContent) (c : Chip) : Chip × Option Word32 :=
  let c := countLostEvent (meetNoRoom .event c)
  match weakestRecord c.dlv.pendingEvents with
  | none => (c, none)
  | some w =>
    if coherence w.content < coherence content then
      let c := setPendingEvents (removeRecord w.seq c.dlv.pendingEvents) c
      (appendDisplacing content c, some (nextSequence c.dlv.event.sequence))
    else (c, none)

/-- DLV delivers a reported outcome or a marker, and answers with the event sequence assigned, if any (R156). -/
def deliverContent (content : EventContent) (c : Chip) : Chip × Option Word32 :=
  if c.dlv.pendingEvents.length < 8 then
    if c.dlv.pendingEvents.isEmpty && c.dlv.event.hasRoom then
      (writeDirect content c, some (nextSequence c.dlv.event.sequence))
    else (appendRecord content c, some (nextSequence c.dlv.event.sequence))
  else deliverFull content c

/-- The outcome counter of a kind increases by 1 (R155). -/
def DlvCounters.countOutcome (n : DlvCounters) : ScanOutcome → DlvCounters
  | .located => { n with located := countUp n.located }
  | .weak => { n with weak := countUp n.weak }
  | .empty => { n with empty := countUp n.empty }
  | .stale => { n with stale := countUp n.stale }
  | .cancelled => { n with cancelled := countUp n.cancelled }
  | .stopped => { n with stopped := countUp n.stopped }
  | .displaced => { n with displaced := countUp n.displaced }

/-- An outcome of this kind is not reported under this report-weak value (R155). -/
def unreportedKind (reportWeak : Nat) : ScanOutcome → Bool
  | .weak | .empty => reportWeak == 0
  | .located | .stale | .cancelled | .stopped | .displaced => false

/-- The report-weak value in force (R111). -/
def reportWeakInForce (c : Chip) : Nat := (c.tcu.settings.map Settings.reportWeak).getD 0

/-- DLV receives an event outcome: it counts it, and delivers it or counts it unreported. The answer is the event
sequence assigned, if any (R155). -/
def deliverOutcome (o : EventOutcome) (c : Chip) : Chip × Option Word32 :=
  let c := c.onDlvCounters fun n => n.countOutcome o.outcome
  if unreportedKind (reportWeakInForce c) o.outcome then
    (c.onDlvCounters fun n => { n with unreported := countUp n.unreported }, none)
  else deliverContent (.scan o) c

/-- DLV forms a marker record and delivers it (R159). -/
def deliverMarker (tag : Word32) (c : Chip) : Chip × Option Word32 :=
  deliverContent (.marker tag) (c.onDlvCounters fun n => { n with markers := countUp n.markers })

/-! ## Record writes and the return block (R149, R152) -/

/-- The stream of a record write. -/
def recordStream : Purpose → StreamId
  | .record id => id
  | _ => .pick

/-- A record write without error counts as written (R165). -/
def countWritten (id : StreamId) (n : DlvCounters) : DlvCounters :=
  match id with
  | .pick => { n with picksWritten := countUp n.picksWritten }
  | .event => { n with eventsWritten := countUp n.eventsWritten }

/-- A record whose write failed counts as lost (R149, R165). -/
def countRecordLost (id : StreamId) (n : DlvCounters) : DlvCounters :=
  match id with
  | .pick => { n with lostPicks := countUp n.lostPicks }
  | .event => { n with lostEvents := countUp n.lostEvents }

/-- A stream record write is answered: the published total advances past the record, failed or not, and DLV asks for a
progress block write (R149). -/
def recordAnswered (a : Access) (result : Option (List Byte)) (c : Chip) : Chip :=
  let id := recordStream a.purpose
  let c := c.onDlvCounters (if result.isSome then countWritten id else countRecordLost id)
  askProgress (onStream id (fun s => { s with published := s.published + 1 }) c)

/-- A released total read is beyond the written total or behind the released total (R152). -/
def StreamState.beyond (s : StreamState) (r : Word32) : Bool :=
  decide ((s.written - s.released).toNat < (r - s.released).toNat)

/-- A stream adopts a released total read, or clamps it to its written total (R152). -/
def StreamState.adopt (r : Word32) (s : StreamState) : StreamState :=
  { s with released := if s.beyond r then s.written else r }

/-- DLV adopts the released total read for a stream, counting a clamp (R152). -/
def adoptReleased (id : StreamId) (r : Word32) (c : Chip) : Chip :=
  let c' := onStream id (StreamState.adopt r) c
  if (c.dlv.stream id).beyond r then c'.onDlvCounters fun n => { n with clamps := countUp n.clamps } else c'

/-- The no-room mark of a stream with room is cleared (R152). -/
def clearNoRoom (s : StreamState) : StreamState := { s with noRoom := s.noRoom && !s.hasRoom }

/-- What DLV does with the return block read: adopts both released totals, clears the no-room marks of streams with
room, and makes the pending write (R152, R158). -/
def adoptReturnBlock (b : List Byte) (c : Chip) : Chip :=
  let c := adoptReleased .pick (BitVec.ofNat 32 (leValue b 0 4)) c
  let c := adoptReleased .event (BitVec.ofNat 32 (leValue b 4 4)) c
  pendingWrite (onStream .event clearNoRoom (onStream .pick clearNoRoom c))

/-- The return block read has ended; a set reread mark is cleared and a new read begins (R151). -/
def endReturnRead (c : Chip) : Chip :=
  if c.dlv.reread then beginReturnRead (c.onDlv fun d => { d with returnRead := false, reread := false })
  else c.onDlv fun d => { d with returnRead := false }

/-- The return block read is answered; a failed read leaves the totals as they were (R151, R152). -/
def returnBlockAnswered (_a : Access) (result : Option (List Byte)) (c : Chip) : Chip :=
  let c := c.onDlvCounters fun n => { n with returnReads := countUp n.returnReads }
  endReturnRead
    (match result with
      | some b => adoptReturnBlock b c
      | none => c)

/-! ## Raw epochs (R160 to R162) -/

/-- The ticks of an epoch. -/
def epochTicks : Nat := 500

/-- The assembly buffer at the first tick of an epoch that is handed: the positions of earlier ticks are in the absent
form and their channels marked absent (R160). -/
def startEpoch (t : Nat) : RawEpoch :=
  ⟨t / epochTicks, t % epochTicks, [], if t % epochTicks = 0 then 0 else BitVec.allOnes 256⟩

/-- The buffer that receives a tick: the one in hand when it is of the tick's epoch, else a new one (R160). -/
def epochFor (t : Nat) : Option RawEpoch → RawEpoch
  | some e => if e.epoch = t / epochTicks then e else startEpoch t
  | none => startEpoch t

/-- The present samples of a tick, each at its position (R160). -/
def presentSamples (offset : Nat) (samples : List (Option (BitVec 24))) : List (Nat × BitVec 24) :=
  (numbered 0 samples).filterMap fun e => e.2.map fun x => (256 * offset + e.1, x)

/-- The marks of the channels absent at a tick. -/
def absentMarks (samples : List (Option (BitVec 24))) : BitVec 256 :=
  BitVec.ofNat 256 ((numbered 0 samples).map fun e => flagBit e.2.isNone e.1).sum

/-- Places a tick's samples in the assembly buffer (R160). -/
def RawEpoch.place (t : Nat) (samples : List (Option (BitVec 24))) (e : RawEpoch) : RawEpoch :=
  { e with
    placed := t % epochTicks + 1
    samples := e.samples ++ presentSamples (t % epochTicks) samples
    absent := e.absent ||| absentMarks samples }

/-- The base of a raw half. -/
def Layout.rawBase (l : Layout) (half : Nat) : Nat := if half = 0 then l.raw0 else l.raw1

/-- The state read of a raw half (R161, R169). -/
def rawStateAccess (l : Layout) (half : Nat) : Access := readAccess (.rawState half) (l.rawBase half) 4

/-- The header write of a raw half: bytes 0x08 to 0x7F, as R169 lists the accesses of a delivery. The reserved bytes 0x04
to 0x07, into which R177 would have 0 written, are in none of those accesses and keep what memory holds: the model
follows R169 (log entry 25). -/
def rawHeaderAccess (l : Layout) (half : Nat) (e : RawEpoch) : Access :=
  writeAccess (.rawHeader half) (l.rawBase half + 0x08) (rawHeaderBytes e)

/-- The write of one tick of samples of a raw half (R169). -/
def rawTickAccess (l : Layout) (half tick : Nat) (e : RawEpoch) : Access :=
  writeAccess (.rawTick half tick) (l.rawBase half + 0x80 + 1024 * tick) (rawTickBytes e tick)

/-- The FULL write of a raw half (R161, R178). -/
def rawFullAccess (l : Layout) (half : Nat) : Access :=
  writeAccess (.rawFull half) (l.rawBase half) (leBytes 4 2)

/-- A complete epoch is offered: an idle raw writer begins to deliver it with its state reads; a busy one loses it
(R161). -/
def offerEpoch (e : RawEpoch) (c : Chip) : Chip :=
  match c.dlv.outgoing with
  | some _ => c.onDlvCounters fun n => { n with rawLost := countUp n.rawLost }
  | none =>
    request .dlv (rawStateAccess c.layout 0) (c.onDlv fun d => { d with outgoing := some ⟨e, false⟩ })

/-- The epoch count increases by 1 (R160). -/
def stepEpochCount (c : Chip) : Chip :=
  { c with
    dlv := { c.dlv with epochCount := countOrFree c.dlv.epochCount c.freeUses }
    freeUses := freeAfter c.dlv.epochCount c.freeUses }

/-- Settlement hands DLV a tick's raw samples. The last tick of an epoch completes it (R160). -/
def placeRawTick (t : Nat) (samples : List (Option (BitVec 24))) (c : Chip) : Chip :=
  let e := (epochFor t c.dlv.assembly).place t samples
  if t % epochTicks = epochTicks - 1 then
    offerEpoch e (stepEpochCount (c.onDlv fun d => { d with assembly := none }))
  else c.onDlv fun d => { d with assembly := some e }

/-- The half after the one last written (R161). -/
def preferredHalf : Option (Fin 2) → Fin 2
  | some h => if h = 0 then 1 else 0
  | none => 0

/-- The half chosen from what the two state words read (R161). -/
def chooseHalf (selector : Option (Fin 2)) (free0 free1 : Bool) : Option (Fin 2) :=
  if free0 && free1 then some (preferredHalf selector)
  else if free0 then some 0
  else if free1 then some 1
  else none

/-- The outgoing epoch is lost, and the raw writer becomes idle (R161, R162). -/
def loseEpoch (c : Chip) : Chip :=
  (c.onDlvCounters fun n => { n with rawLost := countUp n.rawLost }).onDlv fun d => { d with outgoing := none }

/-- A raw half state read is answered, a failed one as not FREE; once both are in, a half is chosen (R161, R162). -/
def rawStateAnswered (a : Access) (result : Option (List Byte)) (c : Chip) : Chip :=
  match c.dlv.outgoing with
  | none => c
  | some o =>
    let free := (result.map rawFree).getD false
    if a.purpose = .rawState 0 then
      request .dlv (rawStateAccess c.layout 1) (c.onDlv fun d => { d with outgoing := some { o with half0Free := free } })
    else
      match chooseHalf c.dlv.selector o.half0Free free with
      | some h => request .dlv (rawHeaderAccess c.layout h.val o.epoch) c
      | none => loseEpoch c

/-- A header or sample write of a raw half is answered: the next write is issued, or a fault ends the delivery (R161,
R162). -/
def rawHalfAnswered (a : Access) (result : Option (List Byte)) (c : Chip) : Chip :=
  match result, c.dlv.outgoing with
  | some _, some o =>
    match a.purpose with
    | .rawHeader h => request .dlv (rawTickAccess c.layout h 0 o.epoch) c
    | .rawTick h i =>
      if i + 1 < epochTicks then request .dlv (rawTickAccess c.layout h (i + 1) o.epoch) c
      else request .dlv (rawFullAccess c.layout h) c
    | _ => c
  | _, _ => loseEpoch c

/-- The half a FULL write names. -/
def fullHalf : Purpose → Fin 2
  | .rawFull h => if h = 0 then 0 else 1
  | _ => 0

/-- The FULL write is answered: the selector names the half, and the raw writer becomes idle (R161, R162). -/
def rawFullAnswered (a : Access) (result : Option (List Byte)) (c : Chip) : Chip :=
  match result with
  | none => loseEpoch c
  | some _ =>
    (c.onDlvCounters fun n => { n with rawWritten := countUp n.rawWritten }).onDlv fun d =>
      { d with selector := some (fullHalf a.purpose), outgoing := none }

/-! ## The completion of a progress block write (R150, R164) -/

/-- The notice count k in force for a stream (R111, R150). -/
def noticeLimit (id : StreamId) (c : Chip) : Nat :=
  match id with
  | .pick => (c.tcu.settings.map Settings.pickNotice).getD 0
  | .event => (c.tcu.settings.map Settings.eventNotice).getD 0

/-- The cause bit of a stream's notices (R150). -/
def noticeCause : StreamId → Nat
  | .pick => causePick
  | .event => causeEvent

/-- One record shown: the count afterwards, and whether it reached or passed k, which returns it to 0. With k = 0 the
count becomes 0 and reaches nothing (R150). -/
def noticeStep (k count : Nat) : Nat × Bool :=
  if k = 0 then (0, false) else if k ≤ count + 1 then (0, true) else (count + 1, false)

/-- The records of one showing step the count one after another; the Bool says whether some step reached or passed k
(R150). -/
def noticeSteps (k : Nat) : Nat → Nat → Nat × Bool
  | 0, count => (count, false)
  | m + 1, count =>
    let first := noticeStep k count
    let rest := noticeSteps k m first.1
    (rest.1, first.2 || rest.2)

/-- A completed write shows a stream's published total: the shown total takes it, the notice count steps once for each
record shown for the first time, and a count that reached k sets the stream's cause bit (R149, R150). -/
def showTotal (id : StreamId) (total : Word32) (c : Chip) : Chip :=
  let n := noticeSteps (noticeLimit id c) (total - (c.dlv.stream id).shown).toNat (c.dlv.stream id).notice
  let c := onStream id (fun s => { s with shown := total, notice := n.1 }) c
  if n.2 then setCause (noticeCause id) c else c

/-- The event NOTICE_COUNT_REACHED by itself: a count that stands at or past a k above 0 sets the stream's cause bit and
returns to 0. R150 makes every such step part of the completed write, so the count stands there only after a CONFIG
reload lowered k (R150; log entry 5). -/
def takeNotice (id : StreamId) (c : Chip) : Chip :=
  if 0 < noticeLimit id c ∧ noticeLimit id c ≤ (c.dlv.stream id).notice then
    setCause (noticeCause id) (onStream id (fun s => { s with notice := 0 }) c)
  else c

/-- EPOCH is set by a write that carried an epoch count higher than the last completed write (R164). -/
def showEpoch (w : ProgressWrite) (c : Chip) : Chip :=
  let c' := c.onDlv fun d => { d with epochShown := w.epochCount }
  if c.dlv.epochShown.toNat < w.epochCount.toNat then setCause causeEpoch c' else c'

/-- FAULT is set by the first write that began after a recording (R173). -/
def showFault (w : ProgressWrite) (c : Chip) : Chip := if w.showsFault then setCause causeFault c else c

/-- The write in flight completes (R164). -/
def completeProgress (w : ProgressWrite) (c : Chip) : Chip :=
  let c := (c.onDlv fun d => { d with progress := none }).onDlvCounters fun n =>
    { n with progressWrites := countUp n.progressWrites }
  showFault w (showEpoch w (showTotal .event w.eventTotal (showTotal .pick w.pickTotal c)))

/-- A set rewrite mark is cleared, and a new write begins with the image as it stands (R164). -/
def rewriteProgress (c : Chip) : Chip :=
  if c.dlv.rewrite then askProgress (c.onDlv fun d => { d with rewrite := false }) else c

end Sys2Proof.Machine
end

