-- ==== Sys2Proof/Machine/OrderSlots.lean ====
section
/-! DEFINITION. ORD: the writes of the order slots, the open-order list, completions, and the beginning of a poll
(R128 to R132, R137 to R140, R143). -/

namespace Sys2Proof.Machine

/-! ## Result codes (R178) -/

/-- OK -/
def codeOk : Nat := 1
/-- DUPLICATE -/
def codeDuplicate : Nat := 2
/-- TORN -/
def codeTorn : Nat := 3
/-- BAD-KIND -/
def codeBadKind : Nat := 4
/-- BAD-PARAM -/
def codeBadParam : Nat := 5
/-- NOT-LISTENING -/
def codeNotListening : Nat := 6
/-- STALE -/
def codeStale : Nat := 7
/-- BUSY -/
def codeBusy : Nat := 8
/-- BAD-SCOPE -/
def codeBadScope : Nat := 9
/-- TABLE-FAULT -/
def codeTableFault : Nat := 10
/-- BAD-TABLE -/
def codeBadTable : Nat := 11
/-- FOUND -/
def codeFound : Nat := 12
/-- NOT-FOUND -/
def codeNotFound : Nat := 13
/-- LOST -/
def codeLost : Nat := 14

/-- The codes of the place a CANCEL found its request in (R178). -/
def placeQueue : Nat := 1
/-- PARKED -/
def placeParked : Nat := 2
/-- RUNNING -/
def placeRunning : Nat := 3

/-- A result with zero words. -/
def plainResult (code : Nat) : SlotResult := ⟨code, 0, 0, 0⟩

/-! ## Slot writes (R129, R177) -/

/-- The address of a slot. -/
def Layout.slotBase (l : Layout) (slot : Nat) : Nat := l.orders + 64 * slot

/-- The 16 bytes of a result: its code and its three words (R177). -/
def resultBytes (r : SlotResult) : List Byte :=
  leBytes 4 r.code ++ leBytes 4 r.word1 ++ leBytes 4 r.word2 ++ leBytes 4 r.word3

/-- The first word of a slot that the part writes: the new state, the sequence and two zero bytes (R177, R178). -/
def slotWord (done : Bool) (seq : BitVec 8) : List Byte := [if done then 3 else 2, seq, 0, 0]

/-- The two accesses of a slot write: the result first, then the state (R129). -/
def slotAccesses (l : Layout) (slot : Nat) (seq : BitVec 8) (done : Bool) (r : SlotResult) : List Access :=
  [writeAccess (.slotResult slot) (l.slotBase slot + 0x20) (resultBytes r),
    writeAccess (.slotState slot done) (l.slotBase slot) (slotWord done seq)]

/-- ORD notes a slot it writes during a take run (R133). -/
def noteSlotWritten (slot : Nat) (o : Orders) : Orders := { o with takeRun := o.takeRun.map (slot :: ·) }

/-- ORD writes a slot. -/
def writeSlot (slot : Nat) (seq : BitVec 8) (done : Bool) (r : SlotResult) (c : Chip) : Chip :=
  requestAll .ord (slotAccesses c.layout slot seq done r) (c.onOrd (noteSlotWritten slot))

/-- A slot leaves the open-order list (R130). -/
def closeOrder (slot : Nat) (o : Orders) : Orders :=
  { o with openOrders := o.openOrders.filter fun e => e.slot != slot }

/-- Outside a take run each DONE asks for a progress block write; a take run asks once at its end (R143). -/
def askOutsideRun (c : Chip) : Chip := if c.ord.takeRun.isSome then c else askProgress c

/-- ORD writes a slot DONE with a result, and the slot leaves the open-order list (R130, R143). -/
def writeDone (slot : Nat) (seq : BitVec 8) (r : SlotResult) (c : Chip) : Chip :=
  askOutsideRun ((writeSlot slot seq true r c).onOrd (closeOrder slot))

/-- ORD puts a slot on the open-order list and writes it TAKEN, with result code 0 (R129, R130). -/
def writeTaken (slot : Nat) (seq : BitVec 8) (kind : OpenKind) (word1 : Nat) (c : Chip) : Chip :=
  writeSlot slot seq false ⟨0, word1, 0, 0⟩ (c.onOrd fun o => { o with openOrders := o.openOrders ++ [⟨slot, seq, kind⟩] })

/-- The slot of an ORDERED request that has finished is written DONE with OK, the outcome and the event sequence, 0 for
none (R137, R180). A DECLARED request has no slot. -/
def completeScan (order : Option (Nat × BitVec 8)) (number : Nat) (outcome : ScanOutcome) (seq : Option Word32)
    (c : Chip) : Chip :=
  match order with
  | some (slot, oseq) => writeDone slot oseq ⟨codeOk, number, outcomeCode outcome, (seq.map BitVec.toNat).getD 0⟩ c
  | none => c

/-- The CANCEL orders that waited for a scan's finish are written DONE, in sequence order: FOUND when the scan finished
CANCELLED (R103, R140). -/
def completeCancels (number : Nat) (cancelled : Bool) : List (Nat × BitVec 8) → Chip → Chip
  | [], c => c
  | (slot, seq) :: rest, c =>
    completeCancels number cancelled rest
      (writeDone slot seq (if cancelled then ⟨codeFound, number, placeRunning, 0⟩ else ⟨codeNotFound, number, 0, 0⟩) c)

/-! ## Polls (R131, R132, R139) -/

/-- The slots of the order table. -/
def slotCount : Nat := 32

/-- The 32 slot reads of a poll, in index order (R132). -/
def pollAccesses (l : Layout) : List Access :=
  (numbersFrom 0 slotCount).map fun i => readAccess (.slotRead i) (l.slotBase i) 64

/-- A poll that reads the table: it is counted and its reads are requested (R132). R132 does not say when ORD makes the
32 requests: that it makes them all at the start of the poll, so that a slot write it makes meanwhile is issued behind
the reads that remain, is the model's choice (log entry 29). -/
def readTable (c : Chip) : Chip :=
  requestAll .ord (pollAccesses c.layout) (c.onOrd fun o => { o with poll := some [], polls := countUp o.polls })

/-- An occasion for a poll: it sets the repeat mark while a poll is in progress. A poll begins with DLV's read of the
return block; with a drain pending it reads no slot and ends at once (R131, R139). -/
def beginPoll (c : Chip) : Chip :=
  if c.active then
    if c.ord.poll.isSome then c.onOrd fun o => { o with repeatMark := true }
    else
      let c := beginReturnRead c
      if c.ord.drainPending.isSome then c else readTable c
  else c

/-- TCU reports an INVALIDATE order: ORD writes its slot DONE. When it is the order that set the drain-pending marker,
the marker is cleared, the slot written and a poll begun (R138, R139). -/
def reportInval (slot : Nat) (seq : BitVec 8) (r : SlotResult) (c : Chip) : Chip :=
  if c.ord.drainPending = some (slot, seq) then
    beginPoll (writeDone slot seq r (c.onOrd fun o => { o with drainPending := none }))
  else writeDone slot seq r c

/-- A slot write is answered without error: a DONE sets ORDER when its state is in place (R143). -/
def slotWriteAnswered (a : Access) (_result : Option (List Byte)) (c : Chip) : Chip :=
  match a.purpose with
  | .slotState _ true => setCause causeOrder c
  | _ => c

end Sys2Proof.Machine
end

