-- ==== Sys2Proof/Machine/Tables.lean ====
section
/-! DEFINITION. TCU: row requests and the row cache, refine entries, invalidations, their marks and their drain
(R109, R110, R113 to R120, R124 to R127). -/

namespace Sys2Proof.Machine

/-! ## Rows (R109, R114 to R116) -/

/-- How TCU answers a row request (R114). -/
inductive RowReply where
  /-- the row, at once -/
  | row (r : List (BitVec 16))
  /-- 256 NONE values: the node lies beyond the grid in force -/
  | beyond
  /-- 256 NONE values: the read failed its window check -/
  | faulted
  /-- a row fetch has begun -/
  | waiting
deriving DecidableEq, Repr

/-- The address of a node's row (R109). -/
def GridDef.rowAddress (g : GridDef) (node : Nat) : Nat := g.ttBase + node * g.stride

/-- An entry is the row of this grid and node. -/
def CacheEntry.isFor (grid node : Nat) (e : CacheEntry) : Bool := e.grid == grid && e.node == node

/-- A hit entry moves to the most recently used position, at the end (R114). -/
def touchEntry (e : CacheEntry) (cache : List CacheEntry) : List CacheEntry :=
  cache.filter (fun x => !CacheEntry.isFor e.grid e.node x) ++ [e]

/-- A hit (R114). -/
def hitRow (e : CacheEntry) (c : Chip) : Chip :=
  c.onTcu fun t => { t with cache := touchEntry e t.cache, hits := countUp t.hits }

/-- A miss: the row read is issued, or fails its window check (R114 to R116, R168). -/
def missRow (g : GridDef) (grid node : Nat) (c : Chip) : Chip × RowReply :=
  let c := c.onTcu fun t => { t with misses := countUp t.misses }
  let a := readAccess (.row grid node) (g.rowAddress node) 512
  if accessPasses c.mpt.windows a then
    (request .tcu a (c.onTcu fun t => { t with fetch := some ⟨grid, node, true⟩ }), .waiting)
  else (recordFault .rows .windowRead a.addr c, .faulted)

/-- SCE requests a row (R114). -/
def requestRow (grid node : Nat) (c : Chip) : Chip × RowReply :=
  match gridDefn c.tcu.grids grid with
  | none => (c, .beyond)
  | some g =>
    if g.nodeCount ≤ node then (c, .beyond)
    else
      match c.tcu.cache.find? (CacheEntry.isFor grid node) with
      | some e => (hitRow e c, .row e.row)
      | none => missRow g grid node c

/-- The number of rows the cache holds (R113). -/
def cacheSize : Nat := 64

/-- A fetched row joins the cache as the most recently used entry; a full cache evicts its least recently used one
(R115). -/
def Tcu.keepRow (e : CacheEntry) (t : Tcu) : Tcu :=
  if t.cache.length < cacheSize then { t with cache := t.cache ++ [e] }
  else { t with cache := t.cache.tail ++ [e], evictions := countUp t.evictions }

/-- The row fetch in flight has ended with this row; it is kept unless an invalidation covered it (R115, R117). -/
def Tcu.endFetch (row : Option (List (BitVec 16))) (t : Tcu) : Tcu :=
  match t.fetch, row with
  | some f, some r =>
    if f.keep then { t.keepRow ⟨f.grid, f.node, r⟩ with fetch := none } else { t with fetch := none }
  | _, _ => { t with fetch := none }

/-! ## Refine entries (R110) -/

/-- How TCU answers a refine request (R110). -/
inductive RefineReply where
  | entry (e : RefineEntry)
  | faulted
  | waiting
deriving DecidableEq, Repr

/-- The entry TCU answers with when it makes no read: its count is 0 (R110). -/
def noEntry : RefineEntry := ⟨0, 0, 0⟩

/-- The read of a refine entry (R110). -/
def GridDef.refineAccess (g : GridDef) (grid node : Nat) : Access :=
  readAccess (.refine grid node) (g.refineBase + 8 * node) 8

/-- SCE requests a refine entry (R110). -/
def requestRefine (grid node : Nat) (c : Chip) : Chip × RefineReply :=
  match gridDefn c.tcu.grids grid with
  | none => (c, .entry noEntry)
  | some g =>
    if g.refineBase = 0 ∨ g.nodeCount ≤ node then (c, .entry noEntry)
    else
      let a := g.refineAccess grid node
      if accessPasses c.mpt.windows a then (request .tcu a c, .waiting)
      else (recordFault .refine .windowRead a.addr c, .faulted)

/-! ## Row scopes (R119, R120, R124) -/

/-- A row scope as it is performed. -/
inductive RowScope where
  | all
  | grid (g : Nat)
  | nodes (g first count : Nat)
  /-- GRIDDEFS: every node of each changed grid -/
  | griddefs (changed : List Nat)
deriving DecidableEq, Repr

/-- The scope covers a node (R119, R120). -/
def RowScope.covers (grid node : Nat) : RowScope → Bool
  | .all => true
  | .grid g => grid == g
  | .nodes g first count => grid == g && decide (first ≤ node) && decide (node < first + count)
  | .griddefs changed => changed.contains grid

/-- A bank's read range for a grid. -/
def Scan.range (sc : Scan) (g : Nat) : Option (Nat × Nat) := sc.ranges.getD g none

/-- The bank's read ranges overlap the scope (R124). -/
def RowScope.overlaps (sc : Scan) : RowScope → Bool
  | .all => sc.ranges.any Option.isSome
  | .grid g => (sc.range g).isSome
  | .nodes g first count =>
    match sc.range g with
    | some (lo, hi) => decide (lo < first + count) && decide (first ≤ hi)
    | none => false
  | .griddefs changed => changed.any fun g => (sc.range g).isSome

/-- The scope covers the row fetch in flight (R117). -/
def RowScope.coversFetch (scope : RowScope) : Option RowFetch → Bool
  | some f => scope.covers f.grid f.node
  | none => false

/-- The invalidation marks the bank: its read ranges overlap, or the covered fetch in flight serves it, that is, it is
RUNNING (R117, R124). -/
def marksScan (scope : RowScope) (fetch : Option RowFetch) (sc : Scan) : Bool :=
  scope.overlaps sc || (sc.running && scope.coversFetch fetch)

/-- Adds TABLE-CHANGED to a scan (R100, R104). -/
def Scan.markChanged (sc : Scan) : Scan := { sc with flags := { sc.flags with tableChanged := true } }

/-- Marks the banks (R124). -/
def markBanks (scope : RowScope) (fetch : Option RowFetch) (banks : List (Option Scan)) : List (Option Scan) :=
  banks.map (Option.map fun sc => if marksScan scope fetch sc then sc.markChanged else sc)

/-- The request numbers of the banks an invalidation marks (R124). -/
def markedNumbers (scope : RowScope) (fetch : Option RowFetch) (banks : List (Option Scan)) : List Nat :=
  banks.filterMap fun b => b.bind fun sc => if marksScan scope fetch sc then some sc.request.number else none

/-- The number of cache entries a scope covers. -/
def coveredRows (scope : RowScope) (cache : List CacheEntry) : Nat :=
  (cache.filter fun e => scope.covers e.grid e.node).length

/-- TCU drops the rows a scope covers, and notes a covered fetch (R117, R119). -/
def Tcu.dropRows (scope : RowScope) (t : Tcu) : Tcu :=
  { t with
    cache := t.cache.filter fun e => !scope.covers e.grid e.node
    dropped := addCount t.dropped (coveredRows scope t.cache)
    fetch := t.fetch.map fun f => if scope.covers f.grid f.node then { f with keep := false } else f }

/-- A row scope is performed as one event: rows dropped, fetch noted, banks marked (R119, R120, R124). -/
def performRowScope (scope : RowScope) (c : Chip) : Chip :=
  (c.onSce fun e => { e with banks := markBanks scope c.tcu.fetch e.banks }).onTcu (Tcu.dropRows scope)

/-- Each performed invalidation is counted (R126, R127). -/
def countInvalidation (c : Chip) : Chip := c.onTcu fun t => { t with invalidations := countUp t.invalidations }

/-- A performed row scope is reported at once, or, when it is drained and has marked a bank, held as a drain set
(R124 to R126). -/
def settleRowScope (o : InvalOrder) (numbers : List Nat) (r : SlotResult) (c : Chip) : Chip × Option SlotResult :=
  if o.drain && !numbers.isEmpty then (c.onTcu fun t => { t with drain := some ⟨o, numbers, r⟩ }, none)
  else (c, some r)

/-- An ALL, GRID or NODES scope is performed (R119): the result words are the actual scope, the banks marked and the
rows dropped (R126). -/
def runRowScope (o : InvalOrder) (scope : RowScope) (word : Nat) (c : Chip) : Chip × Option SlotResult :=
  let numbers := markedNumbers scope c.tcu.fetch c.sce.banks
  settleRowScope o numbers ⟨codeOk, word, numbers.length, coveredRows scope c.tcu.cache⟩
    (countInvalidation (performRowScope scope c))

/-! ## Taking an INVALIDATE order (R118) -/

/-- The scope codes (R178). -/
def scopeAll : Nat := 1
/-- GRID -/
def scopeGrid : Nat := 2
/-- NODES -/
def scopeNodes : Nat := 3
/-- GRIDDEFS -/
def scopeGriddefs : Nat := 4
/-- STATIONS -/
def scopeStations : Nat := 5
/-- HUBS -/
def scopeHubs : Nat := 6
/-- CONFIG -/
def scopeConfig : Nat := 7

/-- The scope is malformed (R118). -/
def InvalOrder.malformed (o : InvalOrder) : Bool :=
  if o.scope = scopeAll ∨ o.scope = scopeGriddefs ∨ o.scope = scopeHubs ∨ o.scope = scopeConfig then false
  else if o.scope = scopeGrid then decide (3 < o.grid)
  else if o.scope = scopeNodes then decide (3 < o.grid) || decide (o.count = 0) || decide (8192 < o.first + o.count)
  else if o.scope = scopeStations then decide (o.count = 0) || decide (256 < o.first + o.count)
  else true

/-- The scope code is a row scope (R138). -/
def InvalOrder.isRowScope (o : InvalOrder) : Bool :=
  o.scope == scopeAll || o.scope == scopeGrid || o.scope == scopeNodes || o.scope == scopeGriddefs

/-- The actual scope word (R180). -/
def scopeWord (scope grid first count : Nat) : Nat :=
  if scope = scopeGrid then scope + 256 * grid
  else if scope = scopeNodes then scope + 256 * grid + 1024 * first + 8388608 * count
  else if scope = scopeStations then scope + 1024 * first + 262144 * count
  else scope

/-- A reload begins: its reads are requested, in order (R120 to R123). -/
def startReload (o : InvalOrder) (reads : List Access) (c : Chip) : Chip :=
  requestAll .tcu reads (c.onTcu fun t => { t with reload := some ⟨o, []⟩ })

/-- The reads of a GRIDDEFS reload (R120). -/
def gridReads (l : Layout) : List Access :=
  (numbersFrom 0 4).map fun g => readAccess (.reloadGrid g (g == 3)) (l.grids + 64 * g) 64

/-- The reads of a STATIONS reload (R121). -/
def stationReads (l : Layout) (first count : Nat) : List Access :=
  (numbersFrom first count).map fun ch =>
    readAccess (.reloadStation ch (ch + 1 == first + count)) (l.stations + 32 * ch) 32

/-- The reads of a HUBS reload (R122). -/
def hubReads (l : Layout) : List Access :=
  (numbersFrom 0 16).map fun h => readAccess (.reloadHub h (h == 15)) (l.hubs + 32 * h) 32

/-- The read of a CONFIG reload (R123). -/
def configReads (l : Layout) : List Access := [readAccess .reloadConfig l.settings 256]

/-- TCU takes an INVALIDATE order: it judges the scope, performs a row scope, or begins a reload. The answer is its
report when there is one at once (R118, R119, R126). -/
def takeInval (o : InvalOrder) (c : Chip) : Chip × Option SlotResult :=
  if o.malformed then (c, some (plainResult codeBadScope))
  else if o.scope = scopeAll then runRowScope o .all (scopeWord scopeAll 0 0 0) c
  else if o.scope = scopeGrid then runRowScope o (.grid o.grid) (scopeWord scopeGrid o.grid 0 0) c
  else if o.scope = scopeNodes then
    if 64 < o.count then runRowScope o (.grid o.grid) (scopeWord scopeGrid o.grid 0 0) c
    else runRowScope o (.nodes o.grid o.first o.count) (scopeWord scopeNodes o.grid o.first o.count) c
  else if o.scope = scopeGriddefs then (startReload o (gridReads c.layout) c, none)
  else if o.scope = scopeStations then (startReload o (stationReads c.layout o.first o.count) c, none)
  else if o.scope = scopeHubs then (startReload o (hubReads c.layout) c, none)
  else (startReload o (configReads c.layout) c, none)

/-- ORD hands TCU an INVALIDATE order: while an earlier one is being performed it waits (R118). -/
def handInval (o : InvalOrder) (c : Chip) : Chip × Option SlotResult :=
  if c.tcu.reload.isSome || c.tcu.drain.isSome then (c.onTcu fun t => { t with waiting := t.waiting ++ [o] }, none)
  else takeInval o c

/-- TCU takes the orders that waited, in order, until one of them is not reported at once (R118). -/
def takeWaiting : List InvalOrder → Chip → Chip
  | [], c => c.onTcu fun t => { t with waiting := [] }
  | o :: rest, c =>
    match takeInval o (c.onTcu fun t => { t with waiting := rest }) with
    | (c, some r) => takeWaiting rest (reportInval o.slot o.seq r c)
    | (c, none) => c

/-- A reload has been performed: its order is reported, if it can be, and the orders that waited are taken (R118,
R126). -/
def endReload (o : InvalOrder) (r : Option SlotResult) (c : Chip) : Chip :=
  let c := c.onTcu fun t => { t with reload := none }
  match r with
  | some r =>
    let c := reportInval o.slot o.seq r c
    takeWaiting c.tcu.waiting c
  | none => c

/-! ## Drain completion (R125) -/

/-- SCE reports a finish to TCU: the request leaves the drain set, and a drain set now empty completes the drain
(R125). -/
def drainFinished (number : Nat) (c : Chip) : Chip :=
  match c.tcu.drain with
  | none => c
  | some d =>
    let left := d.numbers.filter (· != number)
    if left.isEmpty then reportInval d.order.slot d.order.seq d.result (c.onTcu fun t => { t with drain := none })
    else c.onTcu fun t => { t with drain := some { d with numbers := left } }

/-! ## The GRIDDEFS reload (R120) -/

/-- The answer of a read of a reload joins those before it. -/
def noteReloadRead (result : Option (List Byte)) (c : Chip) : Chip :=
  c.onTcu fun t => { t with reload := t.reload.map fun r => { r with got := r.got ++ [result] } }

/-- The grid records after a GRIDDEFS reload: a record whose read succeeded is judged, one whose read failed is kept
(R120). -/
def reloadedGrids : List (Option (List Byte)) → List GridRecord → List GridRecord
  | some b :: got, _ :: old => judgeGrid b :: reloadedGrids got old
  | none :: got, r :: old => r :: reloadedGrids got old
  | [], old => old
  | _, [] => []

/-- The grids whose record has changed: a change of definition, or of a field of a defined grid (R120). By R120 a record
that was invalid or undefined and stays so is unchanged, and a change of validity makes the grid changed. A record that
goes from invalid to valid with node count 0, or back, is both: the model takes it as unchanged (log entry 28). -/
def changedGrids (old new : List GridRecord) : List Nat :=
  (numbersFrom 0 4).filter fun g => decide (gridDefn old g ≠ gridDefn new g)

/-- The numbers of the reads that failed. -/
def failedReads (got : List (Option (List Byte))) : List Nat :=
  (numbered 0 got).filterMap fun e => if e.2.isNone then some e.1 else none

/-- A set of grids as four bits. -/
def gridBits (l : List Nat) : Nat := ((numbersFrom 0 4).map fun g => flagBit (l.contains g) g).sum

/-- OK, or TABLE-FAULT when a read of the reload failed (R126). -/
def reloadCode (got : List (Option (List Byte))) : Nat :=
  if got.any Option.isNone then codeTableFault else codeOk

/-- A GRIDDEFS reload is performed as one event (R120). -/
def performGriddefs (r : Reload) (c : Chip) : Chip :=
  let new := reloadedGrids r.got c.tcu.grids
  let changed := changedGrids c.tcu.grids new
  let scope := RowScope.griddefs changed
  let numbers := markedNumbers scope c.tcu.fetch c.sce.banks
  let c := countInvalidation (performRowScope scope (c.onTcu fun t => { t with grids := new }))
  let detail := gridBits changed + 16 * gridBits (failedReads r.got)
  let result := ⟨reloadCode r.got, scopeWord scopeGriddefs 0 0 0, numbers.length, detail⟩
  let (c, report) := settleRowScope r.order numbers result c
  endReload r.order report c

/-- The last grid record read of a GRIDDEFS reload is answered (R120). -/
def griddefsAnswered (_a : Access) (result : Option (List Byte)) (c : Chip) : Chip :=
  let c := noteReloadRead result c
  match c.tcu.reload with
  | some r => performGriddefs r c
  | none => c

/-- A read of a reload that is not its last is answered (R120 to R122). -/
def reloadReadAnswered (_a : Access) (result : Option (List Byte)) (c : Chip) : Chip := noteReloadRead result c

end Sys2Proof.Machine
end

