-- ==== Sys2Proof/Machine/ScanEngine.lean ====
section
/-! DEFINITION. SCE: ripeness and selection, starting, parking and resuming, stacking, the refine stage, the arrival list
and the finish of a scan (R70, R81 to R105). The engine advances in the single actions of `engineAction`, and runs them
until the scan waits for a read, a fetch or an offer. -/

namespace Sys2Proof.Machine

/-! ## Banks (R81) -/

/-- Changes the scan of a bank. -/
def onScan (bank : Nat) (f : Scan → Scan) (c : Chip) : Chip :=
  c.onSce fun e => { e with banks := modifyAt (Option.map f) e.banks bank }

/-- Puts what a bank holds. -/
def setBank (bank : Nat) (b : Option Scan) (c : Chip) : Chip :=
  c.onSce fun e => { e with banks := modifyAt (fun _ => b) e.banks bank }

/-- The number and scan of the first bank, counting from a number, whose scan meets a test. -/
def findBank (test : Scan → Bool) : Nat → List (Option Scan) → Option (Nat × Scan)
  | _, [] => none
  | i, none :: rest => findBank test (i + 1) rest
  | i, some sc :: rest => if test sc then some (i, sc) else findBank test (i + 1) rest

/-- The RUNNING bank (R81). -/
def runningBank (c : Chip) : Option (Nat × Scan) := findBank Scan.running 0 c.sce.banks

/-- The bank in service that holds a request (R103). -/
def bankOf (number : Nat) (c : Chip) : Option (Nat × Scan) :=
  findBank (fun sc => sc.request.number == number) 0 c.sce.banks

/-- The lowest-numbered FREE bank (R84). -/
def freeBank : Nat → List (Option Scan) → Option Nat
  | _, [] => none
  | i, none :: _ => some i
  | i, some _ :: rest => freeBank (i + 1) rest

/-- Some bank is in service (R81). -/
def anyInService (c : Chip) : Bool := c.sce.banks.any Option.isSome

/-! ## Candidates (R70, R82, R84) -/

/-- A waiting request is ripe (R70). -/
def Request.ripe (horizon : Option Nat) (r : Request) : Bool :=
  match horizon with
  | some h => decide (r.refTick + r.settleLag < h)
  | none => false

/-- A waiting request is eligible: ripe, and at a level that no bank in service holds (R82). -/
def eligible (c : Chip) (r : Request) : Bool :=
  r.ripe c.lki.horizon && !(inServiceLevels c.sce.banks).contains r.level

/-- The first request of the highest level in a list (R84). -/
def highestRequest : List Request → Option Request
  | [] => none
  | r :: rest =>
    match highestRequest rest with
    | none => some r
    | some w => if w.level < r.level then some w else some r

/-- The PARKED bank of the highest level (R84). -/
def highestParked : Nat → List (Option Scan) → Option (Nat × Scan)
  | _, [] => none
  | i, none :: rest => highestParked (i + 1) rest
  | i, some sc :: rest =>
    match highestParked (i + 1) rest with
    | none => if sc.running then none else some (i, sc)
    | some (j, w) => if sc.running || decide (w.request.level < sc.request.level) then some (j, w) else some (i, sc)

/-- The winner of a selection (R84). -/
inductive Winner where
  | parked (bank : Nat) (sc : Scan)
  | waiting (r : Request)
deriving DecidableEq, Repr

/-- The selection of R84: the highest level wins, and at an equal level a PARKED bank. -/
def selectWinner (c : Chip) : Option Winner :=
  match highestParked 0 c.sce.banks, highestRequest (c.ccu.queue.filter (eligible c)) with
  | some (i, sc), some r => if r.level < sc.request.level then some (.waiting r) else some (.parked i sc)
  | some (i, sc), none => some (.parked i sc)
  | none, some r => some (.waiting r)
  | none, none => none

/-! ## Outcomes (R75, R101, R102) -/

/-- The event outcome of a scan in service (R101). -/
def scanOutcome (sc : Scan) (o : ScanOutcome) (arrivals : List Arrival) : EventOutcome :=
  { number := sc.request.number
    order := sc.request.order
    level := sc.request.level
    refTick := sc.request.refTick
    declaredVotes := sc.request.declaredVotes
    peakVotes := sc.request.peakVotes
    merged := sc.request.merged
    outcome := o
    flags := sc.flags
    stage1 := sc.stage1
    stage2 := sc.stage2
    arrivals := arrivals }

/-- The collapse target becomes none if it names a request that has finished (R66). -/
def clearTarget (number : Nat) (c : Chip) : Chip :=
  c.onCcu fun u => if (u.target.map CollapseTarget.number) = some number then { u with target := none } else u

/-- The last in-service context of a STOPPING part has finished: the part enters BOUND (R15, R102). -/
def stoppingToBound (c : Chip) : Chip :=
  if c.rgp.partState = .stopping ∧ anyInService c = false then enterState .bound c else c

/-- The finish of a scan, steps 1 to 6 of R102. The CANCEL orders that waited on the scan are written DONE with step 4,
and so before an INVALIDATE whose drain this finish completes in step 5: no rule names the order of those two slots,
and it is the model's choice (R103, R125, R140; log entry 22). -/
def finishScan (bank : Nat) (sc : Scan) (o : ScanOutcome) (arrivals : List Arrival) (c : Chip) : Chip :=
  let (c, seq) := deliverOutcome (scanOutcome sc o arrivals) c
  let c := setBank bank none c
  let c := clearTarget sc.request.number c
  let c := completeScan sc.request.order sc.request.number o seq c
  let c := completeCancels sc.request.number (o == .cancelled) sc.cancels c
  let c := drainFinished sc.request.number c
  stoppingToBound c

/-! ## The actions of the engine -/

/-- What the engine does next. -/
inductive EngineTask where
  /-- a selection (R83) -/
  | select
  /-- the RUNNING scan requests the row of the node at its cursor (R90) -/
  | node
  /-- the row of the node is in hand (R90, R91) -/
  | rowIn (row : List (BitVec 16))
  /-- every origin time of the node has been evaluated (R90) -/
  | nodeEnd
  /-- a node boundary (R87) -/
  | boundary
  /-- the last origin time of the last node of the stage has been evaluated (R95, R98) -/
  | stageEnd
  /-- the refine entry is answered; none is a fault report (R96) -/
  | refined (e : Option RefineEntry)
  /-- the arrival list of an outcome is to be formed (R99) -/
  | arrival (o : ScanOutcome)
  /-- the row of the final peak is in hand (R99) -/
  | listRow (o : ScanOutcome) (row : List (BitVec 16))
  /-- the outcome has been reached; the cancel mark is tested and the finish formed (R98, R102) -/
  | conclude (o : ScanOutcome) (arrivals : List Arrival)
deriving DecidableEq, Repr

/-- The STALE test fails: the earliest tick the stage can read has left the retained window (R86). -/
def staleScan (horizon : Option Nat) (spanFirst ttmin : Nat) : Bool :=
  match horizon with
  | some h => decide (spanFirst + ttmin + 4096 < h)
  | none => false

/-- The grid parameters captured from a record (R81). -/
def captureGrid (g : GridDef) : CapturedGrid :=
  ⟨g.nodeCount, g.ttmin, g.qacc, g.wmin, g.refineBase != 0, g.halfWindow⟩

/-- The weight a channel holds: 0 when it is not enabled (R41). -/
def channelWeight (ch : Channel) : Nat := (ch.params.map StationParams.weight).getD 0

/-- A bank as a start sets it up for stage 1 (R85). -/
def newScan (r : Request) (weights : List Nat) (g : CapturedGrid) : Scan :=
  { request := r
    running := true
    stage := 1
    grid := r.grid
    captured := g
    weights := weights
    firstNode := if r.nodeCount = 0 then 0 else r.firstNode
    lastNode := if r.nodeCount = 0 then g.nodeCount - 1 else r.firstNode + r.nodeCount - 1
    cursor := if r.nodeCount = 0 then 0 else r.firstNode
    spanFirst := r.spanFirst
    spanLast := r.spanLast
    spanStep := r.step
    best := none
    stage1 := none
    stage2 := none
    flags := noFlags
    cancelMark := false
    cancels := []
    ranges := List.replicate 4 none
    phase := .boundary }

/-- The node range of a request reaches beyond the captured grid (R85). -/
def beyondGrid (r : Request) (g : CapturedGrid) : Bool :=
  decide (0 < r.nodeCount) && decide (g.nodeCount < r.firstNode + r.nodeCount)

/-- The parameters of an undefined grid. -/
def noGrid : CapturedGrid := ⟨0, 0, 0, 0, false, 0⟩

/-- CCU hands a request over: it leaves the queue (R74). Of requests that share a number, which R71 excludes, all leave:
the model's choice (log entry 35). -/
def takeRequest (number : Nat) (c : Chip) : Chip :=
  c.onCcu fun u => { u with queue := u.queue.filter fun r => r.number != number }

/-- A finish at once, at a start or a resume; a selection follows (R84, R102). -/
def finishAtOnce (bank : Nat) (sc : Scan) (o : ScanOutcome) (c : Chip) : Chip × Option EngineTask :=
  (finishScan bank sc o [] c, some .select)

/-- SCE starts a request in the lowest FREE bank (R85): with its grid undefined or too small the scan finishes EMPTY,
and with the STALE test failed it finishes STALE, at once. -/
def startScan (r : Request) (c : Chip) : Chip × Option EngineTask :=
  match freeBank 0 c.sce.banks with
  | none => (c, none)
  | some bank =>
    let c := takeRequest r.number c
    let weights := c.chc.channels.map channelWeight
    match gridDefn c.tcu.grids r.grid with
    | none =>
      let sc := (newScan r weights noGrid).markChanged
      finishAtOnce bank sc .empty (setBank bank (some sc) c)
    | some g =>
      let sc := newScan r weights (captureGrid g)
      if beyondGrid r (captureGrid g) then
        finishAtOnce bank sc.markChanged .empty (setBank bank (some sc.markChanged) c)
      else if staleScan c.lki.horizon sc.spanFirst sc.captured.ttmin then
        finishAtOnce bank sc .stale (setBank bank (some sc) c)
      else (setBank bank (some sc) c, some .node)

/-- A scan as a resume leaves it (R89). -/
def resumed (sc : Scan) : Scan := { sc with running := true, flags := { sc.flags with resumed := true } }

/-- A PARKED bank resumes (R89). -/
def resumeScan (bank : Nat) (sc : Scan) (c : Chip) : Chip × Option EngineTask :=
  let sc := resumed sc
  let c := (setBank bank (some sc) c).onSce fun e => { e with resumes := countUp e.resumes }
  if staleScan c.lki.horizon sc.spanFirst sc.captured.ttmin then finishAtOnce bank sc .stale c
  else (c, some .node)

/-- A selection, made when no bank is RUNNING (R83, R84). -/
def selectAction (c : Chip) : Chip × Option EngineTask :=
  if (runningBank c).isSome then (c, none)
  else
    match selectWinner c with
    | none => (c, none)
    | some (.parked bank sc) => resumeScan bank sc c
    | some (.waiting r) => startScan r c

/-- The read range widened to include a node (R90). -/
def widen (node : Nat) : Option (Nat × Nat) → Option (Nat × Nat)
  | none => some (node, node)
  | some (lo, hi) => some (min lo node, max hi node)

/-- A scan widens the read range of a grid. -/
def Scan.widenRange (grid node : Nat) (sc : Scan) : Scan := { sc with ranges := modifyAt (widen node) sc.ranges grid }

/-- Raises flags of a scan. -/
def Scan.raise (f : ScanFlags → ScanFlags) (sc : Scan) : Scan := { sc with flags := f sc.flags }

/-- PARTIAL is raised. -/
def raisePartial (f : ScanFlags) : ScanFlags := { f with partialRead := true }
/-- EXPIRED is raised. -/
def raiseExpired (f : ScanFlags) : ScanFlags := { f with expired := true }
/-- TABLE-CHANGED is raised. -/
def raiseChanged (f : ScanFlags) : ScanFlags := { f with tableChanged := true }
/-- TABLE-FAULT is raised. -/
def raiseFault (f : ScanFlags) : ScanFlags := { f with tableFault := true }
/-- UNREFINED is raised. -/
def raiseUnrefined (f : ScanFlags) : ScanFlags := { f with unrefined := true }
/-- RANGE is raised when it was met. -/
def raiseRange (met : Bool) (f : ScanFlags) : ScanFlags := { f with range := f.range || met }

/-- SCE requests a row for the RUNNING scan, having widened its read range, and adds the flag the answer brings (R90,
R99, R116). The row answered at once goes to the task `next` gives; otherwise the scan waits in the given phase. -/
def requestScanRow (bank grid node : Nat) (phase : ScanPhase) (next : List (BitVec 16) → EngineTask) (c : Chip) :
    Chip × Option EngineTask :=
  let c := onScan bank (fun sc => { sc.widenRange grid node with phase := phase }) c
  match requestRow grid node c with
  | (c, .row r) => (c, some (next r))
  | (c, .beyond) => (onScan bank (Scan.raise raiseChanged) c, some (next noneRow))
  | (c, .faulted) => (onScan bank (Scan.raise raiseFault) c, some (next noneRow))
  | (c, .waiting) => (c, none)

/-- The first channel from a number on whose CF is to be read, and whether a travel time out of range was met on the
way (R91): channels of weight 0 and NONE travel times are passed over. R91 and R92 name no order of a pair's channels:
that they are read in rising channel order, one read at a time, is the model's choice (log entry 24). -/
def nextRead : Nat → List Nat → List (BitVec 16) → Option Nat × Bool
  | ch, w :: ws, t :: ts =>
    if w = 0 ∨ t = 0xFFFF then nextRead (ch + 1) ws ts
    else if t.toNat ≤ 4095 then (some ch, false)
    else ((nextRead (ch + 1) ws ts).1, true)
  | _, _, _ => (none, false)

/-- `nextRead` of a scan from a channel on. -/
def nextReadFrom (sc : Scan) (row : List (BitVec 16)) (ch : Nat) : Option Nat × Bool :=
  nextRead ch (sc.weights.drop ch) (row.drop ch)

/-- A row is in hand: the first pair of the node begins with its first read. A row with no channel to read gives no
candidate at any origin time, and the node ends (R90, R91, R93). A span left without an origin time (R68) has no pair. -/
def rowAction (bank : Nat) (sc : Scan) (row : List (BitVec 16)) (c : Chip) : Chip × Option EngineTask :=
  if sc.spanLast < sc.spanFirst then (c, some .nodeEnd)
  else
  match nextReadFrom sc row 0 with
  | (some ch, met) =>
    (onScan bank (fun s => { s.raise (raiseRange met) with phase := .stacking row sc.spanFirst ch 0 0 0 }) c, none)
  | (none, met) => (onScan bank (Scan.raise (raiseRange met)) c, some .nodeEnd)

/-- The node's evaluation ends: the cursor moves to the next node; the last node ends the stage (R90). -/
def nodeEndAction (bank : Nat) (sc : Scan) (c : Chip) : Chip × Option EngineTask :=
  (onScan bank (fun s => { s with cursor := s.cursor + 1, phase := .boundary }) c,
    some (if sc.lastNode ≤ sc.cursor then .stageEnd else .boundary))

/-- A running scan parks (R88). -/
def parkScan (bank : Nat) (c : Chip) : Chip :=
  (onScan bank (fun s => { s with running := false, phase := .boundary }) c).onSce fun e =>
    { e with parks := countUp e.parks }

/-- An eligible waiting request is higher than the running scan (R87). -/
def preempted (sc : Scan) (c : Chip) : Bool :=
  (c.ccu.queue.filter (eligible c)).any fun r => decide (r.level < sc.request.level)

/-- A node boundary: a cancel is observed, the scan parks, or it goes on (R87). -/
def boundaryAction (bank : Nat) (sc : Scan) (c : Chip) : Chip × Option EngineTask :=
  if sc.cancelMark then (finishScan bank sc .cancelled [] c, some .select)
  else if preempted sc c then (parkScan bank c, some .select)
  else (c, some .node)

/-- SCE asks TCU for the refine entry of the stage-1 peak (R96, R110). -/
def requestScanRefine (bank : Nat) (p : Peak) (c : Chip) : Chip × Option EngineTask :=
  match requestRefine p.grid p.node (onScan bank (fun s => { s with phase := .refineEntry }) c) with
  | (c, .entry e) => (c, some (.refined (some e)))
  | (c, .faulted) => (c, some (.refined none))
  | (c, .waiting) => (c, none)

/-- The end of stage 1 (R95). -/
def stage1End (bank : Nat) (sc : Scan) (c : Chip) : Chip × Option EngineTask :=
  match sc.best with
  | none => (c, some (.conclude .empty []))
  | some p =>
    let c := onScan bank (fun s => { s with stage1 := some p }) c
    if p.q < sc.captured.qacc then (c, some (.arrival .weak))
    else if sc.captured.hasRefine then requestScanRefine bank p c
    else (onScan bank (Scan.raise raiseUnrefined) c, some (.arrival .located))

/-- The end of stage 2 (R98). -/
def stage2End (bank : Nat) (sc : Scan) (c : Chip) : Chip × Option EngineTask :=
  match sc.best with
  | none => (onScan bank (Scan.raise raiseUnrefined) c, some (.arrival .located))
  | some p =>
    let c := onScan bank (fun s => { s with stage2 := some p }) c
    if p.q < sc.captured.qacc then (onScan bank (Scan.raise raiseUnrefined) c, some (.arrival .located))
    else (c, some (.arrival .located))

/-- The end of a stage. -/
def stageEndAction (bank : Nat) (sc : Scan) (c : Chip) : Chip × Option EngineTask :=
  if sc.stage = 1 then stage1End bank sc c else stage2End bank sc c

/-- Stage 2 runs for a refine entry: its child grid, when the four conditions of R96 hold. -/
def refineGrid (c : Chip) (stage1Grid : Nat) (e : RefineEntry) : Option GridDef :=
  if e.count = 0 ∨ 3 < e.child ∨ e.child = stage1Grid then none
  else
    match gridDefn c.tcu.grids e.child with
    | some g => if e.first + e.count ≤ g.nodeCount then some g else none
    | none => none

/-- A scan set up for stage 2 (R96). -/
def stage2Setup (e : RefineEntry) (g : GridDef) (t0 : Nat) (sc : Scan) : Scan :=
  { sc with
    stage := 2
    grid := e.child
    captured := captureGrid g
    firstNode := e.first
    lastNode := e.first + e.count - 1
    cursor := e.first
    spanFirst := t0 - g.halfWindow
    spanLast := t0 + g.halfWindow
    spanStep := 1
    best := none
    phase := .boundary }

/-- The stage-1 peak's origin time. -/
def stage1Time (sc : Scan) : Nat := (sc.stage1.map Peak.t0).getD 0

/-- The refine entry is answered (R96). -/
def refinedAction (bank : Nat) (sc : Scan) (e : Option RefineEntry) (c : Chip) : Chip × Option EngineTask :=
  match e with
  | none => (onScan bank (Scan.raise (raiseUnrefined ∘ raiseFault)) c, some (.arrival .located))
  | some e =>
    match refineGrid c sc.grid e with
    | none => (onScan bank (Scan.raise raiseUnrefined) c, some (.arrival .located))
    | some g =>
      ((onScan bank (stage2Setup e g (stage1Time sc)) c).onSce fun s => { s with stage2Runs := countUp s.stage2Runs },
        some .boundary)

/-- The final peak of an outcome reached (R99). -/
def finalPeak (sc : Scan) (o : ScanOutcome) : Option Peak := finalPeakOf (scanOutcome sc o [])

/-- The arrival list is to be formed: the final peak's row is requested (R99). -/
def arrivalAction (bank : Nat) (sc : Scan) (o : ScanOutcome) (c : Chip) : Chip × Option EngineTask :=
  match finalPeak sc o with
  | none => (c, some (.conclude o []))
  | some p => requestScanRow bank p.grid p.node (.listRow o) (.listRow o) c

/-- The weighted CF order of R99: largest first, of equal ones the lower channel. -/
def insertArrival (a : Arrival) : List Arrival → List Arrival
  | [] => [a]
  | b :: rest => if b.weighted < a.weighted then a :: b :: rest else b :: insertArrival a rest

/-- The contributing channels, found in channel order, ranked (R99). -/
def rankArrivals (found : List Arrival) : List Arrival := found.foldl (fun l a => insertArrival a l) []

/-- The arrival list: the first 16 of the ranked contributors (R99). -/
def arrivalList (found : List Arrival) : List Arrival := (rankArrivals found).take 16

/-- The next read of an arrival list begins, or the list is complete (R99). -/
def listAction (bank : Nat) (sc : Scan) (o : ScanOutcome) (row : List (BitVec 16)) (ch : Nat) (found : List Arrival)
    (c : Chip) : Chip × Option EngineTask :=
  match nextReadFrom sc row ch with
  | (some ch, met) => (onScan bank (fun s => { s.raise (raiseRange met) with phase := .listing o row ch found }) c, none)
  | (none, met) => (onScan bank (Scan.raise (raiseRange met)) c, some (.conclude o (arrivalList found)))

/-- The outcome has been reached: the cancel mark is tested, and the scan finishes (R98, R102). -/
def concludeAction (bank : Nat) (sc : Scan) (o : ScanOutcome) (arrivals : List Arrival) (c : Chip) :
    Chip × Option EngineTask :=
  if sc.cancelMark then (finishScan bank sc .cancelled [] c, some .select)
  else (finishScan bank sc o arrivals c, some .select)

/-- An action of the RUNNING scan. -/
def scanAction (task : EngineTask) (bank : Nat) (sc : Scan) (c : Chip) : Chip × Option EngineTask :=
  match task with
  | .select => (c, none)
  | .node => requestScanRow bank sc.grid sc.cursor .nodeRow .rowIn c
  | .rowIn row => rowAction bank sc row c
  | .nodeEnd => nodeEndAction bank sc c
  | .boundary => boundaryAction bank sc c
  | .stageEnd => stageEndAction bank sc c
  | .refined e => refinedAction bank sc e c
  | .arrival o => arrivalAction bank sc o c
  | .listRow o row => listAction bank sc o row 0 [] c
  | .conclude o arrivals => concludeAction bank sc o arrivals c

/-- One action of the engine, and what it does next; none when it waits. -/
def engineAction (task : EngineTask) (c : Chip) : Chip × Option EngineTask :=
  match task with
  | .select => selectAction c
  | task =>
    match runningBank c with
    | some (bank, sc) => scanAction task bank sc c
    | none => (c, none)

/-- The engine acts until it waits. -/
def runEngine : Nat → EngineTask → Chip → Chip
  | 0, _, c => c
  | n + 1, task, c =>
    match engineAction task c with
    | (c, some task) => runEngine n task c
    | (c, none) => c

/-- More actions than a step can take (log entry 21). -/
def engineFuel : Nat := 4194304

/-- The engine acts on a task. -/
def engine (task : EngineTask) (c : Chip) : Chip := runEngine engineFuel task c

/-- The engine goes on when there is a task. -/
def engineOn : Chip × Option EngineTask → Chip
  | (c, some task) => engine task c
  | (c, none) => c

/-- CCU offers the ripe waiting requests: SCE makes a selection when no bank is in service (R70, R83). -/
def offerRipe (c : Chip) : Chip :=
  if c.ccu.queue.any (Request.ripe c.lki.horizon) && !anyInService c then engine .select c else c

/-! ## Answers the engine waits for -/

/-- The value a CF read finds at a tick: none when it is taken as absent (R92). -/
inductive CfRead where
  | partialRead
  | expired
  | absent
  | present (cf : Nat)
deriving DecidableEq, Repr

/-- The value that marks an absent CF. -/
def absentCf : BitVec 8 := 255

/-- The cells of a channel's CF history (R56). -/
def historySize : Nat := 4096

/-- The cell of a tick in a channel's CF history (R56, R57). -/
def historyCell (ch : Channel) (t : Nat) : BitVec 8 := cellRead absentCf ch.history (t % historySize)

/-- A CF read at a tick is judged against the H in force (R92). -/
def judgeRead (horizon : Option Nat) (ch : Channel) (a : Nat) : CfRead :=
  match horizon with
  | none => .partialRead
  | some h =>
    if h ≤ a then .partialRead
    else if a + historySize < h then .expired
    else if historyCell ch a = absentCf then .absent
    else .present (historyCell ch a).toNat

/-- The flags a read adds (R92). -/
def readFlags : CfRead → ScanFlags → ScanFlags
  | .partialRead, f => raisePartial f
  | .expired, f => raiseExpired f
  | .absent, f => f
  | .present _, f => f

/-- The CF read of a channel at a tick, as CHC and the H in force answer it. -/
def readCf (c : Chip) (channel a : Nat) : CfRead :=
  judgeRead c.lki.horizon (c.chc.channels.getD channel Channel.atReset) a

/-- The travel time of a row. -/
def travelTime (row : List (BitVec 16)) (channel : Nat) : Nat := (row.getD channel 0xFFFF).toNat

/-- A candidate replaces the best so far when there is none or its Q is strictly greater (R94). -/
def betterOf (best : Option Peak) (p : Peak) : Peak :=
  match best with
  | some b => if b.q < p.q then p else b
  | none => p

/-- The best so far after a pair: the pair is a candidate when its weight sum reaches Wmin (R93, R94). -/
def pairBest (sc : Scan) (t0 sum wsum contributors : Nat) : Option Peak :=
  if sc.captured.wmin ≤ wsum then some (betterOf sc.best ⟨sc.grid, sc.cursor, t0, sum / wsum, wsum, contributors⟩)
  else sc.best

/-- A pair has been stacked: the next origin time of the node begins, or the node ends (R90, R93). -/
def endPair (bank : Nat) (sc : Scan) (row : List (BitVec 16)) (t0 sum wsum contributors : Nat) (c : Chip) :
    Chip × Option EngineTask :=
  let c := onScan bank (fun s => { s with best := pairBest sc t0 sum wsum contributors }) c
  if t0 + sc.spanStep ≤ sc.spanLast then
    match nextReadFrom sc row 0 with
    | (some ch, met) =>
      (onScan bank (fun s =>
        { s.raise (raiseRange met) with phase := .stacking row (t0 + sc.spanStep) ch 0 0 0 }) c, none)
    | (none, met) => (onScan bank (Scan.raise (raiseRange met)) c, some .nodeEnd)
  else (c, some .nodeEnd)

/-- A CF read of a pair is answered and stacked (R91 to R93). -/
def stackRead (bank : Nat) (sc : Scan) (row : List (BitVec 16)) (t0 ch sum wsum n : Nat) (c : Chip) :
    Chip × Option EngineTask :=
  let read := readCf c ch (t0 + travelTime row ch)
  let w := sc.weights.getD ch 0
  let sums := match read with
    | .present cf => (sum + w * cf, wsum + w, n + 1)
    | .partialRead => (sum, wsum, n)
    | .expired => (sum, wsum, n)
    | .absent => (sum, wsum, n)
  let next := nextReadFrom sc row (ch + 1)
  let c := onScan bank (Scan.raise (raiseRange next.2 ∘ readFlags read)) c
  match next.1 with
  | some ch =>
    (onScan bank (fun s => { s with phase := .stacking row t0 ch sums.1 sums.2.1 sums.2.2 }) c, none)
  | none => endPair bank sc row t0 sums.1 sums.2.1 sums.2.2 c

/-- A CF read of an arrival list is answered (R99). -/
def listRead (bank : Nat) (sc : Scan) (o : ScanOutcome) (row : List (BitVec 16)) (ch : Nat) (found : List Arrival)
    (c : Chip) : Chip × Option EngineTask :=
  let t0 := ((finalPeak sc o).map Peak.t0).getD 0
  let tt := travelTime row ch
  let read := readCf c ch (t0 + tt)
  let found := match read with
    | .present cf => found ++ [⟨ch, tt, cf, sc.weights.getD ch 0 * cf⟩]
    | .partialRead => found
    | .expired => found
    | .absent => found
  listAction bank sc o row (ch + 1) found (onScan bank (Scan.raise (readFlags read)) c)

/-- The CF read that the RUNNING scan waits for is answered (R57, R92). -/
def cfAnswered (c : Chip) : Chip × Option EngineTask :=
  match runningBank c with
  | some (bank, sc) =>
    match sc.phase with
    | .stacking row t0 ch sum wsum n => stackRead bank sc row t0 ch sum wsum n c
    | .listing o row ch found => listRead bank sc o row ch found c
    | .boundary => (c, none)
    | .nodeRow => (c, none)
    | .refineEntry => (c, none)
    | .listRow _ => (c, none)
  | none => (c, none)

/-- The row that the RUNNING scan waits for is in hand (R90, R99, R115). -/
def rowArrived (row : List (BitVec 16)) (c : Chip) : Chip :=
  match runningBank c with
  | some (_, sc) =>
    match sc.phase with
    | .nodeRow => engine (.rowIn row) c
    | .listRow o => engine (.listRow o row) c
    | .boundary => c
    | .stacking _ _ _ _ _ _ => c
    | .refineEntry => c
    | .listing _ _ _ _ => c
  | none => c

/-- TABLE-FAULT is added to the RUNNING scan, whose row read failed (R90, R116). -/
def faultRunning (c : Chip) : Chip :=
  match runningBank c with
  | some (bank, _) => onScan bank (Scan.raise raiseFault) c
  | none => c

/-- A row fetch is answered: the row is kept or not, and serves the node; a failed read is answered with NONE (R115,
R116). -/
def rowFetchAnswered (_a : Access) (result : Option (List Byte)) (c : Chip) : Chip :=
  match result with
  | some b => rowArrived (parseRow b) (c.onTcu (Tcu.endFetch (some (parseRow b))))
  | none => rowArrived noneRow (faultRunning (c.onTcu (Tcu.endFetch none)))

/-- A refine entry read is answered (R96, R110). -/
def refineAnswered (_a : Access) (result : Option (List Byte)) (c : Chip) : Chip :=
  match runningBank c with
  | some (_, sc) =>
    if sc.phase = .refineEntry then engine (.refined (result.map parseRefine)) c else c
  | none => c

end Sys2Proof.Machine
end

