-- ==== Sys2Proof/Machine/Coincidence.lean ====
section
/-! DEFINITION. CCU: votes and crossings, levels, collapse, the creation of scan requests, the full-queue rule, and the
finish of waiting requests (R62 to R80). -/

namespace Sys2Proof.Machine

/-! ## Requests (R68, R69) -/

/-- The number after a request number: it wraps from 65,535 to 1 (R69). R69 always takes the next number, and its text
and R71 have no two unfinished requests share one; neither says what happens when the counter comes round to the number
of a request that still waits. The model gives that number again: its choice (log entry 35). -/
def nextRequestNumber (n : Nat) : Nat := if 65535 ≤ n then 1 else n + 1

/-- The most requests that wait (R71). -/
def queueSize : Nat := 8

/-- A created request joins the end of the queue, and the request counter moves to its number (R69, R71). -/
def enqueue (r : Request) (c : Chip) : Chip :=
  c.onCcu fun u => { u with queue := u.queue ++ [r], requestCounter := r.number }

/-- The first origin time of a declaration: T_d − back, or, when T_d is below back, the smallest T_d − back + k × step
that is not below 0 (R68). -/
def spanStart (refTick back step : Nat) : Nat :=
  if back ≤ refTick then refTick - back else (step - (back - refTick) % step) % step

/-- The request a declaration creates (R68). -/
def declaredRequest (s : Settings) (number t votes level : Nat) : Request :=
  { number := number
    order := none
    level := level
    refTick := t
    grid := s.surveyGrid
    firstNode := 0
    nodeCount := 0
    spanFirst := spanStart t s.back s.step
    spanLast := t
    step := s.step
    settleLag := s.settleLag
    collapse := some s.collapse
    declaredVotes := votes
    peakVotes := votes
    merged := 0 }

/-- The request a SCAN order creates (R68). -/
def orderedRequest (settleLag number slot : Nat) (seq : BitVec 8) (o : ScanOrder) : Request :=
  { number := number
    order := some (slot, seq)
    level := o.level
    refTick := o.t0End
    grid := o.grid
    firstNode := o.first
    nodeCount := o.count
    spanFirst := o.t0Start
    spanLast := o.t0End
    step := o.step
    settleLag := settleLag
    collapse := none
    declaredVotes := 0
    peakVotes := 0
    merged := 0 }

/-! ## Finishing a waiting request (R75) -/

/-- The event outcome of a request that finishes while waiting (R75). -/
def waitingOutcome (r : Request) (o : ScanOutcome) : EventOutcome :=
  { number := r.number
    order := r.order
    level := r.level
    refTick := r.refTick
    declaredVotes := r.declaredVotes
    peakVotes := r.peakVotes
    merged := r.merged
    outcome := o
    flags := noFlags
    stage1 := none
    stage2 := none
    arrivals := [] }

/-- A waiting request finishes: it leaves the queue, its outcome goes to DLV, the collapse target becomes none if it
named it, and the slot of an ORDERED request is completed (R75). A request that shares its number leaves with it, and
gives no outcome: the model's choice (log entry 35). -/
def finishWaiting (o : ScanOutcome) (r : Request) (c : Chip) : Chip :=
  let (c, seq) := deliverOutcome (waitingOutcome r o) (takeRequest r.number c)
  completeScan r.order r.number o seq (clearTarget r.number c)

/-- Every waiting request of a list finishes, in creation order (R75, R77). -/
def finishWaitingAll (o : ScanOutcome) : List Request → Chip → Chip
  | [], c => c
  | r :: rest, c => finishWaitingAll o rest (finishWaiting o r c)

/-! ## Votes and crossings (R63 to R67) -/

/-- The tick notice of CHC: the tick and its ON list (R55). -/
structure TickNotice where
  tick : Nat
  on : List Nat
deriving DecidableEq, Repr

/-- A channel votes at a tick: it is enabled, and its last ON tick lies in the window (R63). -/
def votes (t window : Nat) (ch : Channel) : Bool :=
  match ch.params, ch.lastOn with
  | some _, some τ => decide (t < τ + window) && decide (τ ≤ t)
  | _, _ => false

/-- The vote count of a tick (R63). -/
def voteCount (t window : Nat) (channels : List Channel) : Nat := (channels.filter (votes t window)).length

/-- The level of a crossing (R65). -/
def levelOf (s : Settings) (v : Nat) : Nat :=
  if s.n0 ≤ v then 0 else if s.n1 ≤ v then 1 else if s.n2 ≤ v then 2 else 3

/-- A crossing at a tick merges into this target (R66). -/
def collapses (t : Nat) (g : CollapseTarget) : Bool := decide (t ≤ g.refTick + g.window)

/-- A merge into a request: its merged count and peak votes (R67). -/
def mergeInto (v : Nat) (r : Request) : Request := { r with merged := r.merged + 1, peakVotes := max r.peakVotes v }

/-- A merge into a waiting request, whose level a higher crossing raises (R67). -/
def mergeWaiting (number v level : Nat) (r : Request) : Request :=
  if r.number = number then { mergeInto v r with level := min r.level level } else r

/-- A merge into a request in service: SCE writes it into the bank's copy, and the level stays (R67, R104). -/
def mergeService (number v : Nat) (sc : Scan) : Scan :=
  if sc.request.number = number then { sc with request := mergeInto v sc.request } else sc

/-- A crossing merges into the target, which is in the queue or in a bank (R67). -/
def mergeCrossing (g : CollapseTarget) (v level : Nat) (c : Chip) : Chip :=
  (c.onCcu fun u =>
    { u with queue := u.queue.map (mergeWaiting g.number v level), merges := countUp u.merges }).onSce fun e =>
      { e with banks := e.banks.map (Option.map (mergeService g.number v)) }

/-- A declaration with room in the queue: the request is created and appended, becomes the collapse target, and is
counted; CCU offers the ripe requests (R64, R66, R68, R70). -/
def declare (s : Settings) (t v level : Nat) (c : Chip) : Chip :=
  let n := nextRequestNumber c.ccu.requestCounter
  offerRipe ((enqueue (declaredRequest s n t v level) c).onCcu fun u =>
    { u with target := some ⟨n, t, s.collapse⟩, declarations := countUp u.declarations })

/-- A waiting request that a new declaration of this level may displace (R72). -/
def displaceable (level : Nat) (r : Request) : Bool := r.order.isNone && decide (level < r.level)

/-- The request of the lowest level in a list, of equal ones the one created last (R72). -/
def lowestRequest : List Request → Option Request
  | [] => none
  | r :: rest =>
    match lowestRequest rest with
    | none => some r
    | some w => if w.level < r.level then some r else some w

/-- The full-queue rule (R72). -/
def declareFull (s : Settings) (t v level : Nat) (c : Chip) : Chip :=
  match lowestRequest (c.ccu.queue.filter (displaceable level)) with
  | some r =>
    declare s t v level ((finishWaiting .displaced r c).onCcu fun u => { u with displaced := countUp u.displaced })
  | none => c.onCcu fun u => { u with lost := countUp u.lost }

/-- A crossing that does not merge (R64, R72). -/
def declareCrossing (s : Settings) (t v level : Nat) (c : Chip) : Chip :=
  if c.ccu.queue.length < queueSize then declare s t v level c else declareFull s t v level c

/-- A crossing is given its level and merged, declared or lost (R64). -/
def crossing (s : Settings) (t v : Nat) (c : Chip) : Chip :=
  match c.ccu.target with
  | some g => if collapses t g then mergeCrossing g v (levelOf s v) c else declareCrossing s t v (levelOf s v) c
  | none => declareCrossing s t v (levelOf s v) c

/-- CCU takes a tick notice: it counts the votes, tests for a crossing, and keeps the count (R63, R64). -/
def takeTickNotice (n : TickNotice) (c : Chip) : Chip :=
  match c.tcu.settings with
  | none => c
  | some s =>
    let v := voteCount n.tick s.window c.chc.channels
    let c := if s.nmin ≤ v ∧ c.ccu.prevCount < s.nmin then crossing s n.tick v c else c
    c.onCcu fun u => { u with prevCount := v }

/-! ## SCAN orders (R73) -/

/-- CCU takes a SCAN order: with room it creates an ORDERED request and answers with its number; a full queue is BUSY
(R73). -/
def takeScanOrder (slot : Nat) (seq : BitVec 8) (o : ScanOrder) (c : Chip) : Chip × Option Nat :=
  if c.ccu.queue.length < queueSize then
    let n := nextRequestNumber c.ccu.requestCounter
    (enqueue (orderedRequest ((c.tcu.settings.map Settings.settleLag).getD 0) n slot seq o) c, some n)
  else (c, none)

end Sys2Proof.Machine
end

