-- ==== Sys2Proof/Machine/Conditioning.lean ====
section
/-! DEFINITION. CHC: the capture of station entries, restarts, the conditioning of a settled tick, triggers, picks, and
station reloads (R40 to R61). -/

namespace Sys2Proof.Machine

/-! ## Station entries and restarts (R41, R42) -/

/-- A restart of a channel (R42). -/
def Channel.restart (ch : Channel) : Channel :=
  { ch with
    xPrev := none
    sta := 0
    lta := (ch.params.map fun p => 16 * p.floor).getD 0
    warm := 0
    trigger := .off
    onTick := none
    peakCf := none
    peakTick := none }

/-- A channel captures a station entry, and its bit of the invalid-station map follows (R41). -/
def Channel.capture (e : StationEntry) (ch : Channel) : Channel :=
  { ch with params := stationParams e, invalid := !stationValid e }

/-! ## The characteristic function (R44 to R48) -/

/-- The difference of a present sample (R44). -/
def sampleDiff (prev : Option (BitVec 24)) (x : BitVec 24) : Int :=
  match prev with
  | some p => x.toInt - p.toInt
  | none => 0

/-- The largest clipped magnitude (R44). -/
def clipLimit : Nat := 1048575

/-- The input to both averages (R44). -/
def inputLevel (d : Int) : Nat := 16 * min d.natAbs clipLimit

/-- One step of an average toward its input, floor rounding toward minus infinity (R45, R46). -/
def stepAverage (avg input shift : Nat) : Nat := ((avg : Int) + ((input : Int) - avg) / (2 ^ shift : Nat)).toNat

/-- The ratio of the averages in sixteenths, with the divisor's floor and the cap (R47). -/
def ratioCf (sta lta floor : Nat) : Nat := min 254 (16 * sta / max lta (16 * floor))

/-- A present sample moves the averages and the warm count; L is held while the trigger is ON (R44 to R48). -/
def Channel.takeSample (x : BitVec 24) (p : StationParams) (ch : Channel) : Channel :=
  let a := inputLevel (sampleDiff ch.xPrev x)
  { ch with
    xPrev := some x
    sta := stepAverage ch.sta a p.ks
    lta := if ch.trigger = .on then ch.lta else stepAverage ch.lta a p.kl
    warm := if ch.warm < 2 ^ p.kl then ch.warm + 1 else ch.warm }

/-- An absent sample (R50). -/
def Channel.takeAbsent (ch : Channel) : Channel := { ch with xPrev := none }

/-- The CF of a tick goes into the channel's history (R56). -/
def Channel.recordCf (t : Nat) (cf : BitVec 8) (ch : Channel) : Channel :=
  { ch with history := cellWrite absentCf ch.history (t % historySize) cf }

/-! ## Triggers (R51 to R54) -/

/-- A pick with the report-picks value captured when it was formed (R54). -/
structure FormedPick where
  pick : Pick
  report : Bool
deriving DecidableEq, Repr

/-- The pick of an ON trigger that ends (R54). -/
def endPick (number offTick : Nat) (reason : EndReason) (ch : Channel) : FormedPick :=
  ⟨⟨number, ch.onTick.getD 0, offTick, ch.peakCf.getD 0, ch.peakTick.getD 0, reason⟩,
    (ch.params.map StationParams.reportPicks).getD false⟩

/-- A trigger leaves ON or BLOCKED: on tick and peak are cleared (R52). -/
def Channel.endTrigger (target : Trigger) (ch : Channel) : Channel :=
  { ch with trigger := target, onTick := none, peakCf := none, peakTick := none }

/-- A trigger goes ON (R51). -/
def Channel.goOn (t cf : Nat) (ch : Channel) : Channel :=
  { ch with trigger := .on, onTick := some t, peakCf := some cf, peakTick := some t, lastOn := some t }

/-- The peak takes a CF that is greater (R52). -/
def Channel.raisePeak (t cf : Nat) (ch : Channel) : Channel :=
  if ch.peakCf.getD 0 < cf then { ch with peakCf := some cf, peakTick := some t } else ch

/-- An OFF trigger is judged against a present CF (R51). -/
def judgeOff (t cf : Nat) (p : StationParams) (ch : Channel) : Channel × Option FormedPick :=
  if p.ton ≤ cf ∧ ch.warm = 2 ^ p.kl then (ch.goOn t cf, none) else (ch, none)

/-- An ON trigger is judged against a present CF: NORMAL, LONG, or it stays ON (R52). -/
def judgeOn (number t cf : Nat) (p : StationParams) (ch : Channel) : Channel × Option FormedPick :=
  if cf < p.toff then (ch.endTrigger .off, some (endPick number t .normal ch))
  else if p.maxLength ≤ t - ch.onTick.getD 0 then
    ((ch.raisePeak t cf).endTrigger .blocked, some (endPick number t .long (ch.raisePeak t cf)))
  else (ch.raisePeak t cf, none)

/-- A BLOCKED trigger is judged against a present CF (R53). -/
def judgeBlocked (cf : Nat) (p : StationParams) (ch : Channel) : Channel × Option FormedPick :=
  if cf < p.toff then (ch.endTrigger .off, none) else (ch, none)

/-- A trigger is judged against the present CF of a tick (R51 to R53). -/
def judgeTrigger (number t cf : Nat) (p : StationParams) (ch : Channel) : Channel × Option FormedPick :=
  match ch.trigger with
  | .off => judgeOff t cf p ch
  | .on => judgeOn number t cf p ch
  | .blocked => judgeBlocked cf p ch

/-- An absent sample ends an ON trigger CUT, and leaves any other as it is (R50, R52). -/
def judgeAbsent (number t : Nat) (ch : Channel) : Channel × Option FormedPick :=
  match ch.trigger with
  | .on => (ch.endTrigger .off, some (endPick number t .cut ch))
  | .off => (ch, none)
  | .blocked => (ch, none)

/-- A channel is conditioned for a tick (R43): the CF, its history, the trigger, and the pick of a trigger that ended. -/
def condition (number t : Nat) (sample : Option (BitVec 24)) (ch : Channel) : Channel × Option FormedPick :=
  match sample, ch.params with
  | some x, some p =>
    let ch := ch.takeSample x p
    let cf := ratioCf ch.sta ch.lta p.floor
    judgeTrigger number t cf p (ch.recordCf t (BitVec.ofNat 8 cf))
  | _, _ => judgeAbsent number t (ch.takeAbsent.recordCf t absentCf)

/-- All channels are conditioned for a tick, from a channel number on (R43). -/
def conditionAll (t : Nat) : Nat → List (Option (BitVec 24)) → List Channel → List (Channel × Option FormedPick)
  | n, x :: xs, ch :: chs => condition n t x ch :: conditionAll t (n + 1) xs chs
  | n, [], ch :: chs => condition n t none ch :: conditionAll t (n + 1) [] chs
  | _, _, [] => []

/-! ## Picks (R54, R60) -/

/-- The counter of a pick's end reason increases by 1 (R54, R60). -/
def ChcCounters.countReason (n : ChcCounters) : EndReason → ChcCounters
  | .normal => { n with normal := countUp n.normal }
  | .cut => { n with cut := countUp n.cut }
  | .long => { n with long := countUp n.long }
  | .disabled => { n with disabled := countUp n.disabled }
  | .reload => { n with reload := countUp n.reload }

/-- Changes CHC's counters. -/
def onChcCounters (f : ChcCounters → ChcCounters) (c : Chip) : Chip :=
  c.onChc fun h => { h with counters := f h.counters }

/-- A formed pick is counted, and handed to DLV or counted unreported (R54). -/
def formPick (f : FormedPick) (c : Chip) : Chip :=
  let c := onChcCounters (fun n => n.countReason f.pick.reason) c
  if f.report then deliverPick f.pick c else onChcCounters (fun n => { n with unreported := countUp n.unreported }) c

/-- The picks of a tick, in channel order (R43). -/
def formPicks : List FormedPick → Chip → Chip
  | [], c => c
  | f :: rest, c => formPicks rest (formPick f c)

/-- CHC takes a settled tick: every channel is conditioned, and the picks of the tick are formed (R43). -/
def conditionTick (t : Nat) (samples : List (Option (BitVec 24))) (c : Chip) : Chip :=
  let done := conditionAll t 0 samples c.chc.channels
  formPicks (done.filterMap Prod.snd) (c.onChc fun h => { h with channels := done.map Prod.fst })

/-- The ON list of a tick: the channels whose trigger went ON at it, in channel order (R51, R55). -/
def onList (t : Nat) (channels : List Channel) : List Nat :=
  (numbered 0 channels).filterMap fun e => if e.2.trigger = .on ∧ e.2.onTick = some t then some e.1 else none

/-- CHC hands CCU the tick notice (R55). -/
def handTickNotice (t : Nat) (c : Chip) : Chip := takeTickNotice ⟨t, onList t c.chc.channels⟩ c

/-! ## Station reloads (R58, R59) -/

/-- Two captured values differ in a filter parameter (R58). -/
def filterChanged (a b : StationParams) : Bool := a.ks != b.ks || a.kl != b.kl || a.floor != b.floor

/-- A reload that takes a channel from these captured values to those restarts it (R58). -/
def reloadRestarts : Option StationParams → Option StationParams → Bool
  | some a, some b => filterChanged a b
  | some _, none => true
  | none, some _ => true
  | none, none => false

/-- The end reason a restarting reload gives to an ON trigger (R59). -/
def reloadReason (new : Option StationParams) : EndReason := if new.isSome then .reload else .disabled

/-- The pick a restarting reload forms, with the old captured values and off tick H − 1 (R59). -/
def reloadPick (horizon : Option Nat) (number : Nat) (new : Option StationParams) (ch : Channel) : List FormedPick :=
  if ch.trigger = .on then [endPick number (horizon.getD 0 - 1) (reloadReason new) ch] else []

/-- The channel of a number. -/
def channelAt (n : Nat) (c : Chip) : Channel := c.chc.channels.getD n Channel.atReset

/-- Changes one channel. -/
def onChannel (n : Nat) (f : Channel → Channel) (c : Chip) : Chip :=
  c.onChc fun h => { h with channels := modifyAt f h.channels n }

/-- CHC acts on a reloaded entry (R58, R59). -/
def reloadChannel (n : Nat) (e : StationEntry) (c : Chip) : Chip :=
  if reloadRestarts (channelAt n c).params (stationParams e) then
    let picks := reloadPick c.lki.horizon n (stationParams e) (channelAt n c)
    formPicks picks
      (onChcCounters (fun k => { k with restarts := countUp k.restarts })
        (onChannel n (fun ch => (ch.capture e).restart) c))
  else onChannel n (Channel.capture e) c

/-! ## Binding (R9, R61) -/

/-- CHC at the start of a binding: as after reset (R9, R61). -/
def Chc.atBind : Chc := Chc.atReset

/-- At the end of a successful binding each channel that its entry enables is restarted (R42, R61). -/
def restartEnabled (ch : Channel) : Channel := if ch.params.isSome then ch.restart else ch

end Sys2Proof.Machine
end

