-- ==== Sys2Proof/Machine/Links.lean ====
section
/-! DEFINITION. LKI: the line receiver, the frame checks, the hub state machine, the stall check, the horizon and
settlement (R18 to R39, R181). -/

namespace Sys2Proof.Machine

/-! ## The line receiver (R18, R181) -/

/-- The bit times of high level that make a return to idle (R18). -/
def idleBits : Nat := 10

/-- The bytes of a burst from the levels of its bit times. `highs` counts the consecutive high bit times, and `byte`
holds the bits and the value so far of a byte being received. A byte is a low start bit, eight data bits with the least
significant first, and a high stop bit. A return to idle ends the burst, and so does a low stop bit, whose byte is not
part of it (R18, R181). R18 ignores the bits ahead of the sync word and takes the framing from the first match, R181 takes
each byte's alignment from its start bit and ends the burst at a low stop bit: for a low stop bit ahead of the sync word
the model follows R181, so such a burst is no frame (log entry 18). -/
def receive : List Bool → Nat → Option (Nat × Nat) → List Byte
  | [], _, _ => []
  | level :: rest, highs, none =>
    if level then (if idleBits ≤ highs + 1 then [] else receive rest (highs + 1) none)
    else receive rest 0 (some (0, 0))
  | level :: rest, highs, some (n, v) =>
    if n < 8 then receive rest (if level then highs + 1 else 0) (some (n + 1, if level then v + 2 ^ n else v))
    else if level then BitVec.ofNat 8 v :: receive rest (highs + 1) none
    else []

/-- The bytes from the first sync word on: 0xB6 followed by 0xE1 (R18). -/
def fromSync : List Byte → Option (List Byte)
  | a :: b :: rest => if a = 0xB6 ∧ b = 0xE1 then some (a :: b :: rest) else fromSync (b :: rest)
  | _ => none

/-- The frame of a burst: none when it holds no sync word (R18). -/
def frameOf (line : List Bool) : Option (List Byte) := fromSync (receive line 0 none)

/-! ## Frames and their checks (R19, R20) -/

/-- The generator x^16 + x^12 + x^5 + 1 (R19). -/
def crcGenerator : BitVec 16 := 0x1021

/-- `n` bits of the CRC register, most significant first (R19). -/
def crcBits : Nat → BitVec 16 → BitVec 16
  | 0, r => r
  | n + 1, r => crcBits n (if r.getLsbD 15 then (r <<< 1) ^^^ crcGenerator else r <<< 1)

/-- The CRC register after a byte (R19). -/
def crcByte (r : BitVec 16) (b : Byte) : BitVec 16 := crcBits 8 (r ^^^ (b.setWidth 16 <<< 8))

/-- The CRC over some bytes: the register starts at all ones (R19). -/
def crcOf (l : List Byte) : BitVec 16 := l.foldl crcByte 0xFFFF

/-- The lane count of a frame (R19). -/
def frameLanes (b : List Byte) : Nat := byteAt b 3

/-- The sequence of a frame. -/
def frameSeq (b : List Byte) : BitVec 8 := BitVec.ofNat 8 (byteAt b 4)

/-- The first tick of a frame. -/
def frameFirst (b : List Byte) : Nat := leValue b 6 6

/-- The hub status of a frame carries TIMING-HOLD (R21). -/
def frameHold (b : List Byte) : Bool := byteAt b 5 % 2 == 1

/-- The hub status of a frame carries TIMING-LOST (R21). -/
def frameLost (b : List Byte) : Bool := byteAt b 5 / 2 % 2 == 1

/-- What the checks of R19 find. -/
inductive FrameCheck where
  | lengthError | crcFailure | misrouted | misaligned | good
deriving DecidableEq, Repr

/-- Check 1 of R19. -/
def frameLengthValid (b : List Byte) : Bool := inRange 1 16 (frameLanes b) && b.length == 14 + 75 * frameLanes b

/-- Check 2 of R19. -/
def frameCrcValid (b : List Byte) : Bool :=
  crcOf ((b.drop 2).take (10 + 75 * frameLanes b)) == BitVec.ofNat 16 (leValue b (12 + 75 * frameLanes b) 2)

/-- The checks of R19 in their order. -/
def checkFrame (port : Nat) (b : List Byte) : FrameCheck :=
  if !frameLengthValid b then .lengthError
  else if !frameCrcValid b then .crcFailure
  else if byteAt b 2 ≠ port then .misrouted
  else if frameFirst b % 25 ≠ 0 then .misaligned
  else .good

/-- The ticks of a frame. -/
def frameTicks : Nat := 25

/-- The sample of tick `i`, lane `l` of a frame. -/
def frameSample (b : List Byte) (i l : Nat) : BitVec 24 := BitVec.ofNat 24 (leValue b (12 + 3 * (i * frameLanes b + l)) 3)

/-- The samples of the usable lanes of a frame, tick-major (R29). -/
def frameSamples (b : List Byte) (usable : Nat) : List (BitVec 24) :=
  ((numbersFrom 0 frameTicks).map fun i => (numbersFrom 0 usable).map (frameSample b i)).flatten

/-- A frame as LKI keeps it: its usable lane count is the smaller of its lane count and the expected one (R20, R29). -/
def keptFrame (expected : Nat) (b : List Byte) : Frame :=
  ⟨frameFirst b, min (frameLanes b) expected, frameLost b, frameSamples b (min (frameLanes b) expected)⟩

/-! ## One hub (R21 to R28, R32) -/

/-- Changes a hub's counters. -/
def Hub.count (f : LinkCounters → LinkCounters) (h : Hub) : Hub := { h with counters := f h.counters }

/-- LIVE or STALLED: the states with a place in time. -/
def HubState.placed : HubState → Bool
  | .live => true
  | .stalled => true
  | .disabled => false
  | .seeking => false

/-- The counters a good frame increases (R21). -/
def countGood (b : List Byte) (n : LinkCounters) : LinkCounters :=
  { n with
    good := countUp n.good
    timingHold := if frameHold b then countUp n.timingHold else n.timingHold
    timingLost := if frameLost b then countUp n.timingLost else n.timingLost }

/-- The effects every good frame has (R21). -/
def Hub.noteGood (limit : Nat) (b : List Byte) (h : Hub) : Hub :=
  { h with
    actualLanes := frameLanes b
    counters := countGood b h.counters
    badCount := if h.state.placed then 0 else h.badCount
    silence := if h.state.placed then some limit else h.silence }

/-- The counter of a failed check increases by 1 (R19). -/
def countBad (n : LinkCounters) : FrameCheck → LinkCounters
  | .lengthError => { n with lengthErrors := countUp n.lengthErrors }
  | .crcFailure => { n with crcFailures := countUp n.crcFailures }
  | .misrouted => { n with misrouted := countUp n.misrouted }
  | .misaligned => { n with misaligned := countUp n.misaligned }
  | .good => n

/-- The consecutive-bad-frame count at which a hub falls back (R26). -/
def badFrameLimitCount : Nat := 8

/-- A bad frame: in SEEKING it ends the acquisition attempt, in LIVE and STALLED it counts toward the limit (R19, R23,
R26). -/
def Hub.takeBad (f : FrameCheck) (h : Hub) : Hub :=
  let h := h.count fun n => countBad n f
  match h.state with
  | .seeking => { h with buffer := [], marker := none }
  | .live => { h with badCount := min badFrameLimitCount (h.badCount + 1) }
  | .stalled => { h with badCount := min badFrameLimitCount (h.badCount + 1) }
  | .disabled => h

/-- A sequence that does not follow the last one is a slip (R24, R25, R32). -/
def countSlip (last : Option (BitVec 8)) (seq : BitVec 8) (n : LinkCounters) : LinkCounters :=
  if last.map (· + 1) = some seq then n else { n with slips := countUp n.slips }

/-- What judging a good frame gives: the hub, whether a frame was kept for a LIVE hub, so that the stall check follows,
and the horizon, which a first admission sets (R24, R31). -/
structure Judged where
  hub : Hub
  check : Bool
  horizon : Option Nat
deriving DecidableEq, Repr

/-- A SEEKING hub stores a provisional frame (R23). -/
def Hub.storeProvisional (f : Frame) (seq : BitVec 8) (h : Hub) : Hub :=
  { h with buffer := [f], marker := some (f.firstTick, seq) }

/-- A frame lies wholly below the horizon. -/
def Frame.below (horizon : Nat) (f : Frame) : Bool := decide (f.firstTick + frameTicks ≤ horizon)

/-- A hub is admitted with its two frames: those not wholly below H are kept, the others are late (R24). -/
def Hub.allow (limit horizon : Nat) (seq1 : BitVec 8) (f2 : Frame) (seq2 : BitVec 8) (h : Hub) : Hub :=
  let frames := h.buffer ++ [f2]
  let late := (frames.filter (Frame.below horizon)).length
  { h with
    state := .live
    buffer := frames.filter fun f => !f.below horizon
    nextTick := some (f2.firstTick + frameTicks)
    lastSeq := some seq2
    marker := none
    badCount := 0
    silence := some limit
    counters := countSlip (some seq1) seq2 { h.counters with late := addCount h.counters.late late } }

/-- Two frames of a SEEKING hub are judged against H (R24). -/
def judgeAdmission (limit : Nat) (horizon : Option Nat) (first1 : Nat) (seq1 : BitVec 8) (f2 : Frame)
    (seq2 : BitVec 8) (h : Hub) : Judged :=
  match horizon with
  | none => ⟨h.allow limit first1 seq1 f2 seq2, true, some first1⟩
  | some hz =>
    if f2.below hz then
      ⟨{ h with buffer := [], marker := none, counters := { h.counters with late := addCount h.counters.late 2 } },
        false, horizon⟩
    else ⟨h.allow limit hz seq1 f2 seq2, true, horizon⟩

/-- A SEEKING hub takes a good frame (R23). -/
def judgeSeeking (limit : Nat) (horizon : Option Nat) (f : Frame) (seq : BitVec 8) (h : Hub) : Judged :=
  match h.marker with
  | some (first1, seq1) =>
    if f.firstTick = first1 + frameTicks then judgeAdmission limit horizon first1 seq1 f seq h
    else ⟨h.storeProvisional f seq, false, horizon⟩
  | none => ⟨h.storeProvisional f seq, false, horizon⟩

/-- A frame below next_tick is a duplicate (R25, R32). -/
def Hub.duplicate (h : Hub) : Hub := h.count fun n => { n with duplicates := countUp n.duplicates }

/-- A hub's place in time moves past a frame (R25, R32). -/
def Hub.movePast (f : Frame) (seq : BitVec 8) (h : Hub) : Hub :=
  { h with nextTick := some (f.firstTick + frameTicks), lastSeq := some seq }

/-- The slip test, made when the frame is consistent with next_tick (R25, R32). -/
def Hub.testSlip (f : Frame) (seq : BitVec 8) (h : Hub) : Hub :=
  if h.nextTick = some f.firstTick then h.count (countSlip h.lastSeq seq) else h

/-- Gap ticks are counted (R25, R32). -/
def Hub.countGap (n : Nat) (h : Hub) : Hub := h.count fun k => { k with gapTicks := addCount k.gapTicks n }

/-- A frame joins the buffer (R29). -/
def Hub.keep (f : Frame) (h : Hub) : Hub := { h with buffer := h.buffer ++ [f] }

/-- A LIVE hub takes a good frame (R25). -/
def judgeLive (horizon : Option Nat) (f : Frame) (seq : BitVec 8) (h : Hub) : Judged :=
  let next := h.nextTick.getD 0
  if f.firstTick < next then ⟨h.duplicate, false, horizon⟩
  else ⟨(((h.testSlip f seq).countGap (f.firstTick - next)).movePast f seq).keep f, true, horizon⟩

/-- A STALLED hub returns to LIVE with a frame (R32). -/
def Hub.rejoin (horizon : Nat) (f : Frame) (seq : BitVec 8) (h : Hub) : Hub :=
  { ((((h.testSlip f seq).countGap (f.firstTick - horizon)).movePast f seq).keep f) with state := .live }

/-- A STALLED hub discards a late frame, which carries its next_tick forward (R32). -/
def Hub.takeLate (f : Frame) (seq : BitVec 8) (h : Hub) : Hub :=
  ((h.testSlip f seq).movePast f seq).count fun n => { n with late := countUp n.late }

/-- A STALLED hub takes a good frame (R32). -/
def judgeStalled (horizon : Option Nat) (f : Frame) (seq : BitVec 8) (h : Hub) : Judged :=
  let hz := horizon.getD 0
  if f.firstTick < h.nextTick.getD 0 then ⟨h.duplicate, false, horizon⟩
  else if f.below hz then ⟨h.takeLate f seq, false, horizon⟩
  else ⟨h.rejoin hz f seq, true, horizon⟩

/-- A hub takes a good frame (R22 to R25, R32). -/
def judgeFrame (limit : Nat) (horizon : Option Nat) (f : Frame) (seq : BitVec 8) (h : Hub) : Judged :=
  match h.state with
  | .disabled => ⟨h, false, horizon⟩
  | .seeking => judgeSeeking limit horizon f seq h
  | .live => judgeLive horizon f seq h
  | .stalled => judgeStalled horizon f seq h

/-- A hub falls back to SEEKING (R28). -/
def Hub.fallBack (h : Hub) : Hub :=
  { h with state := .seeking, buffer := [], nextTick := none, lastSeq := none, marker := none, silence := none
           badCount := 0 }

/-- A DISABLED hub becomes SEEKING (R22). -/
def Hub.seek (h : Hub) : Hub :=
  match h.state with
  | .disabled => { h with state := .seeking, buffer := [], marker := none }
  | .seeking => h
  | .live => h
  | .stalled => h

/-! ## lead, H and the stall check (R30, R31) -/

/-- The next_tick of a LIVE hub. -/
def Hub.liveNext (h : Hub) : Option Nat := if h.state = .live then h.nextTick else none

/-- The smallest of some numbers. -/
def minOf : List Nat → Option Nat
  | [] => none
  | a :: l => some (match minOf l with
    | none => a
    | some m => min a m)

/-- The largest of some numbers. -/
def maxOf : List Nat → Option Nat
  | [] => none
  | a :: l => some (match maxOf l with
    | none => a
    | some m => max a m)

/-- The lead tick: the largest next_tick over the LIVE hubs (R31). -/
def Lki.lead (l : Lki) : Option Nat := maxOf (l.hubs.filterMap Hub.liveNext)

/-- The smallest next_tick over the LIVE hubs (R30). -/
def Lki.smallestNext (l : Lki) : Option Nat := minOf (l.hubs.filterMap Hub.liveNext)

/-- A LIVE hub more than Lmax below lead becomes STALLED, and drops its buffer (R31). -/
def Hub.stallBelow (lmax lead : Nat) (h : Hub) : Hub :=
  match h.liveNext with
  | some n => if n + lmax < lead then { h with state := .stalled, buffer := [] } else h
  | none => h

/-- The stall check on the hubs (R31). -/
def Lki.stall (lmax : Nat) (l : Lki) : Lki :=
  match l.lead with
  | some lead => { l with hubs := l.hubs.map (Hub.stallBelow lmax lead) }
  | none => l

/-! ## Settlement (R33 to R35) -/

/-- A frame covers a tick. -/
def Frame.covers (t : Nat) (f : Frame) : Bool := decide (f.firstTick ≤ t) && decide (t < f.firstTick + frameTicks)

/-- The sample of a lane of a hub at a tick, absent unless the hub is LIVE, a frame that is not timing-lost covers the
tick, and the lane is usable (R34, conditions 1 to 4). -/
def Hub.sampleAt (t lane : Nat) (h : Hub) : Option (BitVec 24) :=
  if h.state = .live then
    match h.buffer.find? (Frame.covers t) with
    | some f =>
      if f.timingLost || decide (f.usable ≤ lane) then none
      else f.samples[(t - f.firstTick) * f.usable + lane]?
    | none => none
  else none

/-- The sample of a channel at a tick: present only on an enabled channel too (R34). -/
def channelSample (t : Nat) (hubs : List Hub) (n : Nat) (ch : Channel) : Option (BitVec 24) :=
  if ch.params.isSome then (hubs.getD (n / 16) Hub.atReset).sampleAt t (n % 16) else none

/-- The 256 samples of a tick (R34). -/
def tickSamples (t : Nat) (c : Chip) : List (Option (BitVec 24)) :=
  (numbered 0 c.chc.channels).map fun e => channelSample t c.lki.hubs e.1 e.2

/-- One tick is settled: CHC conditions it, CCU takes its notice, and DLV its raw samples (R33). -/
def settleTick (t : Nat) (c : Chip) : Chip :=
  let samples := tickSamples t c
  placeRawTick t samples (handTickNotice t (conditionTick t samples c))

/-- The ticks of a run are settled in increasing order (R33). -/
def settleTicks (t : Nat) : Nat → Chip → Chip
  | 0, c => c
  | n + 1, c => settleTicks (t + 1) n (settleTick t c)

/-- A hub releases its frames wholly below H after a settlement. A SEEKING hub's provisional frame is not settled, and
leaves the buffer only when it is replaced, discarded or dropped: the worked example of 02 keeps it below H (R23, R29,
R33; log entry 26). -/
def Hub.release (h1 : Nat) (h : Hub) : Hub :=
  if h.state = .seeking then h else { h with buffer := h.buffer.filter fun f => !f.below h1 }

/-- Frames wholly below H are released, and the other blocks see the new H (R33). -/
def releaseFrames (h1 : Nat) (c : Chip) : Chip :=
  c.onLki fun l => { hubs := l.hubs.map (Hub.release h1), horizon := some h1 }

/-- A run that completed an epoch asks for a progress block write (R160, R164). -/
def askForEpoch (h0 h1 : Nat) (c : Chip) : Chip := if h0 / epochTicks < h1 / epochTicks then askProgress c else c

/-- H rises: a settlement run, after which CCU offers the ripe requests (R33, R70). -/
def settle (h0 h1 : Nat) (c : Chip) : Chip :=
  offerRipe (askForEpoch h0 h1 (releaseFrames h1 (settleTicks h0 (h1 - h0) c)))

/-- LKI updates H: it becomes the smallest next_tick over the LIVE hubs, and holds while no hub is LIVE (R30). -/
def updateHorizon (c : Chip) : Chip :=
  match c.lki.horizon, c.lki.smallestNext with
  | some h0, some h1 => if h0 < h1 then settle h0 h1 c else c
  | some _, none => c
  | none, some h1 => c.onLki fun l => { l with horizon := some h1 }
  | none, none => c

/-- The lateness limit in force (R36). -/
def lmaxInForce (c : Chip) : Nat := (c.tcu.settings.map Settings.lmax).getD 0

/-- The silence limit in force (R27, R36). -/
def silenceInForce (c : Chip) : Nat := (c.tcu.settings.map Settings.silenceLimit).getD 0

/-- The stall check: lead, stalls, and the update of H (R31). -/
def stallCheck (c : Chip) : Chip := updateHorizon (c.onLki (Lki.stall (lmaxInForce c)))

/-! ## Changes of hub state (R38) -/

/-- The states of the hubs. -/
def hubStates (c : Chip) : List HubState := c.lki.hubs.map Hub.state

/-- LINK is set and a progress block write asked for when an event has changed a hub state in BOUND, LISTENING or
STOPPING (R38). -/
def noteLinkChange (before : List HubState) (c : Chip) : Chip :=
  if c.active && decide (hubStates c ≠ before) then askProgress (setCause causeLink c) else c

/-- An event on the links, with the notice of its changes of hub state (R38). -/
def linkEvent (f : Chip → Chip) (c : Chip) : Chip := noteLinkChange (hubStates c) (f c)

/-- Changes one hub. -/
def onHub (n : Nat) (f : Hub → Hub) (c : Chip) : Chip := c.onLki fun l => { l with hubs := modifyAt f l.hubs n }

/-- The link state of a hub. -/
def hubAt (n : Nat) (c : Chip) : Hub := c.lki.hubs.getD n Hub.atReset

/-- A good frame reaches its hub (R21 to R25, R32). -/
def takeGoodFrame (port : Nat) (b : List Byte) (c : Chip) : Chip :=
  let limit := silenceInForce c
  let f := keptFrame (expectedLanes (c.tcu.hubEntries.getD port none)) b
  let j := judgeFrame limit c.lki.horizon f (frameSeq b) ((hubAt port c).noteGood limit b)
  let c := c.onLki fun l => { hubs := modifyAt (fun _ => j.hub) l.hubs port, horizon := j.horizon }
  if j.check then stallCheck c else c

/-- A hub falls back to SEEKING, and LKI updates lead and H (R28). -/
def fallBackHub (n : Nat) (c : Chip) : Chip := updateHorizon (onHub n Hub.fallBack c)

/-- The consecutive-bad-frame count of a hub stands at its limit (R26). -/
def Hub.atBadLimit (h : Hub) : Bool := h.state.placed && decide (badFrameLimitCount ≤ h.badCount)

/-- A fall back that the bad-frame limit has made due is made (R26; log entry 4). -/
def fallBackIfDue (n : Nat) (c : Chip) : Chip := if (hubAt n c).atBadLimit then fallBackHub n c else c

/-- A frame is judged by its checks and its hub (R18, R19). -/
def takeFrame (port : Nat) (b : List Byte) (c : Chip) : Chip :=
  let c := fallBackIfDue port c
  match checkFrame port b with
  | .good => takeGoodFrame port b c
  | .lengthError => onHub port (Hub.takeBad .lengthError) c
  | .crcFailure => onHub port (Hub.takeBad .crcFailure) c
  | .misrouted => onHub port (Hub.takeBad .misrouted) c
  | .misaligned => onHub port (Hub.takeBad .misaligned) c

/-- A burst on a link port has ended. For a DISABLED hub it is discarded unchecked; without a sync word it is no frame
(R18). -/
def burstEnds (port : Nat) (line : List Bool) (c : Chip) : Chip :=
  if (hubAt port c).state = .disabled then c
  else
    match frameOf line with
    | some b => linkEvent (takeFrame port b) c
    | none => c

/-! ## Commands and tables that act on the hubs (R22, R37) -/

/-- LISTEN takes the hubs that the hub table enables to SEEKING (R14, R22). -/
def seekEnabled : List (Option HubEntry) → List Hub → List Hub
  | e :: es, h :: hs => (if hubEnabled e then h.seek else h) :: seekEnabled es hs
  | [], hs => hs
  | _, [] => []

/-- Every enabled hub starts to seek (R14, R17). -/
def seekHubs (c : Chip) : Chip := c.onLki fun l => { l with hubs := seekEnabled c.tcu.hubEntries l.hubs }

/-- A hub acts on its entry of a HUBS reload (R37). -/
def Hub.reenter (listening : Bool) (old new : Option HubEntry) (h : Hub) : Hub :=
  if hubEnabled old && !hubEnabled new then h.disable
  else if !hubEnabled old && hubEnabled new && listening then h.seek
  else h

/-- Every hub acts on its entry of a HUBS reload (R37). -/
def reenterHubs (listening : Bool) : List (Option HubEntry) → List (Option HubEntry) → List Hub → List Hub
  | o :: os, n :: ns, h :: hs => h.reenter listening o n :: reenterHubs listening os ns hs
  | _, _, hs => hs

end Sys2Proof.Machine
end

