-- ==== Sys2Proof/Machine/Reloads.lean ====
section
/-! DEFINITION. The STATIONS, HUBS and CONFIG reloads of TCU and what the other blocks do with them (R36, R37, R58, R79,
R121 to R123). -/

namespace Sys2Proof.Machine

/-- The number of failed reads of a reload (R126). -/
def failedCount (got : List (Option (List Byte))) : Nat := (failedReads got).length

/-- The report of a reload of entries: its actual scope word, no bank marked, and the number of failed reads (R126). -/
def entryResult (word : Nat) (got : List (Option (List Byte))) : SlotResult := ⟨reloadCode got, word, 0, failedCount got⟩

/-! ## STATIONS (R121) -/

/-- The station entries that a reload has read, from a first channel on, are presented to CHC in channel order; one
whose read failed is not presented (R58, R121). -/
def presentStations : Nat → List (Option (List Byte)) → Chip → Chip
  | _, [], c => c
  | n, none :: got, c => presentStations (n + 1) got c
  | n, some b :: got, c =>
    presentStations (n + 1) got
      (reloadChannel n (parseStation b)
        (c.onTcu fun t => { t with stationEntries := modifyAt (fun _ => some (parseStation b)) t.stationEntries n }))

/-- A STATIONS reload is performed as one event (R121). -/
def performStations (r : Reload) (c : Chip) : Chip :=
  let o := r.order
  endReload o (some (entryResult (scopeWord scopeStations 0 o.first o.count) r.got))
    (countInvalidation (presentStations o.first r.got c))

/-- The last station entry read of a STATIONS reload is answered (R121). -/
def stationsAnswered (_a : Access) (result : Option (List Byte)) (c : Chip) : Chip :=
  let c := noteReloadRead result c
  match c.tcu.reload with
  | some r => performStations r c
  | none => c

/-! ## HUBS (R37, R122) -/

/-- The hub entries after a HUBS reload: an entry whose read failed keeps its old value (R122). -/
def reloadedHubs : List (Option (List Byte)) → List (Option HubEntry) → List (Option HubEntry)
  | some b :: got, _ :: old => some (parseHubEntry b) :: reloadedHubs got old
  | none :: got, e :: old => e :: reloadedHubs got old
  | [], old => old
  | _, [] => []

/-- LKI acts on every hub as its entry has changed, and updates lead and H (R37; log entry 17). -/
def adoptHubs (new : List (Option HubEntry)) (c : Chip) : Chip :=
  let listening := decide (c.rgp.partState = .listening)
  updateHorizon
    ((c.onLki fun l => { l with hubs := reenterHubs listening c.tcu.hubEntries new l.hubs }).onTcu
      fun t => { t with hubEntries := new })

/-- A HUBS reload is performed as one event (R122). -/
def performHubs (r : Reload) (c : Chip) : Chip :=
  endReload r.order (some (entryResult (scopeWord scopeHubs 0 0 0) r.got))
    (countInvalidation (linkEvent (adoptHubs (reloadedHubs r.got c.tcu.hubEntries)) c))

/-- The last hub entry read of a HUBS reload is answered (R122). -/
def hubsAnswered (_a : Access) (result : Option (List Byte)) (c : Chip) : Chip :=
  let c := noteReloadRead result c
  match c.tcu.reload with
  | some r => performHubs r c
  | none => c

/-! ## CONFIG (R36, R79, R123) -/

/-- A valid settings block replaces the settings in force; LKI makes the stall check against the new Lmax at once. The
other users read the settings in force when they next use them (R36, R79, R123). -/
def adoptSettings (s : Settings) (c : Chip) : Chip := stallCheck (c.onTcu fun t => { t with settings := some s })

/-- A CONFIG reload is performed as one event: the result code and the part after it (R123). -/
def applyConfig (result : Option (List Byte)) (c : Chip) : Chip × Nat :=
  match result with
  | none => (c, codeTableFault)
  | some b =>
    if settingsValid c.tcu.grids (parseSettings b) then (linkEvent (adoptSettings (parseSettings b)) c, codeOk)
    else (c, codeBadTable)

/-- The settings block read of a CONFIG reload is answered (R123). -/
def configAnswered (_a : Access) (result : Option (List Byte)) (c : Chip) : Chip :=
  match c.tcu.reload with
  | some r =>
    let (c, code) := applyConfig result c
    endReload r.order (some ⟨code, scopeWord scopeConfig 0 0 0, 0, 0⟩) (countInvalidation c)
  | none => c

end Sys2Proof.Machine
end

