-- ==== Sys2Proof/Machine/TakeRun.lean ====
section
/-! DEFINITION. ORD: the slot reads of a poll, the take run, and the five order kinds (R132 to R142). -/

namespace Sys2Proof.Machine

/-! ## SCAN (R136) -/

/-- The number of origin times of a SCAN order (R136). -/
def ScanOrder.originTimes (o : ScanOrder) : Nat := (o.t0End - o.t0Start) / o.step + 1

/-- The parameter checks of R136 that rest on a defined grid. -/
def scanRangeValid (o : ScanOrder) (g : GridDef) : Bool :=
  (o.count == 0 || decide (o.first + o.count ≤ g.nodeCount))
    && decide (o.t0Start ≤ o.t0End) && stepValid o.step && decide (o.originTimes ≤ 2048) && decide (o.level ≤ 3)

/-- The definition of the grid a SCAN order names, none when the grid is not 0–3 or not defined (R136). -/
def scanGrid (c : Chip) (o : ScanOrder) : Option GridDef := if o.grid ≤ 3 then gridDefn c.tcu.grids o.grid else none

/-- ORD's checks of a SCAN order in their order: none when they pass, else the result code (R136). -/
def checkScan (o : ScanOrder) (c : Chip) : Option Nat :=
  match scanGrid c o with
  | none => some codeBadParam
  | some g =>
    if !scanRangeValid o g then some codeBadParam
    else if c.rgp.partState ≠ .listening then some codeNotListening
    else if staleScan c.lki.horizon o.t0Start g.ttmin then some codeStale
    else none

/-- A SCAN order is taken: refused with a result, or handed to CCU. The slot of a created request is written TAKEN with
its number; CCU then offers the ripe requests (R70, R73, R136). -/
def dispatchScan (slot : Nat) (seq : BitVec 8) (o : ScanOrder) (c : Chip) : Chip :=
  match checkScan o c with
  | some code => writeDone slot seq (plainResult code) c
  | none =>
    match takeScanOrder slot seq o c with
    | (c, some number) => offerRipe (writeTaken slot seq .scan number c)
    | (c, none) => writeDone slot seq (plainResult codeBusy) c

/-! ## INVALIDATE (R138) -/

/-- An INVALIDATE order is handed to TCU; a drained row scope sets the drain-pending marker first (R138). -/
def dispatchInval (o : InvalOrder) (c : Chip) : Chip :=
  let c := if o.drain && o.isRowScope then c.onOrd fun k => { k with drainPending := some (o.slot, o.seq) } else c
  match handInval o c with
  | (c, some r) => reportInval o.slot o.seq r c
  | (c, none) => writeTaken o.slot o.seq .invalidate 0 c

/-! ## CANCEL (R140) -/

/-- SCE makes a selection when no bank is RUNNING (R83, R103). -/
def selectIfIdle (c : Chip) : Chip := if (runningBank c).isSome then c else engine .select c

/-- A CANCEL reaches a bank in service: a PARKED scan finishes at once; a RUNNING one has its cancel mark set, and the
slot waits for its finish (R103, R140). -/
def cancelInService (slot : Nat) (seq : BitVec 8) (number bank : Nat) (sc : Scan) (c : Chip) : Chip :=
  if sc.running then
    writeTaken slot seq .cancel 0
      (onScan bank (fun s => { s with cancelMark := true, cancels := s.cancels ++ [(slot, seq)] }) c)
  else
    selectIfIdle (writeDone slot seq ⟨codeFound, number, placeParked, 0⟩ (finishScan bank sc .cancelled [] c))

/-- A CANCEL of a request number other than 0 is handed to CCU and SCE (R76, R103, R140). -/
def cancelRequest (slot : Nat) (seq : BitVec 8) (number : Nat) (c : Chip) : Chip :=
  match c.ccu.queue.find? (fun r => r.number == number) with
  | some r => writeDone slot seq ⟨codeFound, number, placeQueue, 0⟩ (finishWaiting .cancelled r c)
  | none =>
    match bankOf number c with
    | some (bank, sc) => cancelInService slot seq number bank sc c
    | none => writeDone slot seq ⟨codeNotFound, number, 0, 0⟩ c

/-- A CANCEL order is taken; the number 0 names no request (R140). -/
def dispatchCancel (slot : Nat) (seq : BitVec 8) (number : Nat) (c : Chip) : Chip :=
  if number = 0 then writeDone slot seq ⟨codeNotFound, 0, 0, 0⟩ c else cancelRequest slot seq number c

/-! ## MARK and FAULT-CLEAR (R141, R142, R174) -/

/-- A MARK order is taken (R141, R159). -/
def dispatchMark (slot : Nat) (seq : BitVec 8) (tag : Word32) (c : Chip) : Chip :=
  match deliverMarker tag c with
  | (c, some eseq) => writeDone slot seq ⟨codeOk, eseq.toNat, 0, 0⟩ c
  | (c, none) => writeDone slot seq (plainResult codeLost) c

/-- The record index that means ALL (R180). -/
def clearAllIndex : Nat := 0xFF

/-- MPT frees one record (R174). -/
def Mpt.clearOne (index : Nat) (m : Mpt) : Mpt := { m with records := modifyAt (fun _ => none) m.records index }

/-- MPT frees all records and sets the overflow count to 0 (R174). -/
def Mpt.clearAll (m : Mpt) : Mpt := { m with records := m.records.map fun _ => none, overflow := 0 }

/-- The number of valid records a FAULT-CLEAR clears (R174). -/
def clearedCount (index : Nat) (m : Mpt) : Nat :=
  if index = clearAllIndex then (m.records.filter Option.isSome).length
  else if (m.records.getD index none).isSome then 1 else 0

/-- MPT clears what a FAULT-CLEAR names (R174). -/
def Mpt.clearFaults (index : Nat) (m : Mpt) : Mpt := if index = clearAllIndex then m.clearAll else m.clearOne index

/-- A FAULT-CLEAR order is taken (R142, R173). -/
def dispatchFaultClear (slot : Nat) (seq : BitVec 8) (index : Nat) (c : Chip) : Chip :=
  if index ≤ 3 ∨ index = clearAllIndex then
    writeDone slot seq ⟨codeOk, clearedCount index c.mpt, 0, 0⟩ (askProgress (c.onMpt (Mpt.clearFaults index)))
  else writeDone slot seq (plainResult codeBadParam) c

/-! ## The take run (R133, R135) -/

/-- The order kinds (R178). -/
def kindScan : Nat := 1
/-- INVALIDATE -/
def kindInvalidate : Nat := 2
/-- CANCEL -/
def kindCancel : Nat := 3
/-- MARK -/
def kindMark : Nat := 4
/-- FAULT-CLEAR -/
def kindFaultClear : Nat := 5

/-- ORD dispatches an order by its kind; an unknown kind is BAD-KIND (R135). -/
def dispatchOrder (slot : Nat) (b : List Byte) (c : Chip) : Chip :=
  let seq := slotSeq b
  let kind := byteAt b 0x04
  if kind = kindScan then dispatchScan slot seq (parseScan b) c
  else if kind = kindInvalidate then dispatchInval (parseInval slot b) c
  else if kind = kindCancel then dispatchCancel slot seq (leValue b 0x08 2) c
  else if kind = kindMark then dispatchMark slot seq (BitVec.ofNat 32 (leValue b 0x08 4)) c
  else if kind = kindFaultClear then dispatchFaultClear slot seq (byteAt b 0x08) c
  else writeDone slot seq (plainResult codeBadKind) c

/-- ORD judges a taken slot: its seal, its kind, and its dispatch (R135). -/
def judgeSlot (slot : Nat) (b : List Byte) (c : Chip) : Chip :=
  if slotSealed b then dispatchOrder slot b c
  else
    writeDone slot (slotSeq b) (plainResult codeTorn) (c.onOrd fun o => { o with torn := countUp o.torn })

/-- A slot, by its number and what the poll read of it, is one ORD may take: it read POSTED with the expected sequence,
is not on the open-order list, and has not been written in this run (R133). -/
def takeable (o : Orders) (e : Nat × Option (List Byte)) : Option (Nat × List Byte) :=
  match e.2 with
  | some b =>
    if slotPosted b && slotSeq b == o.expected && !(o.openOrders.any fun k => k.slot == e.1)
        && !((o.takeRun.getD []).contains e.1) then some (e.1, b)
    else none
  | none => none

/-- The slots ORD collects, by rising index (R133). -/
def collectSlots (o : Orders) (slots : List (Option (List Byte))) : List (Nat × List Byte) :=
  (numbered 0 slots).filterMap (takeable o)

/-- The slots of the same sequence as the taken one are written DONE with DUPLICATE (R133). R133 names no order among
several of them: that they are written by rising slot index is the model's choice (log entry 30). -/
def writeDuplicates : List (Nat × List Byte) → Chip → Chip
  | [], c => c
  | (slot, b) :: rest, c =>
    writeDuplicates rest
      (writeDone slot (slotSeq b) (plainResult codeDuplicate)
        (c.onOrd fun o => { o with duplicates := countUp o.duplicates }))

/-- A taken slot sets the drain-pending marker, which ends the take run even when TCU reports at once (R133, R138). -/
def setsMarker (b : List Byte) : Bool :=
  slotSealed b && byteAt b 0x04 == kindInvalidate && (parseInval 0 b).drain && (parseInval 0 b).isRowScope

/-- One take: the duplicates, the judgement, and the sequence consumed (R133, steps 3 to 5). -/
def takeSlot (slot : Nat) (b : List Byte) (others : List (Nat × List Byte)) (c : Chip) : Chip :=
  (judgeSlot slot b (writeDuplicates others c)).onOrd fun o =>
    { o with expected := o.expected + 1, taken := countUp o.taken }

/-- The take run (R133). Its first argument bounds the takes: each writes a slot of its own, so 32 are the most. -/
def takeRun : Nat → List (Option (List Byte)) → Chip → Chip
  | 0, _, c => c
  | n + 1, slots, c =>
    match collectSlots c.ord slots with
    | [] => c
    | (slot, b) :: others =>
      let c := takeSlot slot b others c
      if setsMarker b then c else takeRun n slots c

/-- The take run and the poll end: a run that took a slot asks for a progress block write, and a set repeat mark begins
a new poll (R131, R143). -/
def endPoll (taken : Bool) (c : Chip) : Chip :=
  let again := c.ord.repeatMark
  let c := c.onOrd fun o => { o with poll := none, repeatMark := false, takeRun := none }
  let c := if taken then askProgress c else c
  if again then beginPoll c else c

/-- The poll's last slot read has been answered: the take run follows (R132, R133). -/
def runPoll (slots : List (Option (List Byte))) (c : Chip) : Chip :=
  let before := c.ord.expected
  let c := takeRun slotCount slots (c.onOrd fun o => { o with takeRun := some [] })
  endPoll (decide (c.ord.expected ≠ before)) c

/-- A slot read of the poll is answered; one that failed counts as not posted (R132). -/
def slotReadAnswered (_a : Access) (result : Option (List Byte)) (c : Chip) : Chip :=
  match c.ord.poll with
  | none => c
  | some got =>
    let slots := got ++ [result]
    let c := c.onOrd fun o => { o with poll := some slots }
    if slots.length < slotCount then c else runPoll slots c

end Sys2Proof.Machine
end

