-- ==== Sys2Proof/Machine/Binding.lean ====
section
/-! DEFINITION. RGP: resets, the binding sequence and its end, and the completion of a progress block write, which also
completes a binding (R8 to R13, R17). -/

namespace Sys2Proof.Machine

/-! ## The start of a binding (R9) -/

/-- RGP at the start of a binding: CONTROL, DIRBASE, CAUSE, MASK and the strap latches keep their values (R9). -/
def Rgp.startBinding (auto : Bool) (r : Rgp) : Rgp :=
  { r with
    partState := .binding
    bindResult := .none
    haltSource := .none
    binding := some ⟨auto, .directory, []⟩
    layout := none }

/-- MPT at the start of a binding. The access on the bus is abandoned (R176; log entry 14). -/
def Mpt.atBind (m : Mpt) : Mpt := { Mpt.atReset with lastGrant := m.lastGrant }

/-- The part at the start of a binding, before anything is read: every block other than RGP in its bind state, which
is its reset state (R9, R17). -/
def bindState (auto : Bool) (c : Chip) : Chip :=
  { Chip.atReset with rgp := c.rgp.startBinding auto, mpt := c.mpt.atBind, chc := Chc.atBind, freeUses := c.freeUses }

/-- The read of the directory at DIRBASE (R10). -/
def directoryAccess (c : Chip) : Access := readAccess .directory c.rgp.dirbase.toNat 256

/-- A binding starts: the bind state, and the directory read (R9, R10). -/
def startBinding (auto : Bool) (c : Chip) : Chip :=
  request .rgp (directoryAccess c) (bindState auto c)

/-! ## Resets (R17) -/

/-- DIRBASE after a reset release (R17). -/
def resetDirbase (auto : Bool) (dirsel : BitVec 2) : BitVec 40 :=
  if auto then BitVec.ofNat 40 (dirsel.toNat * 0x1000000) else 0

/-- The part right after a reset release has latched the straps, before a binding that AUTO starts (R17). -/
def releasedState (auto : Bool) (dirsel : BitVec 2) (c : Chip) : Chip :=
  { Chip.atReset with
    rgp := { Rgp.atReset with autoStrap := auto, dirselStrap := dirsel, dirbase := resetDirbase auto dirsel }
    freeUses := c.freeUses }

/-- A reset release: the part rests in UNBOUND, or AUTO starts a binding (R17). -/
def releaseReset (auto : Bool) (dirsel : BitVec 2) (c : Chip) : Chip :=
  if auto then startBinding true (releasedState auto dirsel c) else releasedState auto dirsel c

/-- The reset pin goes low: every block takes its reset state. The strap latches keep their values until the release
(R17; log entry 7). -/
def holdReset (c : Chip) : Chip :=
  { Chip.atReset with
    rgp := { Rgp.atReset with autoStrap := c.rgp.autoStrap, dirselStrap := c.rgp.dirselStrap, resetHeld := true }
    freeUses := c.freeUses }

/-! ## The reads of a binding (R10 to R12) -/

/-- A binding ends with any result but OK (R13). -/
def failBinding (result : BindResult) (c : Chip) : Chip :=
  changeState .unbound
    { c with
      rgp := { c.rgp with bindResult := result, binding := none, layout := none }
      mpt := { c.mpt with windows := none }
      chc := Chc.atReset
      tcu := Tcu.atReset
      dlv := { c.dlv with pick := StreamState.atReset, event := StreamState.atReset } }

/-- The binding waits for the next thing. -/
def setStage (st : BindStage) (c : Chip) : Chip :=
  c.onRgp fun r => { r with binding := r.binding.map fun b => { b with stage := st } }

/-- RGP requests the next table read of a binding. -/
def bindRead (st : BindStage) (a : Access) (c : Chip) : Chip := request .rgp a (setStage st c)

/-- The read of a grid record in a binding. -/
def bindGridAccess (l : Layout) (g : Nat) : Access := readAccess (.bindGrid g) (l.grids + 64 * g) 64

/-- The read of a hub entry in a binding. -/
def bindHubAccess (l : Layout) (h : Nat) : Access := readAccess (.bindHub h) (l.hubs + 32 * h) 32

/-- The read of a station entry in a binding. -/
def bindStationAccess (l : Layout) (n : Nat) : Access := readAccess (.bindStation n) (l.stations + 32 * n) 32

/-- A stream as a binding adopts it from the directory (R11, R147). -/
def adoptStream (s : DirectoryStream) : StreamState :=
  ⟨s.slots, s.written, s.released, s.written, s.written, 0, 0, false⟩

/-- MPT copies the windows once they have passed (R10). -/
def copyWindows (b : List Byte) (c : Chip) : Chip :=
  c.onMpt fun m => { m with windows := some (directoryWindows b) }

/-- The layout has been accepted: it is kept, and DLV adopts the totals (R11). -/
def adoptDirectory (b : List Byte) (c : Chip) : Chip :=
  (c.onRgp fun r => { r with layout := some (directoryLayout b) }).onDlv fun d =>
    { d with pick := adoptStream (directoryPicks b), event := adoptStream (directoryEvents b) }

/-- The directory is judged (R10, R11). -/
def judgeDirectory (b : List Byte) (c : Chip) : Chip :=
  match directoryCheck b with
  | some result => failBinding result c
  | none =>
    let c := copyWindows b c
    if layoutValid (directoryWindows b) (directoryLayout b) (directoryPicks b) (directoryEvents b) then
      bindRead .settings (readAccess .bindSettings (directoryLayout b).settings 256) (adoptDirectory b c)
    else failBinding .badLayout c

/-- The directory read is answered (R10). -/
def directoryAnswered (_a : Access) (result : Option (List Byte)) (c : Chip) : Chip :=
  match result with
  | none => failBinding .readFault c
  | some b => judgeDirectory b c

/-- The settings block as the binding has read it. -/
def boundSettings (c : Chip) : Settings := parseSettings ((c.rgp.binding.map Binding.settingsBlock).getD [])

/-- The settings block is kept until the grid table is in (R12). -/
def loadSettingsBlock (b : List Byte) (c : Chip) : Chip :=
  bindRead (.grid 0) (bindGridAccess c.layout 0)
    (c.onRgp fun r => { r with binding := r.binding.map fun k => { k with settingsBlock := b } })

/-- A grid record is loaded; after the last one the settings block is judged (R12). -/
def loadGrid (g : Nat) (b : List Byte) (c : Chip) : Chip :=
  let c := c.onTcu fun t => { t with grids := modifyAt (fun _ => judgeGrid b) t.grids g }
  if g < 3 then bindRead (.grid (g + 1)) (bindGridAccess c.layout (g + 1)) c
  else if settingsValid c.tcu.grids (boundSettings c) then
    bindRead (.hub 0) (bindHubAccess c.layout 0) (c.onTcu fun t => { t with settings := some (boundSettings c) })
  else failBinding .badConfig c

/-- A hub entry is loaded (R12, R112). -/
def loadHub (h : Nat) (b : List Byte) (c : Chip) : Chip :=
  let c := c.onTcu fun t => { t with hubEntries := modifyAt (fun _ => some (parseHubEntry b)) t.hubEntries h }
  if h < 15 then bindRead (.hub (h + 1)) (bindHubAccess c.layout (h + 1)) c
  else bindRead (.station 0) (bindStationAccess c.layout 0) c

/-- DLV builds the progress block image (R166). -/
def buildImage (c : Chip) : Chip := c.onDlv fun d => { d with image := .current }

/-- The tables are in: the enabled channels are restarted, and DLV builds the image and writes it (R13, R61, R166). -/
def writeFirstImage (c : Chip) : Chip :=
  beginProgress (boundState c)
    (buildImage (setStage .image (c.onChc fun h => { h with channels := h.channels.map restartEnabled })))

/-- A station entry is loaded, and its channel captures it (R12, R41, R112). -/
def loadStation (n : Nat) (b : List Byte) (c : Chip) : Chip :=
  let c := onChannel n (Channel.capture (parseStation b))
    (c.onTcu fun t => { t with stationEntries := modifyAt (fun _ => some (parseStation b)) t.stationEntries n })
  if n < 255 then bindRead (.station (n + 1)) (bindStationAccess c.layout (n + 1)) c else writeFirstImage c

/-- A table read of a binding is answered (R12). -/
def bindTableAnswered (a : Access) (result : Option (List Byte)) (c : Chip) : Chip :=
  match result with
  | none => failBinding .readFault c
  | some b =>
    match a.purpose with
    | .bindSettings => loadSettingsBlock b c
    | .bindGrid g => loadGrid g b c
    | .bindHub h => loadHub h b c
    | .bindStation n => loadStation n b c
    | _ => c

/-! ## The end of a binding, and of a progress block write (R13, R164) -/

/-- The poll period in force (R131). -/
def pollPeriodInForce (c : Chip) : Nat := (c.tcu.settings.map Settings.pollPeriod).getD 0

/-- LISTEN's effects on LKI and CCU: the enabled hubs seek, and the previous count becomes 0 (R14, R62). -/
def beginListening (c : Chip) : Chip := linkEvent seekHubs (c.onCcu fun u => { u with prevCount := 0 })

/-- The poll timer starts or restarts with the period in force (R131). -/
def startPollTimer (c : Chip) : Chip := c.onOrd fun o => { o with timer := some (pollPeriodInForce c) }

/-- A binding succeeds: the result OK, the new part state, and the first poll; with AUTO the part listens (R13, R17,
R131). -/
def succeedBinding (k : Binding) (c : Chip) : Chip :=
  let c := changeState (if k.auto then .listening else .bound)
    (c.onRgp fun r => { r with bindResult := .ok, binding := none })
  let c := beginPoll (startPollTimer c)
  if k.auto then beginListening c else c

/-- The first image completes the binding (R13). -/
def completeBinding (c : Chip) : Chip :=
  match c.rgp.binding with
  | some k => succeedBinding k c
  | none => c

/-- The last word of a progress block write is answered (R164). -/
def progressAnswered (_a : Access) (_result : Option (List Byte)) (c : Chip) : Chip :=
  match c.dlv.progress with
  | some w => rewriteProgress (completeBinding (completeProgress w c))
  | none => c

/-- The first word or the middle words of a progress block write are answered without error: the write goes on (R164). -/
def progressWordAnswered (_a : Access) (_result : Option (List Byte)) (c : Chip) : Chip := c

/-! ## Answers by purpose (R169, R170) -/

/-- The block's handling of the end of an access, by what the access is for. -/
def handlerOf : Purpose → Access → Option (List Byte) → Chip → Chip
  | .directory => directoryAnswered
  | .bindSettings => bindTableAnswered
  | .bindGrid _ => bindTableAnswered
  | .bindHub _ => bindTableAnswered
  | .bindStation _ => bindTableAnswered
  | .row _ _ => rowFetchAnswered
  | .refine _ _ => refineAnswered
  | .reloadGrid _ last => if last then griddefsAnswered else reloadReadAnswered
  | .reloadStation _ last => if last then stationsAnswered else reloadReadAnswered
  | .reloadHub _ last => if last then hubsAnswered else reloadReadAnswered
  | .reloadConfig => configAnswered
  | .slotRead _ => slotReadAnswered
  | .slotResult _ => slotWriteAnswered
  | .slotState _ _ => slotWriteAnswered
  | .returnBlock => returnBlockAnswered
  | .record _ => recordAnswered
  | .progressFirst => progressWordAnswered
  | .progressMiddle => progressWordAnswered
  | .progressLast => progressAnswered
  | .rawState _ => rawStateAnswered
  | .rawHeader _ => rawHalfAnswered
  | .rawTick _ _ => rawHalfAnswered
  | .rawFull _ => rawFullAnswered

end Sys2Proof.Machine
end

