-- ==== Sys2Proof/Machine/BindingAnswers.lean ====
section
/-! DEFINITION. The answers to the reads of a binding (R10 to R13). -/

namespace Sys2Proof.Machine

/-- The read of the directory. -/
def isDirectory : Purpose → Bool
  | .directory => true
  | _ => false

/-- The table reads of a binding. -/
def isBindTable : Purpose → Bool
  | .bindSettings => true
  | .bindGrid _ => true
  | .bindHub _ => true
  | .bindStation _ => true
  | _ => false

/-- DIRECTORY_READ_DONE (R10, R11, R13). -/
def execDirectoryReadDone (answer : ReadAnswer) (s : State) : StepOutcome :=
  answerRead isDirectory directoryAnswered answer s

/-- BIND_TABLE_READ_DONE (R12, R13). -/
def execBindTableReadDone (answer : ReadAnswer) (s : State) : StepOutcome :=
  answerRead isBindTable bindTableAnswered answer s

end Sys2Proof.Machine
end

