-- ==== Sys2Proof/Machine/DeliveryEvents.lean ====
section
/-! DEFINITION. The events of the delivery unit and of the memory port: the return block, records, raw halves, the
progress block, the notice counts, and the answer limit (R149 to R152, R161, R162, R164, R170). -/

namespace Sys2Proof.Machine

/-- The read of the return block. -/
def isReturnBlock : Purpose → Bool
  | .returnBlock => true
  | _ => false

/-- The write of a stream record. -/
def isRecord : Purpose → Bool
  | .record _ => true
  | _ => false

/-- The write of the last word of the progress block. -/
def isProgressLast : Purpose → Bool
  | .progressLast => true
  | _ => false

/-- The writes of the first word and of the middle words of the progress block. -/
def isProgressWord : Purpose → Bool
  | .progressFirst => true
  | .progressMiddle => true
  | _ => false

/-- The read of a raw half's state word. -/
def isRawState : Purpose → Bool
  | .rawState _ => true
  | _ => false

/-- A header or sample write of a raw half. -/
def isRawHalf : Purpose → Bool
  | .rawHeader _ => true
  | .rawTick _ _ => true
  | _ => false

/-- The FULL write of a raw half. -/
def isRawFull : Purpose → Bool
  | .rawFull _ => true
  | _ => false

/-- RETURN_BLOCK_READ_DONE (R151, R152). -/
def execReturnBlockReadDone (answer : ReadAnswer) (s : State) : StepOutcome :=
  answerRead isReturnBlock returnBlockAnswered answer s

/-- RECORD_WRITE_DONE (R149). -/
def execRecordWriteDone (ok : Bool) (s : State) : StepOutcome := answerWrite isRecord recordAnswered ok s

/-- PROGRESS_WRITE_DONE (R13, R150, R164). -/
def execProgressWriteDone (ok : Bool) (s : State) : StepOutcome := answerWrite isProgressLast progressAnswered ok s

/-- NOTICE_COUNT_REACHED (R150). -/
def execNoticeCountReached (stream : StreamId) (s : State) : StepOutcome := commandStep (takeNotice stream) s

/-- RAW_STATE_READ_DONE (R161). -/
def execRawStateReadDone (answer : ReadAnswer) (s : State) : StepOutcome :=
  answerRead isRawState rawStateAnswered answer s

/-- RAW_HALF_WRITE_DONE (R161, R162). -/
def execRawHalfWriteDone (ok : Bool) (s : State) : StepOutcome := answerWrite isRawHalf rawHalfAnswered ok s

/-- RAW_FULL_WRITE_DONE (R161). -/
def execRawFullWriteDone (ok : Bool) (s : State) : StepOutcome := answerWrite isRawFull rawFullAnswered ok s

/-- PROGRESS_BLOCK_WORD_WRITE_DONE (R164). -/
def execProgressBlockWordWriteDone (ok : Bool) (s : State) : StepOutcome :=
  answerWrite isProgressWord progressWordAnswered ok s

/-- MPT ends the access on the bus, and treats it as a bus error (R170). -/
def endUnanswered (c : Chip) : Chip :=
  match c.mpt.onBus with
  | some a => accessEnds (handlerOf a.purpose) a none c
  | none => c

/-- ANSWER_LIMIT_EXPIRY (R170). -/
def execAnswerLimitExpiry (s : State) : StepOutcome := .next { s with chip := endUnanswered s.chip }

end Sys2Proof.Machine
end

