-- ==== Sys2Proof/Machine/EngineEvents.lean ====
section
/-! DEFINITION. The answers the running scan waits for (R92, R96, R115). -/

namespace Sys2Proof.Machine

/-- The row fetch. -/
def isRow : Purpose → Bool
  | .row _ _ => true
  | _ => false

/-- The read of a refine entry. -/
def isRefine : Purpose → Bool
  | .refine _ _ => true
  | _ => false

/-- CF_READ_ANSWER (R57, R92). -/
def execCfReadAnswer (s : State) : StepOutcome := commandStep (fun c => engineOn (cfAnswered c)) s

/-- ROW_FETCH_DONE (R115, R116). -/
def execRowFetchDone (answer : ReadAnswer) (s : State) : StepOutcome := answerRead isRow rowFetchAnswered answer s

/-- REFINE_READ_DONE (R96, R110). -/
def execRefineReadDone (answer : ReadAnswer) (s : State) : StepOutcome :=
  answerRead isRefine refineAnswered answer s

end Sys2Proof.Machine
end

