-- ==== Sys2Proof/Machine/LinkEvents.lean ====
section
/-! DEFINITION. The events on the links: a burst, the bad-frame limit, and the silence timer (R18, R26, R27). -/

namespace Sys2Proof.Machine

/-- The silence timer of a hub runs (R27). -/
def Hub.timerRuns (h : Hub) : Bool := h.state.placed && h.silence.isSome

/-- The bad-frame limit of a hub acts when its count stands at the limit (R26). -/
def badLimitEvent (n : Nat) (c : Chip) : Chip :=
  if (hubAt n c).atBadLimit then linkEvent (fallBackHub n) c else c

/-- A running silence timer expires (R27). -/
def silenceEvent (n : Nat) (c : Chip) : Chip := if (hubAt n c).timerRuns then linkEvent (fallBackHub n) c else c

/-- HUB_FRAME_ARRIVAL (R18 to R25, R32, R33). -/
def execHubFrameArrival (port : Fin 16) (line : List Bool) (s : State) : StepOutcome :=
  commandStep (burstEnds port.val line) s

/-- BAD_FRAME_LIMIT (R26, R28). -/
def execBadFrameLimit (hub : Fin 16) (s : State) : StepOutcome := commandStep (badLimitEvent hub.val) s

/-- SILENCE_TIMER_EXPIRY (R27, R28). -/
def execSilenceTimerExpiry (hub : Fin 16) (s : State) : StepOutcome := commandStep (silenceEvent hub.val) s

end Sys2Proof.Machine
end

