-- ==== Sys2Proof/Machine/OrderEvents.lean ====
section
/-! DEFINITION. The events of the order table and of the reloads: the poll timer, slot reads and writes, and the reload
reads (R120 to R123, R131, R132, R143). -/

namespace Sys2Proof.Machine

/-- A slot read of a poll. -/
def isSlotRead : Purpose → Bool
  | .slotRead _ => true
  | _ => false

/-- A write of a slot. -/
def isSlotWrite : Purpose → Bool
  | .slotResult _ => true
  | .slotState _ _ => true
  | _ => false

/-- The last read of a GRIDDEFS reload. -/
def isLastGrid : Purpose → Bool
  | .reloadGrid _ last => last
  | _ => false

/-- The last read of a STATIONS reload. -/
def isLastStation : Purpose → Bool
  | .reloadStation _ last => last
  | _ => false

/-- The last read of a HUBS reload. -/
def isLastHub : Purpose → Bool
  | .reloadHub _ last => last
  | _ => false

/-- The read of a CONFIG reload. -/
def isConfig : Purpose → Bool
  | .reloadConfig => true
  | _ => false

/-- A read of a reload that is not its last. -/
def isEarlierRead : Purpose → Bool
  | .reloadGrid _ last => !last
  | .reloadStation _ last => !last
  | .reloadHub _ last => !last
  | _ => false

/-- The poll timer expires: it restarts with the period in force, and a poll begins or the repeat mark is set (R131). -/
def pollTimerEvent (c : Chip) : Chip :=
  if c.ord.timer.isSome && c.active then beginPoll (startPollTimer c) else c

/-- POLL_TIMER_EXPIRY (R131). -/
def execPollTimerExpiry (s : State) : StepOutcome := commandStep pollTimerEvent s

/-- ORDER_SLOT_READ_DONE (R132, R133). -/
def execOrderSlotReadDone (answer : ReadAnswer) (s : State) : StepOutcome :=
  answerRead isSlotRead slotReadAnswered answer s

/-- ORDER_SLOT_WRITE_DONE (R143, R144). -/
def execOrderSlotWriteDone (ok : Bool) (s : State) : StepOutcome := answerWrite isSlotWrite slotWriteAnswered ok s

/-- GRIDDEFS_RELOAD_DONE (R120). -/
def execGriddefsReloadDone (answer : ReadAnswer) (s : State) : StepOutcome :=
  answerRead isLastGrid griddefsAnswered answer s

/-- STATIONS_RELOAD_DONE (R58, R59, R121). -/
def execStationsReloadDone (answer : ReadAnswer) (s : State) : StepOutcome :=
  answerRead isLastStation stationsAnswered answer s

/-- HUBS_RELOAD_DONE (R37, R122). -/
def execHubsReloadDone (answer : ReadAnswer) (s : State) : StepOutcome := answerRead isLastHub hubsAnswered answer s

/-- CONFIG_RELOAD_DONE (R36, R79, R123). -/
def execConfigReloadDone (answer : ReadAnswer) (s : State) : StepOutcome := answerRead isConfig configAnswered answer s

/-- RELOAD_READ_DONE (R120 to R122). -/
def execReloadReadDone (answer : ReadAnswer) (s : State) : StepOutcome :=
  answerRead isEarlierRead reloadReadAnswered answer s

end Sys2Proof.Machine
end

