-- ==== Sys2Proof/WellFormed.lean ====
section
/-! DEFINITION. Which terms of `Instr` are commands that the board, a link port or the station processor can present. -/

namespace Sys2Proof

/-- The five command codes of CONTROL (R6). -/
def commandCodes : List Word32 := [1, 2, 3, 4, 15]

/-- The offsets at which every register write is ignored: ID, STATUS and 0x1C to 0x1F (R3). -/
def ignoredOffsets : List (BitVec 5) := [0x00, 0x08, 0x1C, 0x1D, 0x1E, 0x1F]

/-- An answer carries data of one of the lengths of the reads it may answer (R169, R170). -/
def answerHasLength (lengths : List Nat) : ReadAnswer → Bool
  | .data bytes => lengths.contains bytes.length
  | .error => true

/-- A command that can be presented to the part. A REFUSED_CODE write carries none of the five codes (R6), an ignored
register write names an ignored offset (R3), a burst begins when the line leaves idle, that is, with a low start
bit (R18, R181), and an answer carries as many bytes as the read it answers (R169). -/
def wellFormed : Instr → Bool
  | .powerOnReset _ _ => true
  | .reset _ _ => true
  | .bind => true
  | .listen => true
  | .stop => true
  | .nudge => true
  | .refusedCode v => !commandCodes.contains v
  | .causeWrite _ => true
  | .maskWrite _ => true
  | .dirbaseWrite _ _ => true
  | .ignoredRegisterWrite off _ => ignoredOffsets.contains off
  | .directoryReadDone a => answerHasLength [256] a
  | .bindTableReadDone a => answerHasLength [256, 64, 32] a
  | .hubFrameArrival _ line => line.head? == some false
  | .badFrameLimit _ => true
  | .silenceTimerExpiry _ => true
  | .cfReadAnswer => true
  | .rowFetchDone a => answerHasLength [512] a
  | .refineReadDone a => answerHasLength [8] a
  | .pollTimerExpiry => true
  | .orderSlotReadDone a => answerHasLength [64] a
  | .orderSlotWriteDone _ => true
  | .griddefsReloadDone a => answerHasLength [64] a
  | .stationsReloadDone a => answerHasLength [32] a
  | .hubsReloadDone a => answerHasLength [32] a
  | .configReloadDone a => answerHasLength [256] a
  | .returnBlockReadDone a => answerHasLength [64] a
  | .recordWriteDone _ => true
  | .progressWriteDone _ => true
  | .noticeCountReached _ => true
  | .rawStateReadDone a => answerHasLength [4] a
  | .rawHalfWriteDone _ => true
  | .rawFullWriteDone _ => true
  | .answerLimitExpiry => true
  | .powerOnResetHold => true
  | .reloadReadDone a => answerHasLength [64, 32] a
  | .progressBlockWordWriteDone _ => true

end Sys2Proof
end

