-- ==== Sys2Proof/Machine/PortCommands.lean ====
section
/-! DEFINITION. The commands of the register port: the resets, the writes of CONTROL, CAUSE, MASK and DIRBASE, and the
ignored writes (R3 to R6, R9, R14, R15, R17). -/

namespace Sys2Proof.Machine

/-! ## CONTROL (R6) -/

/-- CONTROL takes the last code and its acceptance (R6). -/
def noteControl (code : BitVec 8) (a : Acceptance) (c : Chip) : Chip :=
  c.onRgp fun r => { r with lastCode := code, acceptance := a }

/-- A known command is accepted, and has its effect, or is refused with REFUSED-STATE (R6). -/
def controlCommand (code : BitVec 8) (valid : Chip → Bool) (effect : Chip → Chip) (c : Chip) : Chip :=
  if valid c then effect (noteControl code .accepted c) else noteControl code .refusedState c

/-- BIND is valid in UNBOUND and FAULTED, and in BOUND with the pending event queue empty (R6). -/
def bindValid (c : Chip) : Bool :=
  match c.rgp.partState with
  | .unbound => true
  | .faulted => true
  | .bound => c.dlv.pendingEvents.isEmpty
  | .binding => false
  | .listening => false
  | .stopping => false

/-- LISTEN is valid in BOUND (R6, R14). -/
def listenValid (c : Chip) : Bool := c.rgp.partState == .bound

/-- STOP is valid in LISTENING (R6, R15). -/
def stopValid (c : Chip) : Bool := c.rgp.partState == .listening

/-- The effect of an accepted BIND (R8, R9). -/
def bindEffect (c : Chip) : Chip := setCause causeState (startBinding false c)

/-- The effect of an accepted LISTEN (R14). -/
def listenEffect (c : Chip) : Chip := beginListening (enterState .listening c)

/-- LKI and CCU at an accepted STOP: every hub is disabled, and every waiting request finishes STOPPED (R15, R22, R77).
R62 and R77 have STOP leave the collapse target as it is; R66 and R75 make it none when the request it names finishes,
in the queue too. For a target that waits at the STOP the model follows R66 and R75: it becomes none, and any other
target is kept (log entry 27). -/
def haltDetection (c : Chip) : Chip :=
  finishWaitingAll .stopped c.ccu.queue (linkEvent (Chip.onLki Lki.disableAll) c)

/-- The effect of an accepted STOP: STOPPING with a context in service, else BOUND (R15). -/
def stopEffect (c : Chip) : Chip :=
  let c := haltDetection c
  if anyInService c then enterState .stopping c else enterState .bound c

/-- The effect of an accepted NUDGE: a poll, and a read of the return block (R14, R131, R151). -/
def nudgeEffect (c : Chip) : Chip := beginReturnRead (beginPoll c)

/-! ## DIRBASE (R4) -/

/-- The states in which a write of DIRBASE takes effect (R4). -/
def dirbaseWritable : PartState → Bool
  | .unbound => true
  | .bound => true
  | .faulted => true
  | .binding => false
  | .listening => false
  | .stopping => false

/-- DIRBASE with its high eight bits written (R4). -/
def writeHigh (value : Word32) (base : BitVec 40) : BitVec 40 := value.setWidth 8 ++ base.extractLsb' 0 32

/-- DIRBASE with its low 32 bits written; bits 5–0 are ignored (R4). -/
def writeLow (value : Word32) (base : BitVec 40) : BitVec 40 := base.extractLsb' 32 8 ++ (value &&& 0xFFFFFFC0)

/-- A write of DIRBASE_HI or DIRBASE_LO (R4). -/
def writeDirbase (hi : Bool) (value : Word32) (c : Chip) : Chip :=
  if dirbaseWritable c.rgp.partState then
    c.onRgp fun r => { r with dirbase := if hi then writeHigh value r.dirbase else writeLow value r.dirbase }
  else c

/-! ## The commands -/

/-- POWER_ON_RESET (R17). -/
def execPowerOnReset (auto : Bool) (dirsel : BitVec 2) (s : State) : StepOutcome :=
  commandStep (releaseReset auto dirsel) s

/-- RESET: accepted in every state; an accepted RESET leaves CONTROL at its reset value (R6, R17). -/
def execReset (auto : Bool) (dirsel : BitVec 2) (s : State) : StepOutcome :=
  registerWrite (releaseReset auto dirsel) s

/-- BIND (R6, R9). -/
def execBind (s : State) : StepOutcome := registerWrite (controlCommand 1 bindValid bindEffect) s

/-- LISTEN (R6, R14). -/
def execListen (s : State) : StepOutcome := registerWrite (controlCommand 2 listenValid listenEffect) s

/-- STOP (R6, R15). -/
def execStop (s : State) : StepOutcome := registerWrite (controlCommand 3 stopValid stopEffect) s

/-- NUDGE (R6, R14). -/
def execNudge (s : State) : StepOutcome := registerWrite (controlCommand 4 Chip.active nudgeEffect) s

/-- REFUSED_CODE: CONTROL shows the low eight bits of the value and REFUSED-CODE (R6). -/
def execRefusedCode (value : Word32) (s : State) : StepOutcome :=
  if commandCodes.contains value then .refused .operandOfAnotherRow
  else registerWrite (noteControl (value.setWidth 8) .refusedCode) s

/-- CAUSE_WRITE: each bit written as 1 is cleared (R5). -/
def execCauseWrite (value : Word32) (s : State) : StepOutcome :=
  registerWrite (Chip.onRgp fun r => { r with cause := r.cause &&& ~~~(value.setWidth 8) }) s

/-- MASK_WRITE: all eight enable bits are replaced (R5). -/
def execMaskWrite (value : Word32) (s : State) : StepOutcome :=
  registerWrite (Chip.onRgp fun r => { r with mask := value.setWidth 8 }) s

/-- DIRBASE_WRITE (R4). -/
def execDirbaseWrite (hi : Bool) (value : Word32) (s : State) : StepOutcome := registerWrite (writeDirbase hi value) s

/-- IGNORED_REGISTER_WRITE: nothing changes (R3). -/
def execIgnoredRegisterWrite (offset : BitVec 5) (_value : Word32) (s : State) : StepOutcome :=
  if ignoredOffsets.contains offset then .next s else .refused .operandOfAnotherRow

/-- POWER_ON_RESET_HOLD (R17). -/
def execPowerOnResetHold (s : State) : StepOutcome := commandStep holdReset s

end Sys2Proof.Machine
end

