-- ==== Sys2Proof/Machine/Dispatch.lean ====
section
/-! DEFINITION. One arm for each command: its meaning. -/

namespace Sys2Proof.Machine

/-- A command's effect on everything but the queue. -/
def exec (i : Instr) (s : State) : Host.Outcome State Fault Refusal :=
  match i with
  | .powerOnReset auto dirsel => Sys2Proof.Machine.execPowerOnReset auto dirsel s
  | .reset auto dirsel => Sys2Proof.Machine.execReset auto dirsel s
  | .bind => Sys2Proof.Machine.execBind s
  | .listen => Sys2Proof.Machine.execListen s
  | .stop => Sys2Proof.Machine.execStop s
  | .nudge => Sys2Proof.Machine.execNudge s
  | .refusedCode value => Sys2Proof.Machine.execRefusedCode value s
  | .causeWrite value => Sys2Proof.Machine.execCauseWrite value s
  | .maskWrite value => Sys2Proof.Machine.execMaskWrite value s
  | .dirbaseWrite hi value => Sys2Proof.Machine.execDirbaseWrite hi value s
  | .ignoredRegisterWrite offset value => Sys2Proof.Machine.execIgnoredRegisterWrite offset value s
  | .directoryReadDone answer => Sys2Proof.Machine.execDirectoryReadDone answer s
  | .bindTableReadDone answer => Sys2Proof.Machine.execBindTableReadDone answer s
  | .hubFrameArrival port line => Sys2Proof.Machine.execHubFrameArrival port line s
  | .badFrameLimit hub => Sys2Proof.Machine.execBadFrameLimit hub s
  | .silenceTimerExpiry hub => Sys2Proof.Machine.execSilenceTimerExpiry hub s
  | .cfReadAnswer => Sys2Proof.Machine.execCfReadAnswer s
  | .rowFetchDone answer => Sys2Proof.Machine.execRowFetchDone answer s
  | .refineReadDone answer => Sys2Proof.Machine.execRefineReadDone answer s
  | .pollTimerExpiry => Sys2Proof.Machine.execPollTimerExpiry s
  | .orderSlotReadDone answer => Sys2Proof.Machine.execOrderSlotReadDone answer s
  | .orderSlotWriteDone ok => Sys2Proof.Machine.execOrderSlotWriteDone ok s
  | .griddefsReloadDone answer => Sys2Proof.Machine.execGriddefsReloadDone answer s
  | .stationsReloadDone answer => Sys2Proof.Machine.execStationsReloadDone answer s
  | .hubsReloadDone answer => Sys2Proof.Machine.execHubsReloadDone answer s
  | .configReloadDone answer => Sys2Proof.Machine.execConfigReloadDone answer s
  | .returnBlockReadDone answer => Sys2Proof.Machine.execReturnBlockReadDone answer s
  | .recordWriteDone ok => Sys2Proof.Machine.execRecordWriteDone ok s
  | .progressWriteDone ok => Sys2Proof.Machine.execProgressWriteDone ok s
  | .noticeCountReached stream => Sys2Proof.Machine.execNoticeCountReached stream s
  | .rawStateReadDone answer => Sys2Proof.Machine.execRawStateReadDone answer s
  | .rawHalfWriteDone ok => Sys2Proof.Machine.execRawHalfWriteDone ok s
  | .rawFullWriteDone ok => Sys2Proof.Machine.execRawFullWriteDone ok s
  | .answerLimitExpiry => Sys2Proof.Machine.execAnswerLimitExpiry s
  | .powerOnResetHold => Sys2Proof.Machine.execPowerOnResetHold s
  | .reloadReadDone answer => Sys2Proof.Machine.execReloadReadDone answer s
  | .progressBlockWordWriteDone ok => Sys2Proof.Machine.execProgressBlockWordWriteDone ok s

end Sys2Proof.Machine
end

