-- ==== Sys2Proof/Safety.lean ====
section
/-! DEFINITION. What counts as a sound state of the part: the laws of the manual that every step keeps, each as a
predicate on the part that can be evaluated. -/

namespace Sys2Proof.Machine

/-! ## The register port and the memory port -/

/-- DIRBASE is 64-byte aligned (R4). -/
abbrev Chip.dirbaseAligned (c : Chip) : Prop := c.rgp.dirbase.toNat % 64 = 0

/-- No block has a request waiting (R169). -/
abbrev Mpt.nothingWaits (m : Mpt) : Prop := m.waitRgp = [] ∧ m.waitTcu = [] ∧ m.waitOrd = [] ∧ m.waitDlv = []

/-- The bus carries an access whenever a request waits (R169), and no progress block write is left to begin: what holds
between two steps. -/
abbrev Chip.settled (c : Chip) : Prop :=
  c.dlv.progressAsked = false ∧ (c.mpt.onBus.isSome = true ∨ c.mpt.nothingWaits)

/-- The sources of the valid fault records (R172). -/
def validSources (records : List (Option FaultRecord)) : List FaultSource :=
  records.filterMap fun r => r.map FaultRecord.source

/-- A fault record holds a count from 1 to 65,535, and its kind is not WINDOW-WRITE (R168, R172). -/
def recordSound : Option FaultRecord → Bool
  | some f => decide (1 ≤ f.count) && decide (f.count ≤ 65535) && decide (f.kind ≠ .windowWrite)
  | none => true

/-- Four fault records, no two valid ones of the same source, each sound (R168, R172). -/
abbrev Mpt.faultsSound (m : Mpt) : Prop :=
  m.records.length = 4 ∧ (validSources m.records).Nodup ∧ m.records.all recordSound = true

/-! ## LKI and CHC -/

/-- A tick of a frame edge (R24, R30). -/
def onEdge (t : Nat) : Bool := t % 25 == 0

/-- Frames in the order of their first ticks, none overlapping another, all ended by a tick (R29). -/
def framesEndBy (next : Nat) : List Frame → Bool
  | [] => true
  | f :: rest =>
    decide (f.firstTick + frameTicks ≤ next) && rest.all (fun g => decide (f.firstTick + frameTicks ≤ g.firstTick))
      && framesEndBy next rest

/-- What a hub holds in each state: a DISABLED hub nothing; a SEEKING hub at most its provisional frame, the one its
marker names; a LIVE hub frames in order below its next_tick; a STALLED hub no frame. A place in time, a running silence
timer and a bad-frame count belong to LIVE and STALLED alone (R22, R23, R26, R27, R29). -/
def Hub.holdsItsState (h : Hub) : Bool :=
  (h.nextTick.isSome == h.state.placed) && (h.lastSeq.isSome == h.state.placed) && (h.silence.isSome == h.state.placed)
    && decide (h.badCount ≤ if h.state.placed then badFrameLimitCount else 0)
    && (h.state == .seeking || h.marker.isNone)
    && match h.state with
      | .disabled => h.buffer.isEmpty
      | .seeking => h.buffer.map Frame.firstTick == h.marker.toList.map Prod.fst
      | .live => framesEndBy (h.nextTick.getD 0) h.buffer
      | .stalled => h.buffer.isEmpty

/-- The ticks a hub holds are frame edges, and it holds what its state lets it hold (R22, R24, R25, R29). -/
def Hub.sound (h : Hub) : Bool :=
  h.nextTick.all onEdge && (h.marker.map Prod.fst).all onEdge && h.buffer.all (fun f => onEdge f.firstTick)
    && h.holdsItsState

/-- H is a frame edge, and with some hub LIVE it is the smallest next_tick over the LIVE hubs (R30). -/
abbrev Lki.horizonSound (l : Lki) : Prop :=
  l.hubs.all Hub.sound = true ∧ l.horizon.all onEdge = true ∧
    (l.smallestNext.isSome = true → l.horizon = l.smallestNext)

/-- The largest value of an average (R40, R49). -/
def averageMax : Nat := 16777200

/-- The values of a trigger are present while it is ON, and absent while it is OFF or BLOCKED; a peak CF is a CF (R40,
R54). -/
def Channel.triggerSound (ch : Channel) : Bool :=
  if ch.trigger = .on then
    ch.onTick.isSome && ch.peakTick.isSome && ch.peakCf.isSome && ch.peakCf.all (fun p => decide (p ≤ 254))
  else ch.onTick.isNone && ch.peakCf.isNone && ch.peakTick.isNone

/-- The averages of a channel and the floor it has captured lie in their ranges (R41, R49). -/
def Channel.averagesSound (ch : Channel) : Bool :=
  decide (ch.sta ≤ averageMax) && decide (ch.lta ≤ averageMax)
    && ch.params.all (fun p => decide (1 ≤ p.floor) && decide (p.floor ≤ 65535))

/-- A CF history is in its canonical form, over its 4096 cells (R56). -/
def Channel.historySound (ch : Channel) : Bool :=
  cellsWf absentCf ch.history && ch.history.all (fun cell => decide (cell.1 < historySize))

/-- 256 channels, each sound (R40, R49, R56). -/
abbrev Chc.sound (h : Chc) : Prop :=
  h.channels.length = 256 ∧ h.channels.all Channel.triggerSound = true ∧ h.channels.all Channel.averagesSound = true ∧
    h.channels.all Channel.historySound = true

/-! ## CCU and SCE -/

/-- At most eight requests wait (R71). -/
abbrev Ccu.queueBounded (u : Ccu) : Prop := u.queue.length ≤ queueSize

/-- The levels of the RUNNING banks. -/
def runningLevels (banks : List (Option Scan)) : List Nat :=
  banks.filterMap fun b => b.bind fun sc => if sc.running then some sc.request.level else none

/-- The levels of the PARKED banks. -/
def parkedLevels (banks : List (Option Scan)) : List Nat :=
  banks.filterMap fun b => b.bind fun sc => if sc.running then none else some sc.request.level

/-- Four banks, of distinct levels when in service, at most one of them RUNNING and that one at a higher level than every
PARKED one (R81, R82). -/
abbrev Sce.banksSound (e : Sce) : Prop :=
  e.banks.length = 4 ∧ (inServiceLevels e.banks).Nodup ∧ (runningLevels e.banks).length ≤ 1 ∧
    ∀ r ∈ runningLevels e.banks, ∀ p ∈ parkedLevels e.banks, r < p

/-! ## TCU and DLV -/

/-- The row cache holds at most 64 rows (R113). -/
abbrev Tcu.cacheBounded (t : Tcu) : Prop := t.cache.length ≤ cacheSize

/-- written − released, modulo 2^32, does not exceed the slot count (R148). -/
abbrev StreamState.sound (s : StreamState) : Prop := (s.written - s.released).toNat ≤ s.slots

/-- Both streams (R148). -/
abbrev Dlv.streamsSound (d : Dlv) : Prop := d.pick.sound ∧ d.event.sound

/-- At most eight records wait (R157). -/
abbrev Dlv.pendingBounded (d : Dlv) : Prop := d.pendingEvents.length ≤ 8

/-! ## Words of the statements -/

/-- An access is on the bus or waits for it (R169). -/
abbrev Mpt.carries (m : Mpt) (a : Access) : Prop :=
  m.onBus = some a ∨ a ∈ m.waitRgp ∨ a ∈ m.waitTcu ∨ a ∈ m.waitOrd ∨ a ∈ m.waitDlv

/-- A progress block write is in flight, and no other is to follow it, or one is to follow the write in flight (R164). -/
abbrev Dlv.showsNext (before after : Dlv) : Prop :=
  after.progress.isSome = true ∧ (before.progress.isSome = true → after.rewrite = true)

/-- The streams, the pending records and DLV's counters are as before. -/
abbrev Dlv.keepsStreams (before after : Dlv) : Prop :=
  after.pick = before.pick ∧ after.event = before.event ∧ after.pendingEvents = before.pendingEvents ∧
    after.counters = before.counters

/-- Such a write is in flight or to follow, and nothing else of DLV has changed but what the write carries (R164). -/
abbrev Dlv.onlyShows (before after : Dlv) : Prop :=
  before.showsNext after ∧ after = { before with
    progressAsked := false
    progress := after.progress
    rewrite := after.rewrite
    updateCount := after.updateCount
    faultUnshown := after.faultUnshown }

/-- A read is answered with data, or with an error. -/
def readAnswerOf : Option (List Byte) → ReadAnswer
  | some bytes => .data bytes
  | none => .error

/-- The command that presents the answer to the access on the bus, by what the access is for (R170): data or none for a
read, without error or with one for a write. -/
def answerTo (p : Purpose) (result : Option (List Byte)) : Instr :=
  match p with
  | .directory => .directoryReadDone (readAnswerOf result)
  | .bindSettings => .bindTableReadDone (readAnswerOf result)
  | .bindGrid _ => .bindTableReadDone (readAnswerOf result)
  | .bindHub _ => .bindTableReadDone (readAnswerOf result)
  | .bindStation _ => .bindTableReadDone (readAnswerOf result)
  | .row _ _ => .rowFetchDone (readAnswerOf result)
  | .refine _ _ => .refineReadDone (readAnswerOf result)
  | .reloadGrid _ last => if last then .griddefsReloadDone (readAnswerOf result) else .reloadReadDone (readAnswerOf result)
  | .reloadStation _ last =>
    if last then .stationsReloadDone (readAnswerOf result) else .reloadReadDone (readAnswerOf result)
  | .reloadHub _ last => if last then .hubsReloadDone (readAnswerOf result) else .reloadReadDone (readAnswerOf result)
  | .reloadConfig => .configReloadDone (readAnswerOf result)
  | .slotRead _ => .orderSlotReadDone (readAnswerOf result)
  | .slotResult _ => .orderSlotWriteDone result.isSome
  | .slotState _ _ => .orderSlotWriteDone result.isSome
  | .returnBlock => .returnBlockReadDone (readAnswerOf result)
  | .record _ => .recordWriteDone result.isSome
  | .progressFirst => .progressBlockWordWriteDone result.isSome
  | .progressMiddle => .progressBlockWordWriteDone result.isSome
  | .progressLast => .progressWriteDone result.isSome
  | .rawState _ => .rawStateReadDone (readAnswerOf result)
  | .rawHeader _ => .rawHalfWriteDone result.isSome
  | .rawTick _ _ => .rawHalfWriteDone result.isSome
  | .rawFull _ => .rawFullWriteDone result.isSome

/-- The data a command carries, when it is the answer to a read and carries some. -/
def answerData : Instr → Option (List Byte)
  | .directoryReadDone (.data b) => some b
  | .bindTableReadDone (.data b) => some b
  | .rowFetchDone (.data b) => some b
  | .refineReadDone (.data b) => some b
  | .orderSlotReadDone (.data b) => some b
  | .griddefsReloadDone (.data b) => some b
  | .stationsReloadDone (.data b) => some b
  | .hubsReloadDone (.data b) => some b
  | .configReloadDone (.data b) => some b
  | .returnBlockReadDone (.data b) => some b
  | .rawStateReadDone (.data b) => some b
  | .reloadReadDone (.data b) => some b
  | _ => none

/-- The part with one hub put in its place. -/
def Chip.withHub (n : Nat) (h : Hub) (c : Chip) : Chip := { c with lki := { c.lki with hubs := c.lki.hubs.set n h } }

/-- The part with one bank put in its place. -/
def Chip.withBank (n : Nat) (b : Option Scan) (c : Chip) : Chip :=
  { c with sce := { c.sce with banks := c.sce.banks.set n b } }

/-- The scan is the only one in service, and no request waits (R81). -/
abbrev Chip.aloneInService (c : Chip) (bank : Nat) (sc : Scan) : Prop :=
  c.sce.banks = (List.replicate c.sce.banks.length none).set bank (some sc) ∧ c.ccu.queue = []

/-- DLV has received an outcome: it is counted, and either counted unreported, or, with no record waiting and room in the
event stream, given the next sequence and written at the next slot (R155, R156). -/
abbrev Chip.delivers (c : Chip) (o : EventOutcome) (d : Chip) : Prop :=
  let counted := c.dlv.counters.countOutcome o.outcome
  if unreportedKind (reportWeakInForce c) o.outcome = true then
    d.dlv.counters = { counted with unreported := countUp counted.unreported } ∧ d.dlv.event = c.dlv.event
  else
    c.dlv.pendingEvents = [] → c.dlv.event.hasRoom = true →
      let seq := if c.dlv.event.sequence.toNat = 4294967295 then 1 else c.dlv.event.sequence + 1
      d.dlv.counters = counted ∧
        d.dlv.event = { c.dlv.event with sequence := seq, written := c.dlv.event.written + 1 } ∧
        d.mpt.carries (writeAccess (.record .event)
          (c.layout.events + (c.dlv.event.written.toNat % c.dlv.event.slots) * 256) (eventBytes ⟨seq, .scan o⟩))

/-- The only scan in service has finished: its bank is FREE, CCU's target no longer names it, and DLV has received its
outcome (R101, R102). -/
abbrev Chip.finishes (c : Chip) (sc : Scan) (o : ScanOutcome) (arrivals : List Arrival) (d : Chip) : Prop :=
  d.sce = { c.sce with banks := List.replicate c.sce.banks.length none } ∧
    d.ccu = { c.ccu with
      target := if c.ccu.target.map CollapseTarget.number = some sc.request.number then none else c.ccu.target } ∧
    c.delivers (scanOutcome sc o arrivals) d ∧ d.lki = c.lki ∧ d.chc = c.chc

/-- The event sequence DLV assigns to a record of coherence 0, and 0 when it drops the record (R156, R157). -/
def Dlv.sequenceGiven (d : Dlv) : Nat :=
  if d.pendingEvents.length < 8 then
    if d.event.sequence.toNat = 4294967295 then 1 else (d.event.sequence + 1).toNat
  else 0

/-! ## What an order leaves of its slot (R129, R130, R133, R143) -/

/-- ORD has written a slot: the two accesses wait behind those before them, and a take run notes the slot. -/
def Chip.slotWritten (c : Chip) (slot : Nat) (seq : BitVec 8) (done : Bool) (r : SlotResult) (listed : List OpenOrder) :
    Chip :=
  { c with
    mpt := { c.mpt with waitOrd := c.mpt.waitOrd ++ slotAccesses c.layout slot seq done r }
    ord := { c.ord with openOrders := listed, takeRun := c.ord.takeRun.map (slot :: ·) } }

/-- The part after a slot is written DONE with a result: the slot is off the open-order list, and outside a take run
DLV is asked for a progress block write, in BOUND, LISTENING and STOPPING. -/
def Chip.slotDone (c : Chip) (slot : Nat) (seq : BitVec 8) (r : SlotResult) : Chip :=
  let d := c.slotWritten slot seq true r (c.ord.openOrders.filter fun e => e.slot != slot)
  { d with dlv := if c.ord.takeRun.isNone && c.active then c.dlv.ask else c.dlv }

/-- The part after a slot is written TAKEN with a first result word: the slot is on the open-order list. -/
def Chip.slotTaken (c : Chip) (slot : Nat) (seq : BitVec 8) (kind : OpenKind) (word1 : Nat) : Chip :=
  c.slotWritten slot seq false ⟨0, word1, 0, 0⟩ (c.ord.openOrders ++ [⟨slot, seq, kind⟩])

/-- The part after TCU's report of an INVALIDATE order during a poll: its slot is DONE, and where the order set the
drain-pending marker that is cleared and the poll is to be repeated (R138, R139). -/
def Chip.slotReported (c : Chip) (o : InvalOrder) (r : SlotResult) : Chip :=
  if c.ord.drainPending = some (o.slot, o.seq) then
    let d := { c with ord := { c.ord with drainPending := none } }.slotDone o.slot o.seq r
    { d with ord := { d.ord with repeatMark := true } }
  else c.slotDone o.slot o.seq r

/-- The slots ORD may take next, by rising index, with what the poll read of them: POSTED with the expected sequence, not
on the open-order list, and not written in this run (R133, step 1). -/
def Orders.takeables (o : Orders) (slots : List (Option (List Byte))) : List (Nat × List Byte) :=
  (numbered 0 slots).filterMap fun e => e.2.bind fun b =>
    if byteAt b 0 = 1 ∧ BitVec.ofNat 8 (byteAt b 1) = o.expected ∧ (∀ k ∈ o.openOrders, k.slot ≠ e.1) ∧
        e.1 ∉ o.takeRun.getD [] then some (e.1, b)
    else none

/-- The seal of a slot is the complement of its sequence (R128). -/
abbrev sealFits (b : List Byte) : Prop := BitVec.ofNat 8 (byteAt b 0x3C) = ~~~ (BitVec.ofNat 8 (byteAt b 1))

/-- A slot holds a drained INVALIDATE of a row scope, which sets the drain-pending marker (R138). -/
abbrev drainsRows (b : List Byte) : Prop :=
  sealFits b ∧ byteAt b 4 = 2 ∧ byteAt b 9 ≠ 0 ∧ 1 ≤ byteAt b 8 ∧ byteAt b 8 ≤ 4

/-- A cause bit is set (R5). -/
abbrev Chip.raised (c : Chip) (bit : Nat) : Prop := c.rgp.cause.getLsbD bit = true

/-- How a binding that fails leaves the part: the result in STATUS, UNBOUND, the STATE cause, no windows, no tables and no
streams, and every channel as it was at the start of the binding (R8, R13, R61). -/
abbrev Chip.bindFailed (c : Chip) (result : BindResult) : Prop :=
  c.rgp.partState = .unbound ∧ c.rgp.bindResult = result ∧ c.rgp.binding = none ∧ c.raised causeState ∧
    c.mpt.windows = none ∧ c.chc = Chc.atReset ∧ c.tcu = Tcu.atReset ∧ c.dlv.pick = StreamState.atReset ∧
    c.dlv.event = StreamState.atReset

/-! ## Commands that end what came before -/

/-- The commands that make H unset: the resets, and BIND (R30). -/
def startsOver : Instr → Bool
  | .powerOnReset _ _ => true
  | .reset _ _ => true
  | .powerOnResetHold => true
  | .bind => true
  | _ => false

end Sys2Proof.Machine
end

