-- ==== Sys2Proof/Certificates/Slice0/Obligations.lean ====
section
/-! DEFINITION. The statements for the provers: what the commands and the machine do, by the numbered rules. -/

section

open Sys2Proof Sys2Proof.Machine

/-! ## The step -/

/-- For every command i, queue rest and part c, step of the state with i in front is exec of i with the rest. On an
empty queue the step leaves the state as it is: that clause is the model's choice (log entry 3). -/
def Obligations.StepRunsFrontCommand : Prop :=
  (∀ (i : Instr) (rest : List Instr) (c : Chip), step ⟨c, i :: rest⟩ = exec i ⟨c, rest⟩) ∧
    ∀ c : Chip, step ⟨c, []⟩ = .next ⟨c, []⟩

/-- After the end of a step no progress block write is left to begin and the bus carries an access if any request
waits. It changes no other block, no window, no fault record, and in DLV only the progress block write: whether one is
asked for, the write in flight, the update count and the mark of a fault not yet shown. A settled part is left as it
is. A command leaves the queue behind it as it is. R169 and R164 give the grant and the write; that both are made at
the end of the command is the model's choice (log entries 11 and 15). -/
def Obligations.EndOfStepGrantsTheBus : Prop :=
  (∀ c : Chip,
    (concludeStep c).settled ∧ (c.settled → concludeStep c = c) ∧
      (concludeStep c).rgp = c.rgp ∧ (concludeStep c).lki = c.lki ∧ (concludeStep c).chc = c.chc ∧
      (concludeStep c).ccu = c.ccu ∧ (concludeStep c).sce = c.sce ∧ (concludeStep c).tcu = c.tcu ∧
      (concludeStep c).ord = c.ord ∧ (concludeStep c).mpt.windows = c.mpt.windows ∧
      (concludeStep c).mpt.records = c.mpt.records ∧ (concludeStep c).mpt.overflow = c.mpt.overflow ∧
      (∀ a, c.mpt.carries a → (concludeStep c).mpt.carries a) ∧
      (concludeStep c).dlv = { c.dlv with
        progressAsked := false
        progress := (concludeStep c).dlv.progress
        updateCount := (concludeStep c).dlv.updateCount
        faultUnshown := (concludeStep c).dlv.faultUnshown }) ∧
    ∀ (i : Instr) (c : Chip) (q : List Instr) (t : State), exec i ⟨c, q⟩ = .next t → t.pending = q

/-- A command that is well formed, and whose data, if it carries any, is as long as the access on the bus, answers a
next state in every state. A fault is answered only for data of another length than the access on the bus, and a
refusal only for a command that is not well formed (both stops are the model's choice, log entry 6). (R6, R169,
R170) -/
def Obligations.EveryCommandCompletes : Prop :=
  ∀ (i : Instr) (s : State),
    (wellFormed i = true →
      (∀ a b, s.chip.mpt.onBus = some a → answerData i = some b → b.length = a.len) → ∃ t, exec i s = .next t) ∧
    (∀ r, exec i s = .fault r →
      r = .answerLength ∧ ∃ a b, s.chip.mpt.onBus = some a ∧ answerData i = some b ∧ b.length ≠ a.len) ∧
    ∀ r, exec i s = .refused r → r = .operandOfAnotherRow ∧ wellFormed i = false

/-! ## The register port -/

/-- For every state of RGP a read of ID gives 0x02564C01 and a read of an offset from 0x1C gives 0; a write to ID, to
STATUS or to an offset from 0x1C answers the same state. A read of STATUS shows, with the codes of the manual, the part
state in bits 2 to 0, the bind result in bits 6 to 4, the halt source in bits 9 and 8, AUTO in bit 12 and DIRSEL in
bits 14 and 13; its other bits read 0 (these fields and codes are those of R7, R178 and R179). (R3) -/
def Obligations.IdentificationAndIgnoredOffsets : Prop :=
  (∀ r : Rgp, r.readRegister 0x00 = 0x02564C01) ∧
    (∀ (r : Rgp) (off : BitVec 5), 0x1C ≤ off.toNat → r.readRegister off = 0) ∧
    (∀ (off : BitVec 5) (v : Word32) (s : State), off = 0x00 ∨ off = 0x08 ∨ 0x1C ≤ off.toNat →
      exec (.ignoredRegisterWrite off v) s = .next s) ∧
    ∀ r : Rgp,
      (r.readRegister 0x08).extractLsb' 0 3 =
        (match r.partState with
          | .unbound => 0 | .binding => 1 | .bound => 2 | .listening => 3 | .stopping => 4 | .faulted => 5) ∧
      (r.readRegister 0x08).extractLsb' 4 3 =
        (match r.bindResult with
          | .none => 0 | .ok => 1 | .badSignature => 2 | .badVersion => 3 | .badWindow => 4 | .badLayout => 5
          | .badConfig => 6 | .readFault => 7) ∧
      (r.readRegister 0x08).extractLsb' 8 2 =
        (match r.haltSource with | .none => 0 | .progress => 1 | .orders => 2) ∧
      (r.readRegister 0x08).getLsbD 12 = r.autoStrap ∧
      (r.readRegister 0x08).extractLsb' 13 2 = r.dirselStrap ∧
      ∀ b : Nat, b = 3 ∨ b = 7 ∨ b = 10 ∨ b = 11 ∨ 15 ≤ b → (r.readRegister 0x08).getLsbD b = false

/-- A write to CAUSE clears exactly the bits written as 1, a write to MASK replaces all eight, and nothing else
changes. The line is asserted exactly while some bit is set in both. A block sets its bit whatever the mask. Bits
beyond the eight read 0. A reset sets both registers to 0. A BIND leaves MASK, and every bit of CAUSE but STATE, as
they are. (R5) -/
def Obligations.InterruptRegisters : Prop :=
  (∀ (c : Chip) (q : List Instr) (v : Word32), c.settled → c.rgp.resetHeld = false →
    (∃ d, exec (.causeWrite v) ⟨c, q⟩ = .next ⟨d, q⟩ ∧
      (∀ b < 8, d.rgp.cause.getLsbD b = (c.rgp.cause.getLsbD b && !v.getLsbD b)) ∧
      d = { c with rgp := { c.rgp with cause := d.rgp.cause } }) ∧
    ∃ d, exec (.maskWrite v) ⟨c, q⟩ = .next ⟨d, q⟩ ∧ (∀ b < 8, d.rgp.mask.getLsbD b = v.getLsbD b) ∧
      d = { c with rgp := { c.rgp with mask := d.rgp.mask } }) ∧
    (∀ r : Rgp, r.irq = true ↔ ∃ b < 8, r.cause.getLsbD b = true ∧ r.mask.getLsbD b = true) ∧
    (∀ (bit : Nat) (r : Rgp), bit < 8 →
      (∀ b < 8, (r.setCause bit).cause.getLsbD b = (r.cause.getLsbD b || b == bit)) ∧
      r.setCause bit = { r with cause := (r.setCause bit).cause }) ∧
    (∀ (r : Rgp) (b : Nat),
      (r.readRegister 0x14).getLsbD b = (decide (b < 8) && r.cause.getLsbD b) ∧
      (r.readRegister 0x18).getLsbD b = (decide (b < 8) && r.mask.getLsbD b)) ∧
    (State.reset.chip.rgp.cause = 0 ∧ State.reset.chip.rgp.mask = 0) ∧
    (∀ (auto : Bool) (dirsel : BitVec 2) (c : Chip) (q : List Instr),
      ∃ d, exec (.powerOnReset auto dirsel) ⟨c, q⟩ = .next ⟨d, q⟩ ∧ d.rgp.cause = 0 ∧ d.rgp.mask = 0 ∧
        d.rgp.irq = false) ∧
    (∀ (i : Instr) (c : Chip) (q : List Instr),
      (∃ auto dirsel, i = .reset auto dirsel ∧ c.rgp.resetHeld = false) ∨ i = .powerOnResetHold →
      ∃ d, exec i ⟨c, q⟩ = .next ⟨d, q⟩ ∧ d.rgp.cause = 0 ∧ d.rgp.mask = 0 ∧ d.rgp.irq = false) ∧
    ∀ (c : Chip) (q : List Instr), c.rgp.resetHeld = false → bindValid c = true →
      ∃ d, exec .bind ⟨c, q⟩ = .next ⟨d, q⟩ ∧ d.rgp.mask = c.rgp.mask ∧
        ∀ b < 8, b ≠ causeState → d.rgp.cause.getLsbD b = c.rgp.cause.getLsbD b

/-- In UNBOUND, BOUND and FAULTED a write of DIRBASE_HI replaces bits 39 to 32 and a write of DIRBASE_LO replaces
bits 31 to 6 and leaves 0 in bits 5 to 0; nothing else changes, the acceptance included. In the other states the
write changes nothing. The two reads show the value. A reset gives 0, or DIRSEL times 0x1000000 with AUTO. A binding
reads its directory there: that the read is one of 256 bytes and that a BIND puts it on the bus in the same step,
whatever access was there, are the model's choice (log entries 11, 13 and 14). Every step keeps DIRBASE 64-byte
aligned. (R4, R17) -/
def Obligations.DirectoryBaseRegister : Prop :=
  (∀ (c : Chip) (q : List Instr) (hi : Bool) (v : Word32), c.settled → c.rgp.resetHeld = false →
    (c.rgp.partState = .unbound ∨ c.rgp.partState = .bound ∨ c.rgp.partState = .faulted →
      ∃ d, exec (.dirbaseWrite hi v) ⟨c, q⟩ = .next ⟨d, q⟩ ∧
        (∀ b < 40, d.rgp.dirbase.getLsbD b =
          if hi = true then (if b < 32 then c.rgp.dirbase.getLsbD b else v.getLsbD (b - 32))
          else if b < 32 then decide (6 ≤ b) && v.getLsbD b else c.rgp.dirbase.getLsbD b) ∧
        d = { c with rgp := { c.rgp with dirbase := d.rgp.dirbase } }) ∧
    (c.rgp.partState = .binding ∨ c.rgp.partState = .listening ∨ c.rgp.partState = .stopping →
      exec (.dirbaseWrite hi v) ⟨c, q⟩ = .next ⟨c, q⟩)) ∧
    (∀ (r : Rgp) (b : Nat),
      (r.readRegister 0x0C).getLsbD b = (decide (b < 32) && r.dirbase.getLsbD b) ∧
      (r.readRegister 0x10).getLsbD b = (decide (b < 8) && r.dirbase.getLsbD (b + 32))) ∧
    (∀ (auto : Bool) (dirsel : BitVec 2) (c : Chip) (q : List Instr),
      ∃ d, exec (.powerOnReset auto dirsel) ⟨c, q⟩ = .next ⟨d, q⟩ ∧
        d.rgp.dirbase.toNat = if auto = true then dirsel.toNat * 0x1000000 else 0) ∧
    (∀ (c : Chip) (q : List Instr), c.rgp.resetHeld = false → bindValid c = true →
      ∃ d, exec .bind ⟨c, q⟩ = .next ⟨d, q⟩ ∧ d.rgp.dirbase = c.rgp.dirbase ∧
        d.mpt.onBus = some (readAccess .directory c.rgp.dirbase.toNat 256)) ∧
    ∀ (i : Instr) (c d : Chip) (q r : List Instr), c.dirbaseAligned → exec i ⟨c, q⟩ = .next ⟨d, r⟩ → d.dirbaseAligned

/-- While the reset pin is not held: a value that is none of the five codes shows its low eight bits and REFUSED-
CODE; BIND, LISTEN, STOP and NUDGE show their codes with ACCEPTED in the states of the table and REFUSED-STATE in
the others; an accepted RESET leaves last code 0 and NONE. In a settled part a refused write changes the last code
and the acceptance alone. (R6, R14, R15) -/
def Obligations.ControlAcceptsByPartState : Prop :=
  (∀ (c : Chip) (q : List Instr), c.rgp.resetHeld = false →
    (∀ v : Word32, commandCodes.contains v = false →
      ∃ d, exec (.refusedCode v) ⟨c, q⟩ = .next ⟨d, q⟩ ∧ d.rgp.lastCode = v.setWidth 8 ∧
        d.rgp.acceptance = .refusedCode) ∧
    (∃ d, exec .bind ⟨c, q⟩ = .next ⟨d, q⟩ ∧ d.rgp.lastCode = 1 ∧
      d.rgp.acceptance =
        if c.rgp.partState = .unbound ∨ c.rgp.partState = .faulted ∨
          (c.rgp.partState = .bound ∧ c.dlv.pendingEvents = []) then .accepted else .refusedState) ∧
    (∃ d, exec .listen ⟨c, q⟩ = .next ⟨d, q⟩ ∧ d.rgp.lastCode = 2 ∧
      d.rgp.acceptance = if c.rgp.partState = .bound then .accepted else .refusedState) ∧
    (∃ d, exec .stop ⟨c, q⟩ = .next ⟨d, q⟩ ∧ d.rgp.lastCode = 3 ∧
      d.rgp.acceptance = if c.rgp.partState = .listening then .accepted else .refusedState) ∧
    (∃ d, exec .nudge ⟨c, q⟩ = .next ⟨d, q⟩ ∧ d.rgp.lastCode = 4 ∧
      d.rgp.acceptance =
        if c.rgp.partState = .bound ∨ c.rgp.partState = .listening ∨ c.rgp.partState = .stopping then .accepted
        else .refusedState) ∧
    ∀ (auto : Bool) (dirsel : BitVec 2),
      ∃ d, exec (.reset auto dirsel) ⟨c, q⟩ = .next ⟨d, q⟩ ∧ d.rgp.lastCode = 0 ∧ d.rgp.acceptance = .none) ∧
  (∀ (c : Chip) (q : List Instr), c.settled → c.rgp.resetHeld = false →
    (∀ v : Word32, commandCodes.contains v = false →
      exec (.refusedCode v) ⟨c, q⟩ =
        .next ⟨{ c with rgp := { c.rgp with lastCode := v.setWidth 8, acceptance := .refusedCode } }, q⟩) ∧
    (c.rgp.partState = .binding ∨ c.rgp.partState = .listening ∨ c.rgp.partState = .stopping ∨
        (c.rgp.partState = .bound ∧ c.dlv.pendingEvents ≠ []) →
      exec .bind ⟨c, q⟩ = .next ⟨{ c with rgp := { c.rgp with lastCode := 1, acceptance := .refusedState } }, q⟩) ∧
    (c.rgp.partState ≠ .bound →
      exec .listen ⟨c, q⟩ = .next ⟨{ c with rgp := { c.rgp with lastCode := 2, acceptance := .refusedState } }, q⟩) ∧
    (c.rgp.partState ≠ .listening →
      exec .stop ⟨c, q⟩ = .next ⟨{ c with rgp := { c.rgp with lastCode := 3, acceptance := .refusedState } }, q⟩) ∧
    (c.rgp.partState = .unbound ∨ c.rgp.partState = .binding ∨ c.rgp.partState = .faulted →
      exec .nudge ⟨c, q⟩ = .next ⟨{ c with rgp := { c.rgp with lastCode := 4, acceptance := .refusedState } }, q⟩))

/-- POWER_ON_RESET_HOLD takes every block to its reset state, and CONTROL, DIRBASE, CAUSE and MASK read 0 (that
STATUS goes on showing the straps latched before, and that DIRBASE reads 0, are the model's choice, log entry 7).
While the pin is held, in a settled part, every register write, RESET included, leaves the state as it is. (R17) -/
def Obligations.ResetPinHold : Prop :=
  (∀ (c : Chip) (q : List Instr),
    ∃ d, exec .powerOnResetHold ⟨c, q⟩ = .next ⟨d, q⟩ ∧ d.rgp.resetHeld = true ∧
      d.rgp.partState = .unbound ∧ d.rgp.bindResult = .none ∧ d.rgp.haltSource = .none ∧ d.rgp.irq = false ∧
      d.rgp.readRegister 0x04 = 0 ∧ d.rgp.readRegister 0x0C = 0 ∧ d.rgp.readRegister 0x10 = 0 ∧
      d.rgp.readRegister 0x14 = 0 ∧ d.rgp.readRegister 0x18 = 0 ∧ d.rgp.binding = none ∧ d.rgp.layout = none ∧
      d.mpt = Mpt.atReset ∧ d.lki = Lki.atReset ∧ d.chc = Chc.atReset ∧ d.ccu = Ccu.atReset ∧
      d.sce = Sce.atReset ∧ d.tcu = Tcu.atReset ∧ d.ord = Orders.atReset ∧ d.dlv = Dlv.atReset) ∧
    ∀ (c : Chip) (q : List Instr), c.settled → c.rgp.resetHeld = true →
      (∀ auto dirsel, exec (.reset auto dirsel) ⟨c, q⟩ = .next ⟨c, q⟩) ∧
      exec .bind ⟨c, q⟩ = .next ⟨c, q⟩ ∧ exec .listen ⟨c, q⟩ = .next ⟨c, q⟩ ∧ exec .stop ⟨c, q⟩ = .next ⟨c, q⟩ ∧
      exec .nudge ⟨c, q⟩ = .next ⟨c, q⟩ ∧
      ∀ v : Word32,
        (commandCodes.contains v = false → exec (.refusedCode v) ⟨c, q⟩ = .next ⟨c, q⟩) ∧
        exec (.causeWrite v) ⟨c, q⟩ = .next ⟨c, q⟩ ∧ exec (.maskWrite v) ⟨c, q⟩ = .next ⟨c, q⟩ ∧
        ∀ hi, exec (.dirbaseWrite hi v) ⟨c, q⟩ = .next ⟨c, q⟩

/-- For POWER_ON_RESET in every state, and for RESET while the pin is not held: the straps are latched, the
registers hold their reset values, every block is in its reset state; with AUTO 0 the part is UNBOUND with nothing
on the bus, with AUTO 1 it is BINDING with the directory read at DIRSEL times 0x1000000 on the bus. That this is one
read of 256 bytes, on the bus at the end of the command, is the model's choice (log entries 11 and 13). (R17, R9,
R176) -/
def Obligations.ResetReleaseLatchesTheStraps : Prop :=
  ∀ (auto : Bool) (dirsel : BitVec 2) (i : Instr) (c : Chip) (q : List Instr),
    i = .powerOnReset auto dirsel ∨ (i = .reset auto dirsel ∧ c.rgp.resetHeld = false) →
    ∃ d, exec i ⟨c, q⟩ = .next ⟨d, q⟩ ∧ d.rgp.autoStrap = auto ∧ d.rgp.dirselStrap = dirsel ∧
      d.rgp.resetHeld = false ∧ d.rgp.controlWord = 0 ∧ d.rgp.cause = 0 ∧ d.rgp.mask = 0 ∧ d.rgp.irq = false ∧
      d.rgp.bindResult = .none ∧ d.rgp.haltSource = .none ∧
      d.rgp.dirbase.toNat = (if auto = true then dirsel.toNat * 0x1000000 else 0) ∧
      d.mpt.windows = none ∧ d.mpt.records = List.replicate 4 none ∧ d.mpt.overflow = 0 ∧ d.mpt.nothingWaits ∧
      d.lki = Lki.atReset ∧ d.chc = Chc.atReset ∧ d.ccu = Ccu.atReset ∧ d.sce = Sce.atReset ∧ d.tcu = Tcu.atReset ∧
      d.ord = Orders.atReset ∧ d.dlv = Dlv.atReset ∧
      (auto = false → d.rgp.partState = .unbound ∧ d.mpt.onBus = none) ∧
      (auto = true → d.rgp.partState = .binding ∧
        d.mpt.onBus = some (readAccess .directory (dirsel.toNat * 0x1000000) 256))

/-- In UNBOUND, FAULTED, or BOUND with no pending record, and with the reset pin not held, BIND takes the part to
BINDING, sets STATE, sets bind result and halt source to NONE, keeps DIRBASE, MASK and the straps, takes every other
block to its bind state, and puts the directory read on the bus. That the read is one of 256 bytes, and takes the bus in
the same step from an access that BOUND or FAULTED had there, is the model's choice (log entries 11, 13 and 14). (R9,
R10, R176, R39, R61, R78, R106, R127, R145, R166) -/
def Obligations.BindClearsThePart : Prop :=
  ∀ (c : Chip) (q : List Instr), c.rgp.resetHeld = false →
    c.rgp.partState = .unbound ∨ c.rgp.partState = .faulted ∨
      (c.rgp.partState = .bound ∧ c.dlv.pendingEvents = []) →
    ∃ d, exec .bind ⟨c, q⟩ = .next ⟨d, q⟩ ∧ d.rgp.partState = .binding ∧ d.rgp.bindResult = .none ∧
      d.rgp.haltSource = .none ∧ d.rgp.cause = c.rgp.cause ||| 0x40 ∧ d.rgp.mask = c.rgp.mask ∧
      d.rgp.dirbase = c.rgp.dirbase ∧ d.rgp.autoStrap = c.rgp.autoStrap ∧ d.rgp.dirselStrap = c.rgp.dirselStrap ∧
      d.rgp.lastCode = 1 ∧ d.rgp.acceptance = .accepted ∧ d.rgp.layout = none ∧
      d.mpt.windows = none ∧ d.mpt.records = List.replicate 4 none ∧ d.mpt.overflow = 0 ∧ d.mpt.nothingWaits ∧
      d.mpt.onBus = some (readAccess .directory c.rgp.dirbase.toNat 256) ∧
      d.lki = Lki.atReset ∧ d.chc = Chc.atReset ∧ d.ccu = Ccu.atReset ∧ d.sce = Sce.atReset ∧ d.tcu = Tcu.atReset ∧
      d.ord = Orders.atReset ∧ d.dlv = Dlv.atReset

/-- In BOUND with the pin not held, LISTEN enters LISTENING and sets STATE. Each DISABLED hub whose entry enables it
becomes SEEKING with an empty buffer and no marker, and every other hub is unchanged. H, CHC, SCE, TCU and ORD are
unchanged, and CCU but for its previous count, which becomes 0. CONTROL shows the command accepted. LINK is set if some
hub has changed state; no other bit of CAUSE and no other register changes, the straps included. A progress block write
is in flight afterwards; DLV is unchanged but for that write, and MPT but for the accesses it carries. (R14, R22, R62,
R8, R38, R164) -/
def Obligations.ListenSeeksTheEnabledHubs : Prop :=
  ∀ (c : Chip) (q : List Instr), c.rgp.resetHeld = false → c.rgp.partState = .bound →
    c.lki.hubs.length = 16 → c.tcu.hubEntries.length = 16 →
    ∃ d, exec .listen ⟨c, q⟩ = .next ⟨d, q⟩ ∧
      d.rgp = { c.rgp with
        partState := .listening
        lastCode := 2
        acceptance := .accepted
        cause := d.rgp.cause } ∧
      (∀ b < 8, d.rgp.cause.getLsbD b = (c.rgp.cause.getLsbD b || b == causeState ||
        (b == causeLink && decide (d.lki.hubs.map Hub.state ≠ c.lki.hubs.map Hub.state)))) ∧
      (∀ (n : Nat) (h : Hub) (e : Option HubEntry), c.lki.hubs[n]? = some h → c.tcu.hubEntries[n]? = some e →
        d.lki.hubs[n]? = some
          (if hubEnabled e = true ∧ h.state = .disabled then { h with state := .seeking, buffer := [], marker := none }
            else h)) ∧
      d.lki.horizon = c.lki.horizon ∧ d.ccu = { c.ccu with prevCount := 0 } ∧ d.chc = c.chc ∧ d.sce = c.sce ∧
      d.tcu = c.tcu ∧ d.ord = c.ord ∧ d.mpt.windows = c.mpt.windows ∧ d.mpt.records = c.mpt.records ∧
      d.mpt.overflow = c.mpt.overflow ∧ c.dlv.showsNext d.dlv ∧
      d.dlv = { c.dlv with
        progressAsked := false
        progress := d.dlv.progress
        rewrite := d.dlv.rewrite
        updateCount := d.dlv.updateCount
        faultUnshown := d.dlv.faultUnshown }

/-- In LISTENING with the pin not held, STOP disables every hub (buffer, place in time and silence timer dropped;
counters and actual lane count kept), leaves H, CHC, the banks and the tables as they are, empties the scan queue,
counts one STOPPED outcome for each waiting request, keeps the request counter and the previous count, and enters
STOPPING with a context in service and BOUND with none. The collapse target is kept unless it waits, and then becomes
none, as R66 and R75 have it against R62 and R77: that reading is the model's (log entry 27). (R15, R22, R77, R75, R66,
R155) -/
def Obligations.StopHaltsDetection : Prop :=
  ∀ (c : Chip) (q : List Instr), c.rgp.resetHeld = false → c.rgp.partState = .listening →
    ∃ d, exec .stop ⟨c, q⟩ = .next ⟨d, q⟩ ∧
      d.rgp.partState = (if c.sce.banks.any Option.isSome = true then .stopping else .bound) ∧ d.raised causeState ∧
      (∀ (n : Nat) (h : Hub), c.lki.hubs[n]? = some h →
        d.lki.hubs[n]? = some ⟨.disabled, [], none, none, none, none, 0, h.actualLanes, h.counters⟩) ∧
      d.lki.horizon = c.lki.horizon ∧ d.ccu.queue = [] ∧ d.ccu.requestCounter = c.ccu.requestCounter ∧
      d.ccu.prevCount = c.ccu.prevCount ∧
      d.ccu.target =
        (if (c.ccu.queue.any fun r => decide (c.ccu.target.map CollapseTarget.number = some r.number)) = true then none
        else c.ccu.target) ∧
      d.sce = c.sce ∧ d.chc = c.chc ∧ d.tcu = c.tcu ∧
      d.ord.expected = c.ord.expected ∧ d.mpt.windows = c.mpt.windows ∧ d.mpt.records = c.mpt.records ∧
      d.dlv.counters.stopped = addCount c.dlv.counters.stopped c.ccu.queue.length ∧ d.dlv.progress.isSome = true

/-- In BOUND, LISTENING and STOPPING with the pin not held, NUDGE leaves a return block read in flight. With no poll in
progress and no drain pending it begins a poll, which is counted and requests the 32 slot reads; with a poll in
progress it sets the repeat mark; with a drain pending the poll it begins reads no slot, is not counted and ends at
once. DLV's reread mark is set when a read was in flight already, and whenever no poll was in progress, a drain pending
or not: the start of the poll and NUDGE are then two occasions for the read. Nothing else changes but CONTROL, the
accesses that MPT carries and, where a progress block write was to begin, that write. That a poll is counted when its
slot reads are requested and that NUDGE is two occasions are the model's reading (log entry 16), and that the 32 reads
are requested together is its choice (log entry 29). (R14, R131, R132, R139, R151) -/
def Obligations.NudgePollsAndReadsTheReturnBlock : Prop :=
  ∀ (c : Chip) (q : List Instr), c.rgp.resetHeld = false → c.active = true →
    ∃ d, exec .nudge ⟨c, q⟩ = .next ⟨d, q⟩ ∧ d.rgp = { c.rgp with lastCode := 4, acceptance := .accepted } ∧
      d.dlv.returnRead = true ∧
      (c.ord.poll = none → c.ord.drainPending = none →
        d.ord = { c.ord with poll := some [], polls := countUp c.ord.polls } ∧
        ∀ k < 32, d.mpt.carries (readAccess (.slotRead k) (c.layout.orders + 64 * k) 64)) ∧
      (c.ord.poll.isSome = true → d.ord = { c.ord with repeatMark := true }) ∧
      (c.ord.poll = none → c.ord.drainPending.isSome = true → d.ord = c.ord) ∧
      (c.dlv.returnRead = false → d.mpt.carries (readAccess .returnBlock c.layout.returnBlock 64)) ∧
      d.lki = c.lki ∧ d.chc = c.chc ∧ d.ccu = c.ccu ∧ d.sce = c.sce ∧ d.tcu = c.tcu ∧
      d.mpt.windows = c.mpt.windows ∧ d.mpt.records = c.mpt.records ∧ d.mpt.overflow = c.mpt.overflow ∧
      (let reread := c.dlv.reread || c.dlv.returnRead || c.ord.poll.isNone
       d.dlv = { c.dlv with
        returnRead := true
        reread := reread
        progressAsked := false
        progress := d.dlv.progress
        updateCount := d.dlv.updateCount
        faultUnshown := d.dlv.faultUnshown } ∧
       (c.dlv.progressAsked = false → d.dlv = { c.dlv with returnRead := true, reread := reread }))

/-! ## Binding -/

/-- When the directory read is answered with its 256 bytes in a part that is not FAULTED: a wrong signature, a wrong
version, an invalid window and an invalid layout end the binding with their results, in that order, every channel as it
was at the start of the binding; when all pass, MPT holds the two windows, DLV the slot counts and totals, RGP the
layout, and the settings block is read. (R10, R11, R13, R2, R61) -/
def Obligations.DirectoryIsJudgedInOrder : Prop :=
  ∀ (c : Chip) (q : List Instr) (a : Access) (b : List Byte), c.mpt.onBus = some a → a.purpose = .directory →
    a.len = 256 → b.length = 256 → c.rgp.partState ≠ .faulted →
    ∃ d, exec (.directoryReadDone (.data b)) ⟨c, q⟩ = .next ⟨d, q⟩ ∧
      (leValue b 0x00 4 ≠ 0x3C5AE107 → d.bindFailed .badSignature) ∧
      (leValue b 0x00 4 = 0x3C5AE107 → leValue b 0x04 4 ≠ 1 → d.bindFailed .badVersion) ∧
      (leValue b 0x00 4 = 0x3C5AE107 → leValue b 0x04 4 = 1 →
        ((windowValid (directoryWindows b).read && windowValid (directoryWindows b).write) = false →
          d.bindFailed .badWindow) ∧
        ((windowValid (directoryWindows b).read && windowValid (directoryWindows b).write) = true →
          (layoutValid (directoryWindows b) (directoryLayout b) (directoryPicks b) (directoryEvents b) = false →
            d.bindFailed .badLayout) ∧
          (layoutValid (directoryWindows b) (directoryLayout b) (directoryPicks b) (directoryEvents b) = true →
            d.rgp.partState = c.rgp.partState ∧ d.rgp.layout = some (directoryLayout b) ∧
            d.mpt.windows = some (directoryWindows b) ∧
            d.dlv.pick = ⟨leValue b 0x80 4, BitVec.ofNat 32 (leValue b 0x88 4), BitVec.ofNat 32 (leValue b 0x8C 4),
              BitVec.ofNat 32 (leValue b 0x88 4), BitVec.ofNat 32 (leValue b 0x88 4), 0, 0, false⟩ ∧
            d.dlv.event = ⟨leValue b 0x84 4, BitVec.ofNat 32 (leValue b 0x90 4), BitVec.ofNat 32 (leValue b 0x94 4),
              BitVec.ofNat 32 (leValue b 0x90 4), BitVec.ofNat 32 (leValue b 0x90 4), 0, 0, false⟩ ∧
            d.mpt.carries (readAccess .bindSettings (leValue b 0x28 8) 256)))) ∧
      d.lki = c.lki ∧ d.ccu = c.ccu ∧ d.sce = c.sce ∧ d.ord = c.ord

/-- In BINDING, an error answer to the directory read or to a table read makes the record of R172 with source BIND and
kind BUS, sets FAULT, and leaves the part as a failed binding does, with READ-FAULT: no windows, tables or streams, and
every channel as it was at the start of the binding. LKI, CCU, SCE and ORD are unchanged. (R10, R12, R13, R171, R172,
R173, R61) -/
def Obligations.BindingReadErrorEndsTheBinding : Prop :=
  ∀ (c : Chip) (q : List Instr) (a : Access), c.mpt.onBus = some a → c.rgp.partState = .binding →
    faultSourceOf a.purpose = .bind →
    ∃ d, exec (answerTo a.purpose none) ⟨c, q⟩ = .next ⟨d, q⟩ ∧ d.bindFailed .readFault ∧ d.raised causeFault ∧
      d.mpt.records = (c.mpt.record .bind .bus a.addr c.lki.horizon).records ∧
      d.mpt.overflow = (c.mpt.record .bind .bus a.addr c.lki.horizon).overflow ∧
      d.lki = c.lki ∧ d.ccu = c.ccu ∧ d.sce = c.sce ∧ d.ord = c.ord ∧ d.rgp.dirbase = c.rgp.dirbase

/-- When a table read of a binding is answered with data in a part that is not FAULTED: the settings block is kept; a
grid record is judged into the grid table, and after the last one the settings are put in force or end the binding with
BAD-CONFIG, the channels as they were at its start; a hub entry and a station entry are loaded, a station entry into
its channel too; the next read is issued (the reads one at a time are the model's choice, log entry 13); after the last
station entry the enabled channels are restarted, the progress image is built, and its first write begins. (R12, R41,
R42, R108, R111, R112, R13, R61, R166) -/
def Obligations.BindTableReadsLoadTheTables : Prop :=
  ∀ (c : Chip) (q : List Instr) (a : Access) (b : List Byte), c.mpt.onBus = some a → b.length = a.len →
    c.rgp.partState ≠ .faulted →
    (a.purpose = .bindSettings →
      ∃ d, exec (.bindTableReadDone (.data b)) ⟨c, q⟩ = .next ⟨d, q⟩ ∧
        d.rgp.binding = c.rgp.binding.map (fun k => ⟨k.auto, .grid 0, b⟩) ∧ d.tcu = c.tcu ∧ d.chc = c.chc ∧
        d.mpt.carries (readAccess (.bindGrid 0) c.layout.grids 64)) ∧
    (∀ g < 3, a.purpose = .bindGrid g →
      ∃ d, exec (.bindTableReadDone (.data b)) ⟨c, q⟩ = .next ⟨d, q⟩ ∧
        d.tcu = { c.tcu with grids := modifyAt (fun _ => judgeGrid b) c.tcu.grids g } ∧ d.chc = c.chc ∧
        d.mpt.carries (readAccess (.bindGrid (g + 1)) (c.layout.grids + 64 * (g + 1)) 64)) ∧
    (a.purpose = .bindGrid 3 →
      ∃ d, exec (.bindTableReadDone (.data b)) ⟨c, q⟩ = .next ⟨d, q⟩ ∧
        (settingsValid (modifyAt (fun _ => judgeGrid b) c.tcu.grids 3) (boundSettings c) = false →
          d.bindFailed .badConfig) ∧
        (settingsValid (modifyAt (fun _ => judgeGrid b) c.tcu.grids 3) (boundSettings c) = true →
          d.tcu = { c.tcu with grids := modifyAt (fun _ => judgeGrid b) c.tcu.grids 3
                               settings := some (boundSettings c) } ∧
          d.mpt.carries (readAccess (.bindHub 0) c.layout.hubs 32))) ∧
    (∀ h < 16, a.purpose = .bindHub h →
      ∃ d, exec (.bindTableReadDone (.data b)) ⟨c, q⟩ = .next ⟨d, q⟩ ∧
        d.tcu = { c.tcu with hubEntries := modifyAt (fun _ => some (parseHubEntry b)) c.tcu.hubEntries h } ∧
        d.mpt.carries (if h = 15 then readAccess (.bindStation 0) c.layout.stations 32
          else readAccess (.bindHub (h + 1)) (c.layout.hubs + 32 * (h + 1)) 32)) ∧
    (∀ n < 256, a.purpose = .bindStation n →
      ∃ d, exec (.bindTableReadDone (.data b)) ⟨c, q⟩ = .next ⟨d, q⟩ ∧
        d.tcu = { c.tcu with
          stationEntries := modifyAt (fun _ => some (parseStation b)) c.tcu.stationEntries n } ∧
        (n < 255 →
          d.chc = { c.chc with channels := modifyAt (Channel.capture (parseStation b)) c.chc.channels n } ∧
          d.mpt.carries (readAccess (.bindStation (n + 1)) (c.layout.stations + 32 * (n + 1)) 32)) ∧
        (n = 255 →
          d.chc = { c.chc with
            channels := (modifyAt (Channel.capture (parseStation b)) c.chc.channels n).map restartEnabled } ∧
          d.dlv.progress.isSome = true ∧ d.dlv.image = .current ∧ d.rgp.partState = c.rgp.partState))

/-- When the last word of the progress block write in flight is answered without error during a binding, with no
poll in progress and no drain pending: the bind result is OK, the part is BOUND, or LISTENING for a binding that
AUTO started, STATE is set, the poll timer runs with the period in force, a poll begins, and with AUTO each enabled
hub seeks; without it LKI is unchanged. That the poll is counted when its slot reads are requested is the model's
reading (log entry 16). (R13, R17, R131, R22, R8) -/
def Obligations.FirstImageCompletesTheBinding : Prop :=
  ∀ (c : Chip) (q : List Instr) (a : Access) (k : Binding) (w : ProgressWrite), c.mpt.onBus = some a →
    a.purpose = .progressLast → c.rgp.partState = .binding → c.rgp.binding = some k → c.dlv.progress = some w →
    c.ord.poll = none → c.ord.drainPending = none →
    ∃ d, exec (.progressWriteDone true) ⟨c, q⟩ = .next ⟨d, q⟩ ∧ d.rgp.bindResult = .ok ∧ d.rgp.binding = none ∧
      d.rgp.partState = (if k.auto = true then .listening else .bound) ∧ d.raised causeState ∧
      d.ord = { c.ord with timer := some (pollPeriodInForce c), poll := some [], polls := countUp c.ord.polls } ∧
      d.dlv.returnRead = true ∧ d.chc = c.chc ∧ d.sce = c.sce ∧ d.tcu = c.tcu ∧
      d.lki.horizon = c.lki.horizon ∧
      d.lki.hubs = (if k.auto = true then seekEnabled c.tcu.hubEntries c.lki.hubs else c.lki.hubs) ∧
      d.rgp.lastCode = c.rgp.lastCode ∧ d.rgp.acceptance = c.rgp.acceptance

/-! ## The links -/

/-- In a settled part: a burst for a DISABLED hub, and one without a sync word, leave the part as it is. The first
check that fails decides. A bad frame, for a hub that is not due to fall back, increases the counter of that check; a
SEEKING hub also drops its provisional frame and marker, and a LIVE or STALLED hub counts it toward eight. Nothing else
changes. That the eighth bad frame leaves the hub in its state with a count of 8, and the fall back of R26 to
BAD_FRAME_LIMIT or the next frame, is the model's choice (log entry 4). What counts as a burst without a sync word,
when a stop bit ahead of the word is low, is the model's reading (log entry 18). (R18, R19, R26) -/
def Obligations.FramesAreCheckedInOrder : Prop :=
  (∀ (port : Nat) (b : List Byte),
    (¬ (1 ≤ byteAt b 3 ∧ byteAt b 3 ≤ 16 ∧ b.length = 14 + 75 * byteAt b 3) → checkFrame port b = .lengthError) ∧
    (1 ≤ byteAt b 3 ∧ byteAt b 3 ≤ 16 ∧ b.length = 14 + 75 * byteAt b 3 →
      (crcOf ((b.drop 2).take (10 + 75 * byteAt b 3)) ≠ BitVec.ofNat 16 (leValue b (12 + 75 * byteAt b 3) 2) →
        checkFrame port b = .crcFailure) ∧
      (crcOf ((b.drop 2).take (10 + 75 * byteAt b 3)) = BitVec.ofNat 16 (leValue b (12 + 75 * byteAt b 3) 2) →
        checkFrame port b =
          if byteAt b 2 ≠ port then .misrouted else if leValue b 6 6 % 25 ≠ 0 then .misaligned else .good))) ∧
  ∀ (c : Chip) (q : List Instr) (port : Fin 16) (line : List Bool), c.settled →
    ((hubAt port.val c).state = .disabled ∨ frameOf line = none →
      exec (.hubFrameArrival port line) ⟨c, q⟩ = .next ⟨c, q⟩) ∧
    ∀ (h : Hub) (b : List Byte), c.lki.hubs[port.val]? = some h → h.state ≠ .disabled → h.atBadLimit = false →
      frameOf line = some b → checkFrame port.val b ≠ .good →
      exec (.hubFrameArrival port line) ⟨c, q⟩ =
        .next ⟨c.withHub port.val
          (if h.state = .seeking then
            { h with buffer := [], marker := none, counters := countBad h.counters (checkFrame port.val b) }
          else
            { h with badCount := min 8 (h.badCount + 1),
                     counters := countBad h.counters (checkFrame port.val b) }), q⟩

/-- In a settled part a good frame at a SEEKING hub: with no provisional frame, or one that is not 25 ticks before
it, the frame becomes the provisional frame and the marker names it. With the frame before it and both wholly below
H, both are discarded, two late frames are counted and the marker is cleared. The actual lane count and the counters
of R21 follow the frame; nothing else changes. (R21, R23, R24) -/
def Obligations.SeekingHubHoldsOneProvisionalFrame : Prop :=
  ∀ (c : Chip) (q : List Instr) (port : Fin 16) (line : List Bool) (h : Hub) (b : List Byte), c.settled →
    c.lki.hubs[port.val]? = some h → h.state = .seeking → frameOf line = some b → checkFrame port.val b = .good →
    (h.marker.all (fun m => m.1 + 25 != leValue b 6 6) = true →
      exec (.hubFrameArrival port line) ⟨c, q⟩ =
        .next ⟨c.withHub port.val
          ({ h with
            actualLanes := byteAt b 3
            counters := countGood b h.counters
            buffer := [keptFrame (expectedLanes (c.tcu.hubEntries.getD port.val none)) b]
            marker := some (leValue b 6 6, BitVec.ofNat 8 (byteAt b 4)) }), q⟩) ∧
    ∀ (first hz : Nat) (seq : BitVec 8), h.marker = some (first, seq) → leValue b 6 6 = first + 25 →
      c.lki.horizon = some hz → first + 50 ≤ hz →
      exec (.hubFrameArrival port line) ⟨c, q⟩ =
        .next ⟨c.withHub port.val
          ({ h with
            actualLanes := byteAt b 3
            counters := { countGood b h.counters with late := addCount h.counters.late 2 }
            buffer := []
            marker := none }), q⟩

/-- A SEEKING hub with a provisional frame receives the good frame 25 ticks after it, H is unset with no hub LIVE, or H
is below the second frame's end, and no LIVE hub is more than Lmax ahead. The hub becomes LIVE with its place after the
second frame, no marker, a bad-frame count of 0 and its silence timer started; frames wholly below H count as late, and
a sequence that does not follow is a slip. With the provisional frame that the marker names, one late frame is counted
when that frame ends at or below H, and none otherwise. Its buffer holds the two frames afterwards, less those wholly
below the H of afterwards. If H was unset it is 50 ticks above the first frame's first tick afterwards. (R22, R24, R29,
R30, R31, R33) -/
def Obligations.AdmissionMakesAHubLive : Prop :=
  ∀ (c : Chip) (q : List Instr) (port : Fin 16) (line : List Bool) (h : Hub) (b : List Byte) (first : Nat)
    (seq : BitVec 8), c.lki.hubs[port.val]? = some h → h.state = .seeking → frameOf line = some b →
    checkFrame port.val b = .good → h.marker = some (first, seq) → leValue b 6 6 = first + 25 →
    ((c.lki.horizon = none ∧ c.lki.smallestNext = none) ∨ ∃ hz, c.lki.horizon = some hz ∧ hz < first + 50) →
    (∀ g ∈ c.lki.hubs, g.state = .live → g.nextTick.getD 0 ≤ first + 50 + lmaxInForce c) →
    ∃ d h', exec (.hubFrameArrival port line) ⟨c, q⟩ = .next ⟨d, q⟩ ∧ d.lki.hubs[port.val]? = some h' ∧
      h'.state = .live ∧ h'.nextTick = some (first + 50) ∧ h'.lastSeq = some (BitVec.ofNat 8 (byteAt b 4)) ∧
      h'.marker = none ∧ h'.badCount = 0 ∧ h'.silence = some (silenceInForce c) ∧ h'.actualLanes = byteAt b 3 ∧
      h'.counters =
        { countGood b h.counters with
          late := addCount h.counters.late
            ((h.buffer ++ [keptFrame (expectedLanes (c.tcu.hubEntries.getD port.val none)) b]).filter
              (Frame.below (c.lki.horizon.getD first))).length
          slips := if seq + 1 = BitVec.ofNat 8 (byteAt b 4) then h.counters.slips else countUp h.counters.slips } ∧
      (h.buffer.map Frame.firstTick = [first] →
        h'.counters.late = addCount h.counters.late (if first + 25 ≤ c.lki.horizon.getD first then 1 else 0)) ∧
      h'.buffer = (h.buffer ++ [keptFrame (expectedLanes (c.tcu.hubEntries.getD port.val none)) b]).filter
        (fun f => decide (d.lki.horizon.getD 0 < f.firstTick + 25)) ∧
      (c.lki.horizon = none → d.lki.horizon = some (first + 50)) ∧ (c.active = true → d.raised causeLink)

/-- In a settled part, for a hub not due to fall back: a good frame below next_tick changes the counters of R21, the
duplicates counter, the actual lane count, the bad-frame count (0) and the silence timer, and nothing else. A
STALLED hub's frame at or above next_tick and wholly below H counts as late, moves next_tick and the last sequence
past it, and counts a slip when it is consistent with next_tick and its sequence does not follow. (R21, R25, R26,
R27, R32) -/
def Obligations.DuplicateAndLateFramesAreDiscarded : Prop :=
  ∀ (c : Chip) (q : List Instr) (port : Fin 16) (line : List Bool) (h : Hub) (b : List Byte) (next : Nat), c.settled →
    c.lki.hubs[port.val]? = some h → h.atBadLimit = false → h.nextTick = some next → frameOf line = some b →
    checkFrame port.val b = .good →
    (h.state = .live ∨ h.state = .stalled → leValue b 6 6 < next →
      exec (.hubFrameArrival port line) ⟨c, q⟩ =
        .next ⟨c.withHub port.val
          ({ h with
            actualLanes := byteAt b 3
            badCount := 0
            silence := some (silenceInForce c)
            counters := { countGood b h.counters with duplicates := countUp h.counters.duplicates } }), q⟩) ∧
    ∀ hz : Nat, h.state = .stalled → next ≤ leValue b 6 6 → c.lki.horizon = some hz → leValue b 6 6 + 25 ≤ hz →
      exec (.hubFrameArrival port line) ⟨c, q⟩ =
        .next ⟨c.withHub port.val
          ({ h with
            actualLanes := byteAt b 3
            badCount := 0
            silence := some (silenceInForce c)
            nextTick := some (leValue b 6 6 + 25)
            lastSeq := some (BitVec.ofNat 8 (byteAt b 4))
            counters :=
              { countGood b h.counters with
                late := countUp h.counters.late
                slips :=
                  if next = leValue b 6 6 ∧ h.lastSeq.map (· + 1) ≠ some (BitVec.ofNat 8 (byteAt b 4)) then
                    countUp h.counters.slips
                  else h.counters.slips } }), q⟩

/-- With no LIVE hub more than Lmax ahead of the frame's end: the hub is LIVE afterwards with its place after the
frame, its bad-frame count 0 and its silence timer restarted. A LIVE hub counts the ticks between next_tick and the
frame as gap ticks, a STALLED hub those between H and the frame; a frame at next_tick whose sequence does not follow is
a slip. The frame, with its usable lanes, joins the end of the hub's buffer (a STALLED hub's is empty); if H rises, the
frames wholly below the new H are gone afterwards, and H does not fall. A LIVE hub more than Lmax below the frame's end
is STALLED afterwards, with an empty buffer and its place kept. The links and the channels are afterwards as the update
of H leaves them that follows the stall check on the hubs with the frame kept. A change of hub state sets LINK in
BOUND, LISTENING and STOPPING. (R25, R29, R31, R32, R33, R38) -/
def Obligations.KeptFrameMovesAHubOnAndStallsTheOthers : Prop :=
  ∀ (c : Chip) (q : List Instr) (port : Fin 16) (line : List Bool) (h : Hub) (b : List Byte) (next hz : Nat),
    c.lki.hubs[port.val]? = some h → h.atBadLimit = false → h.nextTick = some next → c.lki.horizon = some hz →
    frameOf line = some b → checkFrame port.val b = .good → next ≤ leValue b 6 6 →
    (h.state = .live ∨ (h.state = .stalled ∧ hz < leValue b 6 6 + 25)) →
    (∀ g ∈ c.lki.hubs, g.state = .live → g.nextTick.getD 0 ≤ leValue b 6 6 + 25 + lmaxInForce c) →
    ∃ d h', exec (.hubFrameArrival port line) ⟨c, q⟩ = .next ⟨d, q⟩ ∧ d.lki.hubs[port.val]? = some h' ∧
      h'.state = .live ∧ h'.nextTick = some (leValue b 6 6 + 25) ∧
      h'.lastSeq = some (BitVec.ofNat 8 (byteAt b 4)) ∧ h'.badCount = 0 ∧ h'.silence = some (silenceInForce c) ∧
      h'.actualLanes = byteAt b 3 ∧
      h'.counters =
        { countGood b h.counters with
          gapTicks := addCount h.counters.gapTicks (leValue b 6 6 - (if h.state = .live then next else hz))
          slips :=
            if next = leValue b 6 6 ∧ h.lastSeq.map (· + 1) ≠ some (BitVec.ofNat 8 (byteAt b 4)) then
              countUp h.counters.slips
            else h.counters.slips } ∧
      (∀ (m : Nat) (g : Hub) (n : Nat), m ≠ port.val → c.lki.hubs[m]? = some g → g.state = .live →
        g.nextTick = some n → n + lmaxInForce c < leValue b 6 6 + 25 →
        d.lki.hubs[m]? = some { g with state := .stalled, buffer := [] }) ∧
      (let held := h.buffer ++ [keptFrame (expectedLanes (c.tcu.hubEntries.getD port.val none)) b]
       let checked := Lki.stall (lmaxInForce c)
         { c.lki with hubs := c.lki.hubs.set port.val { h' with buffer := held } }
       (∃ h1, d.lki.horizon = some h1 ∧ hz ≤ h1 ∧
         h'.buffer = if h1 = hz then held else held.filter fun f => decide (h1 < f.firstTick + 25)) ∧
       d.lki = (updateHorizon { c with lki := checked }).lki ∧ d.chc = (updateHorizon { c with lki := checked }).chc) ∧
      (c.active = true → d.lki.hubs.map Hub.state ≠ c.lki.hubs.map Hub.state → d.raised causeLink)

/-- In a settled part BAD_FRAME_LIMIT of a hub that is not LIVE or STALLED with a count of 8 or more, and
SILENCE_TIMER_EXPIRY of a hub whose timer does not run, leave the part as it is (events that cannot occur: log entry
2). Otherwise the hub is SEEKING afterwards with an empty buffer, no place in time, no marker, a stopped timer and a
count of 0, its counters and actual lane count kept; H is not lower, the other hubs keep their states, and LINK is
set. A fall back still due is made before the next frame is judged (the model's choice, log entry 4). (R22, R26,
R27, R28, R30, R38) -/
def Obligations.HubFallsBackToSeeking : Prop :=
  ∀ (c : Chip) (q : List Instr) (n : Fin 16) (h : Hub), c.lki.hubs[n.val]? = some h →
    (c.settled → ¬ (h.state.placed = true ∧ 8 ≤ h.badCount) → exec (.badFrameLimit n) ⟨c, q⟩ = .next ⟨c, q⟩) ∧
    (c.settled → ¬ (h.state.placed = true ∧ h.silence.isSome = true) →
      exec (.silenceTimerExpiry n) ⟨c, q⟩ = .next ⟨c, q⟩) ∧
    (∀ i : Instr, (i = .badFrameLimit n ∧ h.state.placed = true ∧ 8 ≤ h.badCount) ∨
        (i = .silenceTimerExpiry n ∧ h.state.placed = true ∧ h.silence.isSome = true) →
      ∃ d, exec i ⟨c, q⟩ = .next ⟨d, q⟩ ∧
        d.lki.hubs[n.val]? = some ⟨.seeking, [], none, none, none, none, 0, h.actualLanes, h.counters⟩ ∧
        (∀ hz, c.lki.horizon = some hz → ∃ h1, d.lki.horizon = some h1 ∧ hz ≤ h1) ∧
        (∀ m, m ≠ n.val → (d.lki.hubs[m]?).map Hub.state = (c.lki.hubs[m]?).map Hub.state) ∧
        (c.active = true → d.raised causeLink)) ∧
    ∀ (line : List Bool) (b : List Byte), h.state.placed = true → 8 ≤ h.badCount → frameOf line = some b →
      ∃ d, exec (.hubFrameArrival n line) ⟨c, q⟩ = .next ⟨d, q⟩ ∧
        (d.lki.hubs[n.val]?).map Hub.state = some .seeking ∧ (c.active = true → d.raised causeLink)

/-! ## Conditioning -/

/-- For a present sample x with previous sample p (or none): A is 16 times the clipped magnitude of x − p (or 0), it
lies in 0 to 16,777,200, and x becomes the previous sample. S becomes S + floor((A − S) / 2^ks). L keeps its value
with the trigger ON and otherwise becomes L + floor((A − L) / 2^kl). The new S lies between the old S and A, S stays
at A once there, and so does an L that moves. (R44, R45, R46) -/
def Obligations.AveragesMoveTowardTheInput : Prop :=
  ∀ (x : BitVec 24) (p : StationParams) (ch : Channel),
    let d : Int := match ch.xPrev with
      | some y => x.toInt - y.toInt
      | none => 0
    let a : Int := 16 * min (d.natAbs : Int) 1048575
    let after := ch.takeSample x p
    after.xPrev = some x ∧ -16777215 ≤ d ∧ d ≤ 16777215 ∧ 0 ≤ a ∧ a ≤ 16777200 ∧
      (after.sta : Int) = ch.sta + (a - ch.sta) / 2 ^ p.ks ∧
      (after.lta : Int) = (if ch.trigger = .on then (ch.lta : Int) else ch.lta + (a - ch.lta) / 2 ^ p.kl) ∧
      min (ch.sta : Int) a ≤ after.sta ∧ (after.sta : Int) ≤ max (ch.sta : Int) a ∧
      min (ch.lta : Int) a ≤ after.lta ∧ (after.lta : Int) ≤ max (ch.lta : Int) a ∧
      ((ch.sta : Int) = a → (after.sta : Int) = a) ∧ ((ch.lta : Int) = a → (after.lta : Int) = a) ∧
      after.trigger = ch.trigger ∧ after.params = ch.params ∧ after.history = ch.history

/-- Settling a tick conditions each channel once. Its sample is present when its hub is LIVE, a frame in the hub's
buffer covers the tick, that frame is not timing-lost, the lane is below its usable lanes and the channel is enabled;
it is then the frame's value for the lane and tick, and otherwise the channel is given an absent one. The links are as
before, the raw epoch takes the same samples, and CCU's previous count is the vote count of the tick over the channels
so conditioned. Tick 499 of an epoch completes it: the epoch count increases by 1 and an idle raw writer holds the
epoch, its read of half 0's state requested (half 0 first is the model's choice, log entry 19), while a busy one keeps
its own and the epoch is counted lost. Any other tick leaves the count and the writer as they are. When H rises from h0
to h1, the ticks from h0 to h1 − 1 are settled in increasing order, a gap's ticks absent; then each frame wholly below
h1 is released, but no provisional frame (log entry 26), and a run that completed an epoch asks for a progress block
write. Where the smallest next_tick does not lie above H, the update of H changes nothing. For an enabled channel with
a canonical history: conditioning tick t with a present sample leaves the CF min(254, floor(16 S / max(L, 16 F))) in
cell t mod 4096, every other cell as it was, and increases the warm count by 1 up to 2^kl. (R30, R33, R34, R35, R43,
R47, R48, R56, R62, R160, R161) -/
def Obligations.CharacteristicFunctionIsRecorded : Prop :=
  (∀ c : Chip,
    let presented (t n : Nat) (ch : Channel) : Option (BitVec 24) :=
      let h := c.lki.hubs.getD (n / 16) Hub.atReset
      match h.buffer.find? (fun f => decide (f.firstTick ≤ t) && decide (t < f.firstTick + 25)) with
      | some f =>
        if h.state = .live ∧ f.timingLost = false ∧ n % 16 < f.usable ∧ ch.params.isSome = true then
          f.samples[(t - f.firstTick) * f.usable + n % 16]?
        else none
      | none => none
    (∀ t : Nat,
      (∀ (n : Nat) (ch : Channel), c.chc.channels[n]? = some ch →
        (settleTick t c).chc.channels[n]? = some (condition n t (presented t n ch) ch).1) ∧
      (settleTick t c).lki = c.lki ∧
      (settleTick t c).dlv.assembly =
        (if t % 500 = 499 then none
        else some ((epochFor t c.dlv.assembly).place t
          ((numbered 0 c.chc.channels).map fun e => presented t e.1 e.2))) ∧
      (∀ s, c.tcu.settings = some s →
        (settleTick t c).ccu.prevCount = voteCount t s.window (settleTick t c).chc.channels) ∧
      (t % 500 ≠ 499 →
        (settleTick t c).dlv.epochCount = c.dlv.epochCount ∧ (settleTick t c).dlv.outgoing = c.dlv.outgoing ∧
        (settleTick t c).dlv.counters.rawLost = c.dlv.counters.rawLost) ∧
      (t % 500 = 499 →
        (c.dlv.epochCount.toNat < 4294967295 → (settleTick t c).dlv.epochCount = c.dlv.epochCount + 1) ∧
        (c.dlv.outgoing = none →
          (settleTick t c).dlv.outgoing = some ⟨(epochFor t c.dlv.assembly).place t
            ((numbered 0 c.chc.channels).map fun e => presented t e.1 e.2), false⟩ ∧
          (settleTick t c).dlv.counters.rawLost = c.dlv.counters.rawLost ∧
          (settleTick t c).mpt.carries (readAccess (.rawState 0) c.layout.raw0 4)) ∧
        ∀ o, c.dlv.outgoing = some o →
          (settleTick t c).dlv.outgoing = some o ∧
          (settleTick t c).dlv.counters.rawLost = countUp c.dlv.counters.rawLost)) ∧
    (∀ h0 h1 : Nat, c.lki.horizon = some h0 → c.lki.smallestNext = some h1 → h0 < h1 →
      (∀ (n : Nat) (ch : Channel), c.chc.channels[n]? = some ch →
        (updateHorizon c).chc.channels[n]? =
          some ((List.range' h0 (h1 - h0)).foldl (fun k t => (condition n t (presented t n k) k).1) ch)) ∧
      (updateHorizon c).lki.horizon = some h1 ∧
      (∀ (m : Nat) (g : Hub), c.lki.hubs[m]? = some g →
        (updateHorizon c).lki.hubs[m]? = some
          (if g.state = .seeking then g
          else { g with buffer := g.buffer.filter fun f => decide (h1 < f.firstTick + 25) })) ∧
      (c.active = true → h0 / 500 < h1 / 500 →
        (if c.dlv.progress.isSome = true then (updateHorizon c).dlv.rewrite else (updateHorizon c).dlv.progressAsked) =
          true) ∧
      ∀ s, c.tcu.settings = some s →
        (updateHorizon c).ccu.prevCount = voteCount (h1 - 1) s.window (updateHorizon c).chc.channels) ∧
    (∀ h0 : Nat, c.lki.horizon = some h0 → c.lki.smallestNext.all (fun h1 => decide (h1 ≤ h0)) = true →
      updateHorizon c = c)) ∧
  ∀ (number t : Nat) (x : BitVec 24) (p : StationParams) (ch : Channel), ch.historySound = true → ch.params = some p →
    ∃ cf ch', cf ≤ 254 ∧ (condition number t (some x) ch).1 = ch' ∧ ch'.historySound = true ∧
      cf = min 254 (16 * ch'.sta / max ch'.lta (16 * p.floor)) ∧
      ch'.sta = (ch.takeSample x p).sta ∧ ch'.lta = (ch.takeSample x p).lta ∧ ch'.xPrev = some x ∧
      cellRead absentCf ch'.history (t % 4096) = BitVec.ofNat 8 cf ∧
      (∀ i < 4096, i ≠ t % 4096 → cellRead absentCf ch'.history i = cellRead absentCf ch.history i) ∧
      ch'.warm = (if ch.warm < 2 ^ p.kl then ch.warm + 1 else ch.warm) ∧ ch'.params = ch.params ∧
      ch'.invalid = ch.invalid

/-- For a channel with a canonical history: conditioning tick t with an absent sample leaves ABSENT in the cell of t
and every other cell as it was; S, L, the warm count, the captured values and the last ON tick keep their values and
x_prev is none. An ON trigger becomes OFF, its on tick and peak are cleared, and the pick has end reason CUT and off
tick t; an OFF or BLOCKED trigger keeps its state and forms no pick. (R50, R52, R53) -/
def Obligations.AbsentSampleKeepsTheFilter : Prop :=
  ∀ (number t : Nat) (ch : Channel), ch.historySound = true →
    let after := (condition number t none ch).1
    cellRead absentCf after.history (t % 4096) = 255 ∧
      (∀ i < 4096, i ≠ t % 4096 → cellRead absentCf after.history i = cellRead absentCf ch.history i) ∧
      after.sta = ch.sta ∧ after.lta = ch.lta ∧ after.warm = ch.warm ∧ after.xPrev = none ∧
      after.params = ch.params ∧ after.lastOn = ch.lastOn ∧ after.invalid = ch.invalid ∧
      (ch.trigger = .on →
        after.trigger = .off ∧ after.onTick = none ∧ after.peakCf = none ∧ after.peakTick = none ∧
        (condition number t none ch).2 =
          some ⟨⟨number, ch.onTick.getD 0, t, ch.peakCf.getD 0, ch.peakTick.getD 0, .cut⟩,
            (ch.params.map StationParams.reportPicks).getD false⟩) ∧
      (ch.trigger ≠ .on → after.trigger = ch.trigger ∧ after.onTick = ch.onTick ∧ after.peakCf = ch.peakCf ∧
        after.peakTick = ch.peakTick ∧ (condition number t none ch).2 = none)

/-- Conditioning a present sample of an enabled channel judges its trigger with the CF just computed and the warm count
just advanced, the trigger, peak and last ON tick being those from before. For an enabled channel and the CF of tick t:
OFF goes ON at t exactly when the CF is at least Ton and the warm count is 2^kl. ON with a CF below Toff ends NORMAL
with off tick t; at or above it and max trigger length or more after the on tick it ends LONG and is BLOCKED, the CF
compared with the peak first; otherwise it stays ON, and only a greater CF becomes the peak. BLOCKED returns to OFF,
without a pick, exactly when the CF is below Toff. (R51, R52, R53, R54, R43, R48) -/
def Obligations.TriggersAreJudgedInOrder : Prop :=
  (∀ (number t : Nat) (x : BitVec 24) (p : StationParams) (ch : Channel), ch.params = some p →
    ∃ (cf : Nat) (ch' : Channel), condition number t (some x) ch = judgeTrigger number t cf p ch' ∧
      cf = min 254 (16 * ch'.sta / max ch'.lta (16 * p.floor)) ∧
      ch'.warm = (if ch.warm < 2 ^ p.kl then ch.warm + 1 else ch.warm) ∧ ch'.params = ch.params ∧
      ch'.trigger = ch.trigger ∧ ch'.onTick = ch.onTick ∧ ch'.peakCf = ch.peakCf ∧ ch'.peakTick = ch.peakTick ∧
      ch'.lastOn = ch.lastOn) ∧
  ∀ (number t cf : Nat) (p : StationParams) (ch : Channel), ch.params = some p →
    (ch.trigger = .off →
      judgeTrigger number t cf p ch =
        if p.ton ≤ cf ∧ ch.warm = 2 ^ p.kl then
          ({ ch with trigger := .on, onTick := some t, peakCf := some cf, peakTick := some t, lastOn := some t }, none)
        else (ch, none)) ∧
    (∀ on pk pt : Nat, ch.trigger = .on → ch.onTick = some on → ch.peakCf = some pk → ch.peakTick = some pt → on ≤ t →
      judgeTrigger number t cf p ch =
        if cf < p.toff then
          ({ ch with trigger := .off, onTick := none, peakCf := none, peakTick := none },
            some ⟨⟨number, on, t, pk, pt, .normal⟩, p.reportPicks⟩)
        else if on + p.maxLength ≤ t then
          ({ ch with trigger := .blocked, onTick := none, peakCf := none, peakTick := none },
            some ⟨⟨number, on, t, max pk cf, if pk < cf then t else pt, .long⟩, p.reportPicks⟩)
        else ({ ch with peakCf := some (max pk cf), peakTick := some (if pk < cf then t else pt) }, none)) ∧
    (ch.trigger = .blocked →
      judgeTrigger number t cf p ch =
        (if cf < p.toff then { ch with trigger := .off, onTick := none, peakCf := none, peakTick := none } else ch, none))

/-! ## Coincidence -/

/-- With Nmin ≤ N2 ≤ N1 ≤ N0 and a vote count v of at least Nmin, the level is 0 exactly for v ≥ N0, 1 exactly for
N1 ≤ v < N0, 2 exactly for N2 ≤ v < N1 and 3 exactly for Nmin ≤ v < N2; it is never above 3; and with N1 = N0 no
count gives level 1. (R65) -/
def Obligations.LevelOfACrossing : Prop :=
  ∀ (s : Settings) (v : Nat), s.nmin ≤ s.n2 → s.n2 ≤ s.n1 → s.n1 ≤ s.n0 → s.nmin ≤ v →
    (levelOf s v = 0 ↔ s.n0 ≤ v) ∧ (levelOf s v = 1 ↔ s.n1 ≤ v ∧ v < s.n0) ∧
      (levelOf s v = 2 ↔ s.n2 ≤ v ∧ v < s.n1) ∧ (levelOf s v = 3 ↔ s.nmin ≤ v ∧ v < s.n2) ∧ levelOf s v ≤ 3 ∧
      (s.n1 = s.n0 → levelOf s v ≠ 1)

/-- For the vote count v of a tick: without a crossing CCU changes in its previous count only, and nothing else
changes. With a crossing exactly one of three happens: one merge is counted and no request is made; one declaration
is counted, with at most one displaced; or one lost declaration is counted with the queue, the target and the
request counter unchanged. The previous count is v. That a number is given whether or not a waiting request still holds
it is the model's choice (log entry 35). (R64, R66, R69, R71, R72, R80) -/
def Obligations.EachCrossingIsCountedOnce : Prop :=
  ∀ (c : Chip) (s : Settings) (n : TickNotice), c.tcu.settings = some s →
    let v := voteCount n.tick s.window c.chc.channels
    let d := takeTickNotice n c
    d.ccu.prevCount = v ∧
      (¬ (s.nmin ≤ v ∧ c.ccu.prevCount < s.nmin) → d = { c with ccu := { c.ccu with prevCount := v } }) ∧
      (s.nmin ≤ v → c.ccu.prevCount < s.nmin →
        (∀ g, c.ccu.target = some g → n.tick ≤ g.refTick + g.window →
          d.ccu.merges = countUp c.ccu.merges ∧ d.ccu.declarations = c.ccu.declarations ∧ d.ccu.lost = c.ccu.lost ∧
          d.ccu.displaced = c.ccu.displaced ∧ d.ccu.target = c.ccu.target ∧
          d.ccu.requestCounter = c.ccu.requestCounter ∧ d.ccu.queue.map Request.number = c.ccu.queue.map Request.number) ∧
        ((∀ g, c.ccu.target = some g → g.refTick + g.window < n.tick) →
          d.ccu.merges = c.ccu.merges ∧
          (c.ccu.queue.length < 8 →
            d.ccu.declarations = countUp c.ccu.declarations ∧ d.ccu.lost = c.ccu.lost ∧
            d.ccu.displaced = c.ccu.displaced ∧ d.ccu.requestCounter = nextRequestNumber c.ccu.requestCounter) ∧
          (8 ≤ c.ccu.queue.length →
            ((∃ r ∈ c.ccu.queue, r.order = none ∧ levelOf s v < r.level) →
              d.ccu.declarations = countUp c.ccu.declarations ∧ d.ccu.lost = c.ccu.lost ∧
              d.ccu.displaced = countUp c.ccu.displaced ∧
              d.ccu.requestCounter = nextRequestNumber c.ccu.requestCounter) ∧
            ((∀ r ∈ c.ccu.queue, r.order = none → r.level ≤ levelOf s v) →
              d = { c with ccu := { c.ccu with prevCount := v, lost := countUp c.ccu.lost } }))))

/-- For a step of at least 1, the start is the smallest T_d − back + k × step that is not below 0: it has that form
for some k; with T_d at least back it is T_d − back; otherwise it is below the step. (R68) -/
def Obligations.DeclaredSpanStartsAtTickZeroOrLater : Prop :=
  ∀ refTick back step : Nat, 1 ≤ step →
    (∃ k : Nat, (spanStart refTick back step : Int) = refTick - back + k * step) ∧
      (back ≤ refTick → spanStart refTick back step = refTick - back) ∧
      (refTick < back → spanStart refTick back step < step) ∧
      ∀ k : Nat, 0 ≤ (refTick : Int) - back + k * step → (spanStart refTick back step : Int) ≤ refTick - back + k * step

/-! ## The scan engine -/

/-- In a settled part whose RUNNING scan waits for the CF of a channel: a tick at or above H (or H unset) raises
PARTIAL, a tick more than 4096 below H raises EXPIRED, and either is taken as absent. Stacking a pair, a present CF
adds weight times CF to the sum, the weight to the weight sum and 1 to the contributors; forming an arrival list, it
joins the channels found. With a channel left to read the scan waits for it. With none left, the pair is a candidate if
its weight sum reaches Wmin, and replaces the best so far when its Q is strictly greater. With an origin time left the
next pair then begins with sums of 0. With none left, a node left in the stage, no cancel mark and no request waiting,
the cursor moves on and the next row is requested. At the end of a stage: stage 1 without a best finishes EMPTY; a best
of stage 1 below Qacc makes its row requested for a WEAK list; at or above Qacc it has the refine entry requested, or
with no refine table the row for a LOCATED list, UNREFINED; stage 2 has the row of its own peak requested when its Q
reaches Qacc, and of stage 1's, UNREFINED, otherwise. The last read of a list finishes the scan with the first 16 of
the channels found, ranked by weighted CF, of equal ones the lower channel first. A finish, in a part with no other
bank in service, no request waiting and no cancel mark, frees the bank and counts the outcome; one reported, with no
record waiting and room in the stream, takes the next sequence and is written at the next slot. The rows and entries
requested are those not cached and inside the windows. With no CF read awaited the command changes nothing (log entry
2). R91 and R92 name no order of a pair's channels: that they are read one at a time in rising channel order, and so
which channel the scan waits for next, is the model's choice (log entry 24). (R57, R90, R91, R92, R93, R94, R95, R96,
R98, R99, R102, R155) -/
def Obligations.CfReadIsStacked : Prop :=
  (∀ (c : Chip) (q : List Instr), c.settled →
    (∀ bank sc, runningBank c = some (bank, sc) →
      sc.phase = .boundary ∨ sc.phase = .nodeRow ∨ sc.phase = .refineEntry ∨
      ∃ o, sc.phase = .listRow o) →
    exec .cfReadAnswer ⟨c, q⟩ = .next ⟨c, q⟩) ∧
  (∀ (c : Chip) (q : List Instr) (bank : Nat) (sc : Scan) (row : List (BitVec 16)) (t0 ch sum wsum n : Nat), c.settled →
    runningBank c = some (bank, sc) → sc.phase = .stacking row t0 ch sum wsum n →
    let a := t0 + (row.getD ch 0xFFFF).toNat
    let cell := cellRead absentCf (c.chc.channels.getD ch Channel.atReset).history (a % 4096)
    let late : Bool := c.lki.horizon.all (fun h => decide (h ≤ a))
    let old : Bool := c.lki.horizon.any (fun h => decide (a + 4096 < h))
    let taken : Bool := !late && !old && cell != 255
    let w := sc.weights.getD ch 0
    let sum' := if taken then sum + w * cell.toNat else sum
    let wsum' := if taken then wsum + w else wsum
    let n' := if taken then n + 1 else n
    (∀ next met, nextReadFrom sc row (ch + 1) = (some next, met) →
      exec .cfReadAnswer ⟨c, q⟩ =
        .next ⟨c.withBank bank (some
          ({ sc with
            flags := { sc.flags with partialRead := sc.flags.partialRead || late
                                     expired := sc.flags.expired || old
                                     range := sc.flags.range || met }
            phase := .stacking row t0 next sum' wsum' n' })), q⟩) ∧
    (let best' :=
       if sc.captured.wmin ≤ wsum' then
         match sc.best with
         | some b => if b.q < sum' / wsum' then some ⟨sc.grid, sc.cursor, t0, sum' / wsum', wsum', n'⟩ else some b
         | none => some ⟨sc.grid, sc.cursor, t0, sum' / wsum', wsum', n'⟩
       else sc.best
     (∀ met first met', nextReadFrom sc row (ch + 1) = (none, met) → t0 + sc.spanStep ≤ sc.spanLast →
      nextReadFrom sc row 0 = (some first, met') →
      exec .cfReadAnswer ⟨c, q⟩ =
        .next ⟨c.withBank bank (some
          ({ sc with
            flags := { sc.flags with partialRead := sc.flags.partialRead || late
                                     expired := sc.flags.expired || old
                                     range := (sc.flags.range || met) || met' }
            best := best'
            phase := .stacking row (t0 + sc.spanStep) first 0 0 0 })), q⟩) ∧
     (∀ met (g : GridDef), nextReadFrom sc row (ch + 1) = (none, met) → sc.spanLast < t0 + sc.spanStep →
      sc.cursor < sc.lastNode → sc.cancelMark = false → c.ccu.queue = [] → gridDefn c.tcu.grids sc.grid = some g →
      sc.cursor + 1 < g.nodeCount → c.tcu.cache.find? (CacheEntry.isFor sc.grid (sc.cursor + 1)) = none →
      accessPasses c.mpt.windows
        (readAccess (.row sc.grid (sc.cursor + 1)) (g.ttBase + (sc.cursor + 1) * g.stride) 512) = true →
      ∃ d, exec .cfReadAnswer ⟨c, q⟩ = .next ⟨d, q⟩ ∧
        d.sce = { c.sce with banks := c.sce.banks.set bank (some
          { sc with
            flags := { sc.flags with partialRead := sc.flags.partialRead || late
                                     expired := sc.flags.expired || old
                                     range := sc.flags.range || met }
            best := best'
            cursor := sc.cursor + 1
            ranges := modifyAt (widen (sc.cursor + 1)) sc.ranges sc.grid
            phase := .nodeRow }) } ∧
        d.tcu = { c.tcu with misses := countUp c.tcu.misses, fetch := some ⟨sc.grid, sc.cursor + 1, true⟩ } ∧
        d.mpt.carries (readAccess (.row sc.grid (sc.cursor + 1)) (g.ttBase + (sc.cursor + 1) * g.stride) 512) ∧
        d.rgp = c.rgp ∧ d.lki = c.lki ∧ d.chc = c.chc ∧ d.ccu = c.ccu ∧ d.ord = c.ord ∧ d.dlv = c.dlv ∧
        d.mpt.windows = c.mpt.windows ∧ d.mpt.records = c.mpt.records ∧ d.mpt.overflow = c.mpt.overflow) ∧
     ∀ met, nextReadFrom sc row (ch + 1) = (none, met) → sc.spanLast < t0 + sc.spanStep → sc.lastNode ≤ sc.cursor →
      let ended : Scan :=
        { sc with
          flags := { sc.flags with partialRead := sc.flags.partialRead || late
                                   expired := sc.flags.expired || old
                                   range := sc.flags.range || met }
          best := best'
          cursor := sc.cursor + 1 }
      (sc.stage = 1 → best' = none → sc.cancelMark = false → c.aloneInService bank sc →
        ∃ d, exec .cfReadAnswer ⟨c, q⟩ = .next ⟨d, q⟩ ∧ c.finishes ended .empty [] d) ∧
      (∀ (p : Peak) (g : GridDef), sc.stage = 1 → best' = some p → sc.captured.qacc ≤ p.q →
        sc.captured.hasRefine = true → gridDefn c.tcu.grids p.grid = some g → g.refineBase ≠ 0 →
        p.node < g.nodeCount →
        accessPasses c.mpt.windows (readAccess (.refine p.grid p.node) (g.refineBase + 8 * p.node) 8) = true →
        ∃ d, exec .cfReadAnswer ⟨c, q⟩ = .next ⟨d, q⟩ ∧
          d.sce = { c.sce with banks := c.sce.banks.set bank (some
            ({ ended with stage1 := some p, phase := .refineEntry })) } ∧
          d.mpt.carries (readAccess (.refine p.grid p.node) (g.refineBase + 8 * p.node) 8) ∧ d.tcu = c.tcu ∧
          d.rgp = c.rgp ∧ d.lki = c.lki ∧ d.chc = c.chc ∧ d.ccu = c.ccu ∧ d.ord = c.ord ∧ d.dlv = c.dlv ∧
          d.mpt.windows = c.mpt.windows ∧ d.mpt.records = c.mpt.records ∧ d.mpt.overflow = c.mpt.overflow) ∧
      ∀ (p : Peak) (g : GridDef) (o : ScanOutcome) (unrefined : Bool) (stage1 stage2 : Option Peak),
        (sc.stage = 1 ∧ best' = some p ∧ stage1 = some p ∧ stage2 = sc.stage2 ∧
            ((p.q < sc.captured.qacc ∧ o = .weak ∧ unrefined = sc.flags.unrefined) ∨
              (sc.captured.qacc ≤ p.q ∧ sc.captured.hasRefine = false ∧ o = .located ∧ unrefined = true))) ∨
          (sc.stage = 2 ∧ stage1 = sc.stage1 ∧ o = .located ∧
            ((best' = some p ∧ sc.captured.qacc ≤ p.q ∧ stage2 = some p ∧ sc.flags.unrefined = false ∧
                unrefined = false) ∨
              (sc.stage1 = some p ∧ unrefined = true ∧
                ((best' = none ∧ stage2 = sc.stage2) ∨
                  ∃ p2, best' = some p2 ∧ p2.q < sc.captured.qacc ∧ stage2 = some p2)))) →
        gridDefn c.tcu.grids p.grid = some g → p.node < g.nodeCount →
        c.tcu.cache.find? (CacheEntry.isFor p.grid p.node) = none →
        accessPasses c.mpt.windows (readAccess (.row p.grid p.node) (g.ttBase + p.node * g.stride) 512) = true →
        ∃ d, exec .cfReadAnswer ⟨c, q⟩ = .next ⟨d, q⟩ ∧
          d.sce = { c.sce with banks := c.sce.banks.set bank (some
            ({ ended with
              flags := { ended.flags with unrefined := unrefined }
              stage1 := stage1
              stage2 := stage2
              ranges := modifyAt (widen p.node) sc.ranges p.grid
              phase := .listRow o })) } ∧
          d.tcu = { c.tcu with misses := countUp c.tcu.misses, fetch := some ⟨p.grid, p.node, true⟩ } ∧
          d.mpt.carries (readAccess (.row p.grid p.node) (g.ttBase + p.node * g.stride) 512) ∧
          d.rgp = c.rgp ∧ d.lki = c.lki ∧ d.chc = c.chc ∧ d.ccu = c.ccu ∧ d.ord = c.ord ∧ d.dlv = c.dlv ∧
          d.mpt.windows = c.mpt.windows ∧ d.mpt.records = c.mpt.records ∧ d.mpt.overflow = c.mpt.overflow)) ∧
  (∀ (c : Chip) (q : List Instr) (bank : Nat) (sc : Scan) (o : ScanOutcome) (row : List (BitVec 16)) (ch : Nat)
    (found : List Arrival) (p : Peak), c.settled → runningBank c = some (bank, sc) →
    sc.phase = .listing o row ch found → finalPeak sc o = some p →
    let tt := (row.getD ch 0xFFFF).toNat
    let cell := cellRead absentCf (c.chc.channels.getD ch Channel.atReset).history ((p.t0 + tt) % 4096)
    let late : Bool := c.lki.horizon.all (fun h => decide (h ≤ p.t0 + tt))
    let old : Bool := c.lki.horizon.any (fun h => decide (p.t0 + tt + 4096 < h))
    let found' :=
      if !late && !old && cell != 255 then found ++ [⟨ch, tt, cell.toNat, sc.weights.getD ch 0 * cell.toNat⟩] else found
    ∀ met,
      let flags' := { sc.flags with partialRead := sc.flags.partialRead || late
                                    expired := sc.flags.expired || old
                                    range := sc.flags.range || met }
      (∀ next, nextReadFrom sc row (ch + 1) = (some next, met) →
        exec .cfReadAnswer ⟨c, q⟩ =
          .next ⟨c.withBank bank (some ({ sc with flags := flags', phase := .listing o row next found' })), q⟩) ∧
      (nextReadFrom sc row (ch + 1) = (none, met) → sc.cancelMark = false → c.aloneInService bank sc →
        ∃ d, exec .cfReadAnswer ⟨c, q⟩ = .next ⟨d, q⟩ ∧
          c.finishes { sc with flags := flags' } o (arrivalList found') d)) ∧
  ∀ found : List Arrival, found.Pairwise (fun a b => a.channel < b.channel) →
    ∃ ranked : List Arrival, ranked.Perm found ∧ arrivalList found = ranked.take 16 ∧
      ranked.Pairwise fun a b => b.weighted < a.weighted ∨ (a.weighted = b.weighted ∧ a.channel < b.channel)

/-- When the row fetch in flight is answered in a part that is not FAULTED, and the RUNNING scan waits for the row.
With data and a channel to read: a scan that waits for the row of its node begins the node's first pair, and one that
waits for the row of its final peak begins the arrival list. With data and no channel to read, or with an error, which
gives a row of NONE values and adds TABLE-FAULT, the node ends: with a node left, no cancel mark, no request waiting
and the next row neither cached nor outside the windows, the cursor moves on and the next row is requested. Data joins
the end of the cache when it may be kept; a cache of 64 rows drops its first and counts an eviction. A failed row is
not kept, and the fault is recorded under ROWS and shown by a progress block write, the rest of DLV as before. Nothing
else changes but the memory port. What the last node of a stage and an arrival list with no channel to read do is not
stated here. That the first channel to be read is the lowest is the model's choice (log entry 24). (R90, R91, R99,
R113, R115, R116, R117, R171) -/
def Obligations.RowFetchServesTheNode : Prop :=
  ∀ (c : Chip) (q : List Instr) (a : Access) (x : Option (List Byte)) (grid node bank : Nat) (f : RowFetch) (sc : Scan)
    (met : Bool), c.mpt.onBus = some a → a.purpose = .row grid node → (∀ b, x = some b → b.length = a.len) →
    (x = none → c.active = true) → c.rgp.partState ≠ .faulted → c.dlv.progressAsked = false → c.tcu.fetch = some f →
    runningBank c = some (bank, sc) →
    let row := (x.map parseRow).getD (List.replicate 256 0xFFFF)
    let cache :=
      if f.keep = true ∧ x.isSome = true then
        (if c.tcu.cache.length < 64 then c.tcu.cache else c.tcu.cache.tail) ++ [⟨f.grid, f.node, row⟩]
      else c.tcu.cache
    let evictions :=
      if f.keep = true ∧ x.isSome = true ∧ 64 ≤ c.tcu.cache.length then countUp c.tcu.evictions else c.tcu.evictions
    (∀ first : Nat, x.isSome = true → nextReadFrom sc row 0 = (some first, met) →
      (sc.phase = .nodeRow → sc.spanFirst ≤ sc.spanLast →
        ∃ d, exec (.rowFetchDone (readAnswerOf x)) ⟨c, q⟩ = .next ⟨d, q⟩ ∧
          d.sce = { c.sce with banks := c.sce.banks.set bank (some
            { sc with flags := { sc.flags with range := sc.flags.range || met }
                      phase := .stacking row sc.spanFirst first 0 0 0 }) } ∧
          d.tcu = { c.tcu with fetch := none, cache := cache, evictions := evictions } ∧
          d.rgp = c.rgp ∧ d.lki = c.lki ∧ d.chc = c.chc ∧ d.ccu = c.ccu ∧ d.ord = c.ord ∧ d.dlv = c.dlv ∧
          d.mpt.windows = c.mpt.windows ∧ d.mpt.records = c.mpt.records ∧ d.mpt.overflow = c.mpt.overflow) ∧
      ∀ o : ScanOutcome, sc.phase = .listRow o →
        ∃ d, exec (.rowFetchDone (readAnswerOf x)) ⟨c, q⟩ = .next ⟨d, q⟩ ∧
          d.sce = { c.sce with banks := c.sce.banks.set bank (some
            { sc with flags := { sc.flags with range := sc.flags.range || met }
                      phase := .listing o row first [] }) } ∧
          d.tcu = { c.tcu with fetch := none, cache := cache, evictions := evictions } ∧
          d.rgp = c.rgp ∧ d.lki = c.lki ∧ d.chc = c.chc ∧ d.ccu = c.ccu ∧ d.ord = c.ord ∧ d.dlv = c.dlv ∧
          d.mpt.windows = c.mpt.windows ∧ d.mpt.records = c.mpt.records ∧ d.mpt.overflow = c.mpt.overflow) ∧
    ∀ g : GridDef, nextReadFrom sc row 0 = (none, met) → sc.phase = .nodeRow → sc.spanFirst ≤ sc.spanLast →
      sc.cursor < sc.lastNode → sc.cancelMark = false → c.ccu.queue = [] → gridDefn c.tcu.grids sc.grid = some g →
      sc.cursor + 1 < g.nodeCount → cache.find? (CacheEntry.isFor sc.grid (sc.cursor + 1)) = none →
      accessPasses c.mpt.windows
        (readAccess (.row sc.grid (sc.cursor + 1)) (g.ttBase + (sc.cursor + 1) * g.stride) 512) = true →
      ∃ d, exec (.rowFetchDone (readAnswerOf x)) ⟨c, q⟩ = .next ⟨d, q⟩ ∧
        d.sce = { c.sce with banks := c.sce.banks.set bank (some
          { sc with
            flags := { sc.flags with range := sc.flags.range || met, tableFault := sc.flags.tableFault || x.isNone }
            cursor := sc.cursor + 1
            ranges := modifyAt (widen (sc.cursor + 1)) sc.ranges sc.grid
            phase := .nodeRow }) } ∧
        d.tcu = { c.tcu with
          fetch := some ⟨sc.grid, sc.cursor + 1, true⟩
          cache := cache
          evictions := evictions
          misses := countUp c.tcu.misses } ∧
        d.mpt.carries (readAccess (.row sc.grid (sc.cursor + 1)) (g.ttBase + (sc.cursor + 1) * g.stride) 512) ∧
        d.rgp = c.rgp ∧ d.lki = c.lki ∧ d.chc = c.chc ∧ d.ccu = c.ccu ∧ d.ord = c.ord ∧
        (x.isSome = true → d.dlv = c.dlv) ∧ (x = none → c.dlv.onlyShows d.dlv) ∧ d.mpt.windows = c.mpt.windows ∧
        d.mpt.records =
          (if x.isSome = true then c.mpt.records else (c.mpt.record .rows .bus a.addr c.lki.horizon).records) ∧
        d.mpt.overflow =
          (if x.isSome = true then c.mpt.overflow else (c.mpt.record .rows .bus a.addr c.lki.horizon).overflow)

/-- When the refine entry read is answered in a part that is not FAULTED, no request waits, the scan has no cancel mark
and the next row is neither cached nor outside the windows: with a count above 0, a child grid of 0 to 3 that is
defined and not the stage-1 grid, and the range inside it, stage 2 begins at the first node with the span of t0 plus
and minus the half-window and step 1, one stage-2 run is counted, and the row of the first node is requested. Otherwise
UNREFINED is raised and the row of the stage-1 peak is requested for the arrival list. An error answer, in BOUND,
LISTENING or STOPPING, does that too: it adds TABLE-FAULT, is recorded under REFINE, and a progress block write shows
it. The streams, the pending records and DLV's counters stay. (R96, R97, R90, R110, R114, R168, R171) -/
def Obligations.RefineEntryStartsStageTwo : Prop :=
  ∀ (c : Chip) (q : List Instr) (a : Access) (x : Option (List Byte)) (grid node bank : Nat) (sc : Scan) (p : Peak),
    c.mpt.onBus = some a → a.purpose = .refine grid node → (∀ b, x = some b → b.length = a.len) →
    (x = none → c.active = true) → c.rgp.partState ≠ .faulted →
    runningBank c = some (bank, sc) → sc.phase = .refineEntry → sc.stage1 = some p → sc.cancelMark = false →
    c.ccu.queue = [] →
    let b := x.getD []
    let child := byteAt b 0
    let first := leValue b 2 2
    let count := leValue b 4 2
    (∀ g : GridDef, x.isSome = true → count ≠ 0 → child ≤ 3 → child ≠ sc.grid → gridDefn c.tcu.grids child = some g →
      first + count ≤ g.nodeCount → c.tcu.cache.find? (CacheEntry.isFor child first) = none →
      accessPasses c.mpt.windows (readAccess (.row child first) (g.ttBase + first * g.stride) 512) = true →
      ∃ d, exec (.refineReadDone (readAnswerOf x)) ⟨c, q⟩ = .next ⟨d, q⟩ ∧
        d.sce = { c.sce with
          stage2Runs := countUp c.sce.stage2Runs
          banks := c.sce.banks.set bank (some
            { sc with
              stage := 2
              grid := child
              captured := ⟨g.nodeCount, g.ttmin, g.qacc, g.wmin, g.refineBase != 0, g.halfWindow⟩
              firstNode := first
              lastNode := first + count - 1
              cursor := first
              spanFirst := p.t0 - g.halfWindow
              spanLast := p.t0 + g.halfWindow
              spanStep := 1
              best := none
              ranges := modifyAt (widen first) sc.ranges child
              phase := .nodeRow }) } ∧
        d.tcu = { c.tcu with misses := countUp c.tcu.misses, fetch := some ⟨child, first, true⟩ } ∧
        d.mpt.carries (readAccess (.row child first) (g.ttBase + first * g.stride) 512) ∧
        d.rgp = c.rgp ∧ d.lki = c.lki ∧ d.chc = c.chc ∧ d.ccu = c.ccu ∧ d.ord = c.ord ∧
        c.dlv.keepsStreams d.dlv ∧ d.mpt.windows = c.mpt.windows ∧ d.mpt.records = c.mpt.records ∧ d.mpt.overflow = c.mpt.overflow) ∧
    ∀ g : GridDef, (x = none ∨ count = 0 ∨ 3 < child ∨ child = sc.grid ∨ gridDefn c.tcu.grids child = none ∨
        (∃ k, gridDefn c.tcu.grids child = some k ∧ k.nodeCount < first + count)) →
      gridDefn c.tcu.grids p.grid = some g → p.node < g.nodeCount →
      c.tcu.cache.find? (CacheEntry.isFor p.grid p.node) = none →
      accessPasses c.mpt.windows (readAccess (.row p.grid p.node) (g.ttBase + p.node * g.stride) 512) = true →
      ∃ d, exec (.refineReadDone (readAnswerOf x)) ⟨c, q⟩ = .next ⟨d, q⟩ ∧
        d.sce = { c.sce with banks := c.sce.banks.set bank (some
          { sc with
            flags := { sc.flags with unrefined := true, tableFault := sc.flags.tableFault || x.isNone }
            ranges := modifyAt (widen p.node) sc.ranges p.grid
            phase := .listRow .located }) } ∧
        d.tcu = { c.tcu with misses := countUp c.tcu.misses, fetch := some ⟨p.grid, p.node, true⟩ } ∧
        d.mpt.carries (readAccess (.row p.grid p.node) (g.ttBase + p.node * g.stride) 512) ∧
        d.rgp = c.rgp ∧ d.lki = c.lki ∧ d.chc = c.chc ∧ d.ccu = c.ccu ∧ d.ord = c.ord ∧
        c.dlv.keepsStreams d.dlv ∧ (x = none → c.dlv.showsNext d.dlv) ∧ d.mpt.windows = c.mpt.windows ∧
        d.mpt.records =
          (if x.isSome = true then c.mpt.records else (c.mpt.record .refine .bus a.addr c.lki.horizon).records) ∧
        d.mpt.overflow =
          (if x.isSome = true then c.mpt.overflow else (c.mpt.record .refine .bus a.addr c.lki.horizon).overflow)

/-- A selection finds no winner exactly when no bank is PARKED and no waiting request is eligible, that is, ripe and
of a level no bank in service holds. A PARKED winner is no lower than any PARKED bank and any eligible request. A
waiting winner is eligible, no lower than any eligible request, higher than every PARKED bank, and higher than the
eligible requests before it in the queue. (R70, R82, R84) -/
def Obligations.SelectionTakesTheHighestLevel : Prop :=
  ∀ c : Chip,
    (selectWinner c = none ↔
      (∀ sc, some sc ∈ c.sce.banks → sc.running = true) ∧ ∀ r ∈ c.ccu.queue, eligible c r = false) ∧
    (∀ bank sc, selectWinner c = some (.parked bank sc) →
      c.sce.banks[bank]? = some (some sc) ∧ sc.running = false ∧
      (∀ other, some other ∈ c.sce.banks → other.running = false → sc.request.level ≤ other.request.level) ∧
      ∀ r ∈ c.ccu.queue, eligible c r = true → sc.request.level ≤ r.level) ∧
    (∀ r, selectWinner c = some (.waiting r) →
      (∀ other, some other ∈ c.sce.banks → other.running = false → r.level < other.request.level) ∧
      ∃ before after, c.ccu.queue = before ++ r :: after ∧ eligible c r = true ∧
        (∀ x ∈ before, eligible c x = true → r.level < x.level) ∧
        ∀ x ∈ after, eligible c x = true → r.level ≤ x.level) ∧
    ∀ r : Request, eligible c r = true ↔
      (∃ h, c.lki.horizon = some h ∧ r.refTick + r.settleLag < h) ∧
        ∀ sc, some sc ∈ c.sce.banks → sc.request.level ≠ r.level

/-! ## Tables -/

/-- A request for an undefined grid or a node beyond its node count changes nothing and gives no row of the grid. A
hit gives the row, makes it the most recently used entry and counts a hit. A miss counts a miss and, when its 512
bytes pass the window check, requests the read and notes the fetch; when they do not, no read is made and the fault
is recorded under ROWS as WINDOW-READ. (R109, R114, R116, R168) -/
def Obligations.RowRequestsOfAnAbsentRow : Prop :=
  ∀ (c : Chip) (grid node : Nat),
    (gridDefn c.tcu.grids grid = none → requestRow grid node c = (c, .beyond)) ∧
    ∀ g, gridDefn c.tcu.grids grid = some g →
      (g.nodeCount ≤ node → requestRow grid node c = (c, .beyond)) ∧
      (node < g.nodeCount →
        (∀ e, c.tcu.cache.find? (fun x => x.grid == grid && x.node == node) = some e →
          requestRow grid node c =
            ({ c with tcu := { c.tcu with
                cache := c.tcu.cache.filter (fun x => !(x.grid == grid && x.node == node)) ++ [e]
                hits := countUp c.tcu.hits } }, .row e.row)) ∧
        (c.tcu.cache.find? (fun x => x.grid == grid && x.node == node) = none →
          (accessPasses c.mpt.windows (readAccess (.row grid node) (g.ttBase + node * g.stride) 512) = true →
            requestRow grid node c =
              ({ c with
                  tcu := { c.tcu with misses := countUp c.tcu.misses, fetch := some ⟨grid, node, true⟩ }
                  mpt := { c.mpt with waitTcu := c.mpt.waitTcu ++
                    [readAccess (.row grid node) (g.ttBase + node * g.stride) 512] } }, .waiting)) ∧
          (accessPasses c.mpt.windows (readAccess (.row grid node) (g.ttBase + node * g.stride) 512) = false →
            (requestRow grid node c).2 = .faulted ∧
            (requestRow grid node c).1.tcu = { c.tcu with misses := countUp c.tcu.misses } ∧
            (requestRow grid node c).1.mpt =
              c.mpt.record .rows .windowRead (g.ttBase + node * g.stride) c.lki.horizon ∧
            (c.active = false → (requestRow grid node c).1.raised causeFault) ∧
            (c.active = true → (requestRow grid node c).1.dlv.faultUnshown = true))))

/-- In a part that is not FAULTED, for answers with data and, in BOUND, LISTENING and STOPPING, with an error. An
earlier read of a reload joins the answers and changes nothing else but the memory port. When the last grid record is
answered, with three answers before it and no order waiting: a record that was read is judged, one whose read failed is
kept; the rows of each grid whose definition changed leave the cache and are counted; the banks that have read such a
grid, or whose fetch is covered, are marked TABLE-CHANGED; one invalidation is counted; the reload is over. A drained
order that marked a bank is held as a drain set; any other is written DONE with OK or TABLE-FAULT. An error is recorded
under TABLES and shown by a progress block write; the streams, the pending records and DLV's counters stay. That a
record which goes from invalid to node count 0, or back, has not changed is the model's reading (log entry 28). (R120,
R117, R119, R124, R126, R127, R118, R171) -/
def Obligations.GriddefsReloadChangesTheGrids : Prop :=
  (∀ (c : Chip) (q : List Instr) (a : Access) (x : Option (List Byte)), c.mpt.onBus = some a →
    (∀ b, x = some b → b.length = a.len) → (x = none → c.active = true) → c.rgp.partState ≠ .faulted →
    c.dlv.progressAsked = false →
    ((∃ g, a.purpose = .reloadGrid g false) ∨ (∃ n, a.purpose = .reloadStation n false) ∨
      ∃ h, a.purpose = .reloadHub h false) →
    ∃ d, exec (.reloadReadDone (readAnswerOf x)) ⟨c, q⟩ = .next ⟨d, q⟩ ∧
      d.tcu = { c.tcu with reload := c.tcu.reload.map fun r => { r with got := r.got ++ [x] } } ∧
      d.rgp = c.rgp ∧ d.lki = c.lki ∧ d.chc = c.chc ∧ d.ccu = c.ccu ∧ d.sce = c.sce ∧ d.ord = c.ord ∧
      (x.isSome = true → d.dlv = c.dlv) ∧ (x = none → c.dlv.onlyShows d.dlv) ∧ d.mpt.windows = c.mpt.windows ∧
      d.mpt.records =
        (if x.isSome = true then c.mpt.records else (c.mpt.record .tables .bus a.addr c.lki.horizon).records) ∧
      d.mpt.overflow =
        (if x.isSome = true then c.mpt.overflow else (c.mpt.record .tables .bus a.addr c.lki.horizon).overflow)) ∧
  ∀ (c : Chip) (q : List Instr) (a : Access) (x : Option (List Byte)) (g : Nat) (r : Reload),
    c.mpt.onBus = some a → a.purpose = .reloadGrid g true → (∀ b, x = some b → b.length = a.len) →
    (x = none → c.active = true) → c.rgp.partState ≠ .faulted → c.tcu.reload = some r →
    r.got.length = 3 → c.tcu.grids.length = 4 → c.tcu.waiting = [] →
    let got := r.got ++ [x]
    ∃ d, exec (.griddefsReloadDone (readAnswerOf x)) ⟨c, q⟩ = .next ⟨d, q⟩ ∧
      (∀ (n : Nat) (y : List Byte), got[n]? = some (some y) → d.tcu.grids[n]? = some (judgeGrid y)) ∧
      (∀ n : Nat, got[n]? = some none → d.tcu.grids[n]? = c.tcu.grids[n]?) ∧
      (let scope := RowScope.griddefs (changedGrids c.tcu.grids d.tcu.grids)
       let marked := markedNumbers scope c.tcu.fetch c.sce.banks
       let code := if got.any Option.isNone = true then 10 else 1
       let detail := gridBits (changedGrids c.tcu.grids d.tcu.grids) + 16 * gridBits (failedReads got)
       d.tcu.cache = c.tcu.cache.filter (fun e => !scope.covers e.grid e.node) ∧
       d.tcu.dropped = addCount c.tcu.dropped (c.tcu.cache.filter fun e => scope.covers e.grid e.node).length ∧
       d.tcu.invalidations = countUp c.tcu.invalidations ∧ d.tcu.reload = none ∧
       d.sce = { c.sce with banks := markBanks scope c.tcu.fetch c.sce.banks } ∧
       (r.order.drain = true ∧ marked ≠ [] →
         d.tcu.drain = some ⟨r.order, marked, ⟨code, 4, marked.length, detail⟩⟩ ∧ d.ord = c.ord) ∧
       (¬ (r.order.drain = true ∧ marked ≠ []) →
         d.tcu.drain = c.tcu.drain ∧
         (∀ y ∈ slotAccesses c.layout r.order.slot r.order.seq true ⟨code, 4, marked.length, detail⟩, d.mpt.carries y) ∧
         d.ord.openOrders = c.ord.openOrders.filter fun e => e.slot != r.order.slot)) ∧
      d.lki = c.lki ∧ d.chc = c.chc ∧ d.ccu = c.ccu ∧ c.dlv.keepsStreams d.dlv ∧
      (x = none → c.dlv.showsNext d.dlv) ∧ d.mpt.windows = c.mpt.windows ∧
      d.mpt.records =
        (if x.isSome = true then c.mpt.records else (c.mpt.record .tables .bus a.addr c.lki.horizon).records) ∧
      d.mpt.overflow =
        (if x.isSome = true then c.mpt.overflow else (c.mpt.record .tables .bus a.addr c.lki.horizon).overflow)

/-- When the last station entry of a reload is answered in a part that is not FAULTED, with no order waiting and the
entries inside the table, with data or, in BOUND, LISTENING and STOPPING, with an error: a channel whose entry was read
captures it, and is restarted exactly when its enabled value or a filter parameter changed, keeping its history and
last ON tick; a channel whose read failed and every channel outside the scope keep their record. A restart is counted,
and ends an ON trigger with a pick whose off tick is H − 1 and whose reason is RELOAD for a channel enabled afterwards
and DISABLED otherwise, by the old report-picks value; the picks are formed in increasing channel order. A pick is
counted by its reason; one reported takes the next pick sequence and is written at the next slot, or is counted lost
and sets the no-room mark with no room, and one not reported is counted so and changes nothing else. The station
entries follow, one invalidation is counted, and the order is written DONE with OK or TABLE-FAULT and the number of
failed reads. An error is recorded under TABLES and shown by a progress block write. (R41, R42, R54, R58, R59, R60,
R121, R126, R153, R154, R171) -/
def Obligations.StationsReloadRestartsChangedChannels : Prop :=
  (∀ (f : FormedPick) (c : Chip),
    let d := formPick f c
    let counted := c.chc.counters.countReason f.pick.reason
    (f.report = false → d = { c with chc := { c.chc with
      counters := { counted with unreported := countUp counted.unreported } } }) ∧
    (f.report = true → d.chc = { c.chc with counters := counted } ∧
      (c.dlv.pick.hasRoom = true →
        let seq := if c.dlv.pick.sequence.toNat = 4294967295 then 1 else c.dlv.pick.sequence + 1
        d.dlv = { c.dlv with pick := { c.dlv.pick with sequence := seq, written := c.dlv.pick.written + 1 } } ∧
        d.mpt.waitDlv = c.mpt.waitDlv ++ [writeAccess (.record .pick)
          (c.layout.picks + (c.dlv.pick.written.toNat % c.dlv.pick.slots) * 32) (pickBytes seq f.pick)]) ∧
      (c.dlv.pick.hasRoom = false →
        d.dlv.pick = { c.dlv.pick with noRoom := true } ∧
        d.dlv.counters = { c.dlv.counters with lostPicks := countUp c.dlv.counters.lostPicks } ∧
        (c.dlv.pick.noRoom = false → d.raised causeRoom)))) ∧
  ∀ (c : Chip) (q : List Instr) (a : Access) (x : Option (List Byte)) (n : Nat) (r : Reload), c.mpt.onBus = some a →
    a.purpose = .reloadStation n true → (∀ b, x = some b → b.length = a.len) → (x = none → c.active = true) →
    c.rgp.partState ≠ .faulted → c.tcu.reload = some r →
    c.tcu.waiting = [] → c.chc.channels.length = 256 → c.tcu.stationEntries.length = 256 →
    r.order.first + r.got.length < 256 →
    let got := r.got ++ [x]
    let restarting : List (Nat × Channel × Option StationParams) := (numbered 0 got).filterMap fun e =>
      match e.2, c.chc.channels[r.order.first + e.1]? with
      | some y, some ch =>
        if reloadRestarts ch.params (stationParams (parseStation y)) = true then
          some (r.order.first + e.1, ch, stationParams (parseStation y))
        else none
      | _, _ => none
    let picks : List FormedPick := restarting.filterMap fun e =>
      if e.2.1.trigger = .on then
        some ⟨⟨e.1, e.2.1.onTick.getD 0, c.lki.horizon.getD 0 - 1, e.2.1.peakCf.getD 0, e.2.1.peakTick.getD 0,
          if e.2.2.isSome = true then .reload else .disabled⟩, (e.2.1.params.map StationParams.reportPicks).getD false⟩
      else none
    let formed := formPicks picks c
    ∃ d, exec (.stationsReloadDone (readAnswerOf x)) ⟨c, q⟩ = .next ⟨d, q⟩ ∧
      (∀ (k : Nat) (y : List Byte) (ch : Channel), got[k]? = some (some y) →
        c.chc.channels[r.order.first + k]? = some ch →
        d.tcu.stationEntries[r.order.first + k]? = some (some (parseStation y)) ∧
        d.chc.channels[r.order.first + k]? = some
          (if reloadRestarts ch.params (stationParams (parseStation y)) = true then
            { ch with
              params := stationParams (parseStation y)
              invalid := !stationValid (parseStation y)
              xPrev := none
              sta := 0
              lta := ((stationParams (parseStation y)).map fun p => 16 * p.floor).getD 0
              warm := 0
              trigger := .off
              onTick := none
              peakCf := none
              peakTick := none }
          else { ch with params := stationParams (parseStation y), invalid := !stationValid (parseStation y) })) ∧
      (∀ m : Nat, (m < r.order.first ∨ r.order.first + got.length ≤ m ∨ got[m - r.order.first]? = some none) →
        d.chc.channels[m]? = c.chc.channels[m]? ∧ d.tcu.stationEntries[m]? = c.tcu.stationEntries[m]?) ∧
      d.chc.counters =
        { formed.chc.counters with restarts := addCount c.chc.counters.restarts restarting.length } ∧
      d.dlv.pick = formed.dlv.pick ∧ d.dlv.counters = formed.dlv.counters ∧
      (∀ y ∈ formed.mpt.waitDlv, d.mpt.carries y) ∧
      d.tcu.invalidations = countUp c.tcu.invalidations ∧ d.tcu.reload = none ∧
      (∀ y ∈ slotAccesses c.layout r.order.slot r.order.seq true
          ⟨if got.any Option.isNone = true then 10 else 1, 5 + 1024 * r.order.first + 262144 * r.order.count, 0,
            (got.filter Option.isNone).length⟩, d.mpt.carries y) ∧
      d.ord.openOrders = c.ord.openOrders.filter (fun e => e.slot != r.order.slot) ∧
      d.lki = c.lki ∧ d.ccu = c.ccu ∧ d.sce = c.sce ∧ d.tcu.grids = c.tcu.grids ∧ d.tcu.cache = c.tcu.cache ∧
      (x = none → c.dlv.showsNext d.dlv) ∧ d.mpt.windows = c.mpt.windows ∧
      d.mpt.records =
        (if x.isSome = true then c.mpt.records else (c.mpt.record .tables .bus a.addr c.lki.horizon).records) ∧
      d.mpt.overflow =
        (if x.isSome = true then c.mpt.overflow else (c.mpt.record .tables .bus a.addr c.lki.horizon).overflow)

/-- When the last hub entry is answered in a part that is not FAULTED, with fifteen answers before it and no order
waiting, with data or, in BOUND, LISTENING and STOPPING, with an error: an entry that was read replaces the old one,
and one whose read failed is kept. A hub enabled before and not now is DISABLED; one enabled now and not before leaves
DISABLED for SEEKING when the part is LISTENING; every other hub keeps its state. H is not lower, one invalidation is
counted, and the order is written DONE with OK or TABLE-FAULT. An error is recorded under TABLES and shown by a
progress block write; when H stays, no other fault is recorded. (R37, R22, R122, R126, R30, R171) -/
def Obligations.HubsReloadDisablesAndSeeks : Prop :=
  ∀ (c : Chip) (q : List Instr) (a : Access) (x : Option (List Byte)) (n : Nat) (r : Reload), c.mpt.onBus = some a →
    a.purpose = .reloadHub n true → (∀ b, x = some b → b.length = a.len) → (x = none → c.active = true) →
    c.rgp.partState ≠ .faulted → c.tcu.reload = some r →
    c.tcu.waiting = [] → r.got.length = 15 → c.lki.hubs.length = 16 → c.tcu.hubEntries.length = 16 →
    let got := r.got ++ [x]
    ∃ d, exec (.hubsReloadDone (readAnswerOf x)) ⟨c, q⟩ = .next ⟨d, q⟩ ∧
      (∀ (k : Nat) (y : List Byte), got[k]? = some (some y) → d.tcu.hubEntries[k]? = some (some (parseHubEntry y))) ∧
      (∀ k : Nat, got[k]? = some none → d.tcu.hubEntries[k]? = c.tcu.hubEntries[k]?) ∧
      (∀ (k : Nat) (h : Hub) (old new : Option HubEntry), c.lki.hubs[k]? = some h → c.tcu.hubEntries[k]? = some old →
        d.tcu.hubEntries[k]? = some new →
        (d.lki.hubs[k]?).map Hub.state = some
          (if hubEnabled old = true ∧ hubEnabled new = false then .disabled
          else if hubEnabled old = false ∧ hubEnabled new = true ∧ c.rgp.partState = .listening ∧ h.state = .disabled then
            .seeking
          else h.state)) ∧
      (∀ hz, c.lki.horizon = some hz → ∃ h1, d.lki.horizon = some h1 ∧ hz ≤ h1) ∧
      d.tcu.invalidations = countUp c.tcu.invalidations ∧ d.tcu.reload = none ∧
      (∀ y ∈ slotAccesses c.layout r.order.slot r.order.seq true
          ⟨if got.any Option.isNone = true then 10 else 1, 6, 0, (got.filter Option.isNone).length⟩, d.mpt.carries y) ∧
      (x = none → c.dlv.showsNext d.dlv) ∧ d.mpt.windows = c.mpt.windows ∧
      (let recorded := if x.isSome = true then c.mpt else c.mpt.record .tables .bus a.addr c.lki.horizon
       (∀ f : FaultRecord, some f ∈ recorded.records → f.source = .tables → some f ∈ d.mpt.records) ∧
       (d.lki.horizon = c.lki.horizon →
         d.mpt.records = recorded.records ∧ d.mpt.overflow = recorded.overflow))

/-- When the settings block of a CONFIG reload is answered in a part that is not FAULTED, with no order waiting. A
valid block becomes the settings in force with the result OK, and LKI makes the stall check against the new Lmax at
once: a LIVE hub whose next_tick is more than it below lead is STALLED with an empty buffer and its place kept, every
other hub keeps its state and its place, and the links, the channels, CCU and SCE are as the update of H that follows
the check leaves them. A change of hub state sets LINK in BOUND, LISTENING and STOPPING. The other tables stay. An
invalid block, with the result BAD-TABLE, and a bus error, with the result TABLE-FAULT, leave the settings and every
other table, LKI, CHC, CCU, SCE, the streams, the pending records and DLV's counters as they are; the error is recorded
under TABLES and shown by a progress block write. In each case one invalidation is counted, the reload is over and the
order is written DONE. (R123, R36, R31, R38, R79, R126, R171) -/
def Obligations.ConfigReloadReplacesTheSettings : Prop :=
  ∀ (c : Chip) (q : List Instr) (a : Access) (r : Reload), c.mpt.onBus = some a → a.purpose = .reloadConfig →
    c.rgp.partState ≠ .faulted → c.tcu.reload = some r → c.tcu.waiting = [] →
    (∀ b : List Byte, b.length = a.len → settingsValid c.tcu.grids (parseSettings b) = true →
      let s := parseSettings b
      let adopted := updateHorizon { c with lki := Lki.stall s.lmax c.lki, tcu := { c.tcu with settings := some s } }
      ∃ d, exec (.configReloadDone (.data b)) ⟨c, q⟩ = .next ⟨d, q⟩ ∧ d.tcu.settings = some s ∧
        d.lki = adopted.lki ∧ d.chc = adopted.chc ∧ d.ccu = adopted.ccu ∧ d.sce = adopted.sce ∧
        (∀ (m : Nat) (g : Hub) (n lead : Nat), c.lki.hubs[m]? = some g → g.state = .live → g.nextTick = some n →
          c.lki.lead = some lead → n + s.lmax < lead →
          d.lki.hubs[m]? = some { g with state := .stalled, buffer := [] }) ∧
        (∀ (m : Nat) (g : Hub), c.lki.hubs[m]? = some g →
          (g.state ≠ .live ∨ ∀ n lead, g.nextTick = some n → c.lki.lead = some lead → lead ≤ n + s.lmax) →
          (d.lki.hubs[m]?).map (fun h => (h.state, h.nextTick)) = some (g.state, g.nextTick)) ∧
        (c.active = true → d.lki.hubs.map Hub.state ≠ c.lki.hubs.map Hub.state → d.raised causeLink) ∧
        d.tcu.grids = c.tcu.grids ∧ d.tcu.hubEntries = c.tcu.hubEntries ∧
        d.tcu.stationEntries = c.tcu.stationEntries ∧
        d.tcu.invalidations = countUp c.tcu.invalidations ∧ d.tcu.reload = none ∧
        ∀ x ∈ slotAccesses c.layout r.order.slot r.order.seq true ⟨1, 7, 0, 0⟩, d.mpt.carries x) ∧
    ∀ x : Option (List Byte), (∀ b, x = some b → b.length = a.len) →
      (∀ b, x = some b → settingsValid c.tcu.grids (parseSettings b) = false) →
      ∃ d, exec (.configReloadDone (readAnswerOf x)) ⟨c, q⟩ = .next ⟨d, q⟩ ∧
        d.tcu = { c.tcu with reload := none, invalidations := countUp c.tcu.invalidations } ∧ d.lki = c.lki ∧
        d.chc = c.chc ∧ d.ccu = c.ccu ∧ d.sce = c.sce ∧ c.dlv.keepsStreams d.dlv ∧
        (x.isSome = true → d.rgp = c.rgp) ∧ d.mpt.windows = c.mpt.windows ∧
        d.mpt.records =
          (if x.isSome = true then c.mpt.records else (c.mpt.record .tables .bus a.addr c.lki.horizon).records) ∧
        d.mpt.overflow =
          (if x.isSome = true then c.mpt.overflow else (c.mpt.record .tables .bus a.addr c.lki.horizon).overflow) ∧
        (x = none → c.active = true → c.dlv.showsNext d.dlv) ∧
        ∀ y ∈ slotAccesses c.layout r.order.slot r.order.seq true ⟨if x.isSome = true then 11 else 10, 7, 0, 0⟩,
          d.mpt.carries y

/-! ## Orders -/

/-- In BOUND, LISTENING and STOPPING with the timer running: it restarts with the period in force. With a poll in
progress the repeat mark is set and nothing else changes. With none, a return block read is in flight afterwards, and a
poll begins, which is counted and requests the 32 slot reads unless a drain is pending, and then ends at once.
Elsewhere, in a settled part, the command changes nothing (log entry 2). That a poll is counted when its slot reads are
requested, and so one during a drain is not, is the model's reading (log entry 16), and that the 32 reads are requested
together is its choice (log entry 29). (R131, R132, R139, R151) -/
def Obligations.PollTimerBeginsAPoll : Prop :=
  ∀ (c : Chip) (q : List Instr),
    (c.settled → ¬ (c.ord.timer.isSome = true ∧ c.active = true) → exec .pollTimerExpiry ⟨c, q⟩ = .next ⟨c, q⟩) ∧
    (c.ord.timer.isSome = true → c.active = true →
      (c.settled → c.ord.poll.isSome = true →
        exec .pollTimerExpiry ⟨c, q⟩ =
          .next ⟨{ c with ord := { c.ord with timer := some (pollPeriodInForce c), repeatMark := true } }, q⟩) ∧
      (c.ord.poll = none →
        ∃ d, exec .pollTimerExpiry ⟨c, q⟩ = .next ⟨d, q⟩ ∧ d.dlv.returnRead = true ∧
          (c.ord.drainPending = none →
            d.ord = { c.ord with timer := some (pollPeriodInForce c), poll := some [], polls := countUp c.ord.polls } ∧
            ∀ k < 32, d.mpt.carries (readAccess (.slotRead k) (c.layout.orders + 64 * k) 64)) ∧
          (c.ord.drainPending.isSome = true → d.ord = { c.ord with timer := some (pollPeriodInForce c) }) ∧
          d.rgp = c.rgp ∧ d.lki = c.lki ∧ d.chc = c.chc ∧ d.ccu = c.ccu ∧ d.sce = c.sce ∧ d.tcu = c.tcu ∧
          d.dlv.pick = c.dlv.pick ∧ d.dlv.event = c.dlv.event ∧ d.dlv.pendingEvents = c.dlv.pendingEvents ∧
          d.dlv.counters = c.dlv.counters))

/-- The take run: with no slot it may take the run ends, and with some it takes the one of the lowest index with the
others as its duplicates; a drained INVALIDATE of a row scope then ends the run, and any other goes on, within a bound
of 32 takes (each writes a slot of its own). A slot may be taken when it read POSTED with the expected sequence, is not
on the open-order list and has not been written in the run. In a part that is not FAULTED with no write to begin: an
answer before the last joins the poll and changes nothing else but the memory port. After the last answer, with an
order to take, the take run runs over the 32 slots read, and the part is as it leaves it, with the poll ended, a
progress block write in flight or to follow, and, with the repeat mark set and no drain pending, a new poll begun and
counted. After the last answer, with no order to take, the poll ends and nothing is taken; with the repeat mark set, in
BOUND, LISTENING or STOPPING and with no drain pending, a new poll begins and is counted. An error answer, in those
three states, joins the poll as a slot that is not posted: it is recorded under ORDERS, and a progress block write is
in flight or to follow; the streams, the pending records and DLV's counters stay. That the repeated poll is counted
when its slot reads are requested is the model's reading (log entry 16). (R131, R132, R133, R134, R138, R143, R171,
R172) -/
def Obligations.SlotReadsGatherThePoll : Prop :=
  (∀ (n : Nat) (slots : List (Option (List Byte))) (c : Chip),
    (c.ord.takeables slots = [] → takeRun (n + 1) slots c = c) ∧
    ∀ (slot : Nat) (b : List Byte) (others : List (Nat × List Byte)), c.ord.takeables slots = (slot, b) :: others →
      takeRun (n + 1) slots c =
        if drainsRows b then takeSlot slot b others c else takeRun n slots (takeSlot slot b others c)) ∧
  ∀ (c : Chip) (q : List Instr) (a : Access) (x : Option (List Byte)) (k : Nat) (got : List (Option (List Byte))),
    c.mpt.onBus = some a → a.purpose = .slotRead k → (∀ b, x = some b → b.length = a.len) →
    (x = none → c.active = true) → c.rgp.partState ≠ .faulted → c.dlv.progressAsked = false → c.ord.poll = some got →
    (got.length + 1 < 32 →
      ∃ d, exec (.orderSlotReadDone (readAnswerOf x)) ⟨c, q⟩ = .next ⟨d, q⟩ ∧
        d.ord = { c.ord with poll := some (got ++ [x]) } ∧ d.rgp = c.rgp ∧ d.lki = c.lki ∧ d.chc = c.chc ∧
        d.ccu = c.ccu ∧ d.sce = c.sce ∧ d.tcu = c.tcu ∧ (x.isSome = true → d.dlv = c.dlv) ∧
        (x = none → c.dlv.onlyShows d.dlv) ∧ d.mpt.windows = c.mpt.windows ∧
        d.mpt.records =
          (if x.isSome = true then c.mpt.records else (c.mpt.record .orders .bus a.addr c.lki.horizon).records)) ∧
    (∀ (slot : Nat) (b : List Byte) (others : List (Nat × List Byte)), got.length + 1 = 32 →
      { c.ord with takeRun := some [] }.takeables (got ++ [x]) = (slot, b) :: others →
      let start : Chip :=
        { c with
          mpt := { (if x.isSome = true then c.mpt else c.mpt.record .orders .bus a.addr c.lki.horizon) with onBus := none }
          dlv := if x.isSome = true then c.dlv else { c.dlv with faultUnshown := true }.ask
          ord := { c.ord with poll := some (got ++ [x]), takeRun := some [] } }
      let first := takeSlot slot b others start
      let last := if drainsRows b then first else takeRun 31 (got ++ [x]) first
      ∃ d, exec (.orderSlotReadDone (readAnswerOf x)) ⟨c, q⟩ = .next ⟨d, q⟩ ∧
        d.rgp = last.rgp ∧ d.lki = last.lki ∧ d.chc = last.chc ∧ d.ccu = last.ccu ∧ d.sce = last.sce ∧
        d.tcu = last.tcu ∧ last.dlv.keepsStreams d.dlv ∧ d.mpt.windows = last.mpt.windows ∧
        d.mpt.records = last.mpt.records ∧ d.mpt.overflow = last.mpt.overflow ∧
        (∀ y, last.mpt.carries y → d.mpt.carries y) ∧
        (last.ord.repeatMark = false → d.ord = { last.ord with poll := none, takeRun := none }) ∧
        (last.ord.repeatMark = true → last.active = true → last.ord.drainPending = none →
          d.ord = { last.ord with
            poll := some [], repeatMark := false, takeRun := none, polls := countUp last.ord.polls }) ∧
        (last.active = true → c.dlv.showsNext d.dlv)) ∧
    (32 ≤ got.length + 1 →
      (∀ (n : Nat) (y : List Byte), (got ++ [x])[n]? = some (some y) → byteAt y 0 = 1 →
        BitVec.ofNat 8 (byteAt y 1) = c.ord.expected → ∃ e ∈ c.ord.openOrders, e.slot = n) →
      ∃ d, exec (.orderSlotReadDone (readAnswerOf x)) ⟨c, q⟩ = .next ⟨d, q⟩ ∧
        (c.ord.repeatMark = false →
          d.ord = { c.ord with poll := none, takeRun := none } ∧ (x.isSome = true → d.dlv = c.dlv)) ∧
        (c.ord.repeatMark = true → c.active = true → c.ord.drainPending = none →
          d.ord = { c.ord with poll := some [], repeatMark := false, takeRun := none, polls := countUp c.ord.polls } ∧
          d.dlv.returnRead = true) ∧
        c.dlv.keepsStreams d.dlv ∧ (x = none → c.dlv.showsNext d.dlv) ∧
        d.rgp = c.rgp ∧ d.lki = c.lki ∧ d.chc = c.chc ∧ d.ccu = c.ccu ∧ d.sce = c.sce ∧ d.tcu = c.tcu ∧
        d.mpt.windows = c.mpt.windows ∧
        d.mpt.records =
          (if x.isSome = true then c.mpt.records else (c.mpt.record .orders .bus a.addr c.lki.horizon).records))

/-- Taking a slot, whatever its bytes and whatever the dispatch does, increases the expected sequence by 1 modulo 256
and the orders-taken counter by 1, the duplicates counter by the number of other slots of the sequence, and the torn
counter by 1 exactly when the seal is not the complement of the sequence. Each other slot is written DONE with
DUPLICATE (that they are written in rising order is the model's choice, log entry 30, and that the result words which
R180 does not give are 0, here and for BAD-KIND and the other plain codes, is its reading, log entry 23). Then a slot whose seal fails is
DONE with TORN, one of an unknown kind DONE with BAD-KIND, and any other is dispatched with the fields of its kind.
SCAN: the four checks in their order give BAD-PARAM, NOT-LISTENING, STALE and BUSY, each DONE with nothing else
changed; otherwise an ORDERED request with the next number joins the queue, the slot is TAKEN with that number, and CCU
offers the ripe requests, which changes nothing with a bank in service or none ripe. INVALIDATE, during a poll: a
drained row scope sets the drain-pending marker; behind an order under way it waits, TAKEN; a malformed scope is DONE
with BAD-SCOPE; ALL, GRID and NODES (a count above 64 as GRID) drop the rows they cover, mark the banks, count one
invalidation, and are DONE with OK, or, drained with a bank marked, TAKEN with the drain set held; the other scopes
request their reads and are TAKEN. A report clears the marker of its order and repeats the poll. What a scope covers
and which banks it marks are stated. CANCEL: 0 and a number found nowhere are NOT-FOUND; a waiting request and a PARKED
scan finish CANCELLED at once, with FOUND, their SCAN slot first; a RUNNING scan gets the cancel mark and the slot is
TAKEN. MARK: with eight records pending the marker is lost, LOST; otherwise it takes the next event sequence, and is
written, with room and none pending, or joins the pending records, with no room, OK. FAULT-CLEAR has a statement of its
own. That a reload requests all its reads in this one dispatch is the model's reading (log entry 20), and so is the
order inside one event: a SCAN slot is TAKEN before CCU offers, and a selection follows the CANCEL's slot (log entry
22). That a number is given whether or not a waiting request still holds it, and that a CANCEL then takes the request
created first and removes the others, is its choice (log entry 35). (R133, R135, R136, R73, R69, R103, R138, R118, R119,
R120, R121, R122, R123, R124, R126, R140, R141, R156, R146, R180) -/
def Obligations.EachTakeConsumesItsSequence : Prop :=
  (∀ (slot : Nat) (b : List Byte) (others : List (Nat × List Byte)) (c : Chip),
    (takeSlot slot b others c).ord.expected = c.ord.expected + 1 ∧
      (takeSlot slot b others c).ord.taken = countUp c.ord.taken ∧
      (takeSlot slot b others c).ord.duplicates = addCount c.ord.duplicates others.length ∧
      (takeSlot slot b others c).ord.torn = (if sealFits b then c.ord.torn else countUp c.ord.torn) ∧
      (let seq : BitVec 8 := BitVec.ofNat 8 (byteAt b 1)
       let e : Chip := others.foldl (fun e o =>
         { e with ord := { e.ord with duplicates := countUp e.ord.duplicates } }.slotDone o.1
           (BitVec.ofNat 8 (byteAt o.2 1)) ⟨2, 0, 0, 0⟩) c
       let d :=
         if sealFits b then
           match byteAt b 4 with
           | 1 => dispatchScan slot seq ⟨byteAt b 5, byteAt b 8, byteAt b 9, leValue b 10 2, leValue b 12 2, leValue b 16 8,
               leValue b 24 8⟩ e
           | 2 => dispatchInval ⟨slot, seq, byteAt b 8, byteAt b 10, leValue b 12 2, leValue b 14 2, byteAt b 9 != 0⟩ e
           | 3 => dispatchCancel slot seq (leValue b 8 2) e
           | 4 => dispatchMark slot seq (BitVec.ofNat 32 (leValue b 8 4)) e
           | 5 => dispatchFaultClear slot seq (byteAt b 8) e
           | _ => e.slotDone slot seq ⟨4, 0, 0, 0⟩
         else { e with ord := { e.ord with torn := countUp e.ord.torn } }.slotDone slot seq ⟨3, 0, 0, 0⟩
       takeSlot slot b others c =
         { d with ord := { d.ord with expected := d.ord.expected + 1, taken := countUp d.ord.taken } })) ∧
  (∀ (slot : Nat) (seq : BitVec 8) (o : ScanOrder) (c : Chip),
    let bad : Prop := 3 < o.grid ∨ 3 < o.level ∨ o.t0End < o.t0Start ∨ (o.step ≠ 1 ∧ o.step ≠ 2 ∧ o.step ≠ 4) ∨
      2048 < (o.t0End - o.t0Start) / o.step + 1
    ((bad ∨ gridDefn c.tcu.grids o.grid = none) → dispatchScan slot seq o c = c.slotDone slot seq ⟨5, 0, 0, 0⟩) ∧
    ∀ g : GridDef, gridDefn c.tcu.grids o.grid = some g →
      (o.count ≠ 0 → g.nodeCount < o.first + o.count → dispatchScan slot seq o c = c.slotDone slot seq ⟨5, 0, 0, 0⟩) ∧
      (¬ bad → (o.count = 0 ∨ o.first + o.count ≤ g.nodeCount) →
        (c.rgp.partState ≠ .listening → dispatchScan slot seq o c = c.slotDone slot seq ⟨6, 0, 0, 0⟩) ∧
        (∀ hz, c.rgp.partState = .listening → c.lki.horizon = some hz → o.t0Start + g.ttmin + 4096 < hz →
          dispatchScan slot seq o c = c.slotDone slot seq ⟨7, 0, 0, 0⟩) ∧
        (c.rgp.partState = .listening → (∀ hz, c.lki.horizon = some hz → hz ≤ o.t0Start + g.ttmin + 4096) →
          (8 ≤ c.ccu.queue.length → dispatchScan slot seq o c = c.slotDone slot seq ⟨8, 0, 0, 0⟩) ∧
          (c.ccu.queue.length < 8 →
            let n := if 65535 ≤ c.ccu.requestCounter then 1 else c.ccu.requestCounter + 1
            let added : Chip := { c with ccu := { c.ccu with
              queue := c.ccu.queue ++ [⟨n, some (slot, seq), o.level, o.t0End, o.grid, o.first, o.count, o.t0Start,
                o.t0End, o.step, (c.tcu.settings.map Settings.settleLag).getD 0, none, 0, 0, 0⟩]
              requestCounter := n } }
            dispatchScan slot seq o c = offerRipe (added.slotTaken slot seq .scan n) ∧
            ((c.sce.banks.any Option.isSome = true ∨
                ∀ r ∈ added.ccu.queue, ∀ hz, c.lki.horizon = some hz → hz ≤ r.refTick + r.settleLag) →
              dispatchScan slot seq o c = added.slotTaken slot seq .scan n))))) ∧
  (∀ (o : InvalOrder) (c : Chip), c.ord.poll.isSome = true → c.active = true →
    let held : Chip :=
      if o.drain = true ∧ 1 ≤ o.scope ∧ o.scope ≤ 4 then
        { c with ord := { c.ord with drainPending := some (o.slot, o.seq) } }
      else c
    ((c.tcu.reload.isSome = true ∨ c.tcu.drain.isSome = true) →
      dispatchInval o c =
        { held with tcu := { c.tcu with waiting := c.tcu.waiting ++ [o] } }.slotTaken o.slot o.seq .invalidate 0) ∧
    (c.tcu.reload = none → c.tcu.drain = none →
      ((o.scope = 0 ∨ 7 < o.scope ∨ (o.scope = 2 ∧ 3 < o.grid) ∨
          (o.scope = 3 ∧ (3 < o.grid ∨ o.count = 0 ∨ 8192 < o.first + o.count)) ∨
          (o.scope = 5 ∧ (o.count = 0 ∨ 256 < o.first + o.count))) →
        dispatchInval o c = held.slotReported o ⟨9, 0, 0, 0⟩) ∧
      (∀ (scope : RowScope) (word : Nat),
        (o.scope = 1 ∧ scope = .all ∧ word = 1) ∨
          (o.grid ≤ 3 ∧ (o.scope = 2 ∨ (o.scope = 3 ∧ 64 < o.count ∧ o.first + o.count ≤ 8192)) ∧
            scope = .grid o.grid ∧ word = 2 + 256 * o.grid) ∨
          (o.grid ≤ 3 ∧ o.scope = 3 ∧ 0 < o.count ∧ o.count ≤ 64 ∧ o.first + o.count ≤ 8192 ∧
            scope = .nodes o.grid o.first o.count ∧ word = 3 + 256 * o.grid + 1024 * o.first + 8388608 * o.count) →
        let marked := markedNumbers scope c.tcu.fetch c.sce.banks
        let rows := (c.tcu.cache.filter fun e => scope.covers e.grid e.node).length
        let performed : Chip :=
          { held with
            sce := { c.sce with banks := markBanks scope c.tcu.fetch c.sce.banks }
            tcu := { c.tcu with
              cache := c.tcu.cache.filter fun e => !scope.covers e.grid e.node
              dropped := addCount c.tcu.dropped rows
              invalidations := countUp c.tcu.invalidations
              fetch := c.tcu.fetch.map fun f => { f with keep := f.keep && !scope.covers f.grid f.node } } }
        let r : SlotResult := ⟨1, word, marked.length, rows⟩
        dispatchInval o c =
          if o.drain = true ∧ marked ≠ [] then
            { performed with tcu := { performed.tcu with drain := some ⟨o, marked, r⟩ } }.slotTaken o.slot o.seq
              .invalidate 0
          else performed.slotReported o r) ∧
      (∀ reads : List Access,
        (o.scope = 4 ∧ reads = (List.range 4).map fun g =>
            readAccess (.reloadGrid g (g == 3)) (c.layout.grids + 64 * g) 64) ∨
          (o.scope = 5 ∧ 0 < o.count ∧ o.first + o.count ≤ 256 ∧ reads = (List.range o.count).map fun k =>
            readAccess (.reloadStation (o.first + k) (k + 1 == o.count)) (c.layout.stations + 32 * (o.first + k)) 32) ∨
          (o.scope = 6 ∧ reads = (List.range 16).map fun h =>
            readAccess (.reloadHub h (h == 15)) (c.layout.hubs + 32 * h) 32) ∨
          (o.scope = 7 ∧ reads = [readAccess .reloadConfig c.layout.settings 256]) →
        dispatchInval o c =
          { held with
            tcu := { c.tcu with reload := some ⟨o, []⟩ }
            mpt := { c.mpt with waitTcu := c.mpt.waitTcu ++ reads } }.slotTaken o.slot o.seq .invalidate 0))) ∧
  (∀ (scope : RowScope) (fetch : Option RowFetch) (sc : Scan),
    (∀ grid node, scope.covers grid node = true ↔
      match scope with
      | .all => True
      | .grid g => grid = g
      | .nodes g first count => grid = g ∧ first ≤ node ∧ node < first + count
      | .griddefs changed => grid ∈ changed) ∧
    (marksScan scope fetch sc = true ↔
      (match scope with
        | .all => ∃ (k : Nat) (range : Nat × Nat), sc.ranges[k]? = some (some range)
        | .grid g => ∃ range : Nat × Nat, sc.ranges[g]? = some (some range)
        | .nodes g first count => ∃ low high : Nat,
          sc.ranges[g]? = some (some (low, high)) ∧ low < first + count ∧ first ≤ high
        | .griddefs changed => ∃ g ∈ changed, ∃ range : Nat × Nat, sc.ranges[g]? = some (some range)) ∨
        (sc.running = true ∧ ∃ f, fetch = some f ∧ scope.covers f.grid f.node = true))) ∧
  (∀ (slot number : Nat) (seq : BitVec 8) (c : Chip),
    (number = 0 → dispatchCancel slot seq number c = c.slotDone slot seq ⟨13, 0, 0, 0⟩) ∧
    (number ≠ 0 →
      (∀ r, c.ccu.queue.find? (fun r => r.number == number) = some r →
        ∃ e : Chip, dispatchCancel slot seq number c = e.slotDone slot seq ⟨12, number, 1, 0⟩ ∧
          e.ccu = { c.ccu with
            queue := c.ccu.queue.filter fun r => r.number != number
            target := if c.ccu.target.map CollapseTarget.number = some number then none else c.ccu.target } ∧
          c.delivers ⟨number, r.order, r.level, r.refTick, r.declaredVotes, r.peakVotes, r.merged, .cancelled, noFlags,
            none, none, []⟩ e ∧
          (r.order = none → e.ord = c.ord) ∧
          (∀ k s, r.order = some (k, s) →
            (∀ y ∈ slotAccesses c.layout k s true ⟨1, number, 5, c.dlv.sequenceGiven⟩, e.mpt.carries y) ∧
            e.ord.openOrders = c.ord.openOrders.filter fun x => x.slot != k) ∧
          e.lki = c.lki ∧ e.chc = c.chc ∧ e.sce = c.sce ∧ e.tcu = c.tcu) ∧
      (c.ccu.queue.find? (fun r => r.number == number) = none →
        (bankOf number c = none → dispatchCancel slot seq number c = c.slotDone slot seq ⟨13, number, 0, 0⟩) ∧
        ∀ (bank : Nat) (sc : Scan), bankOf number c = some (bank, sc) →
          (sc.running = true → dispatchCancel slot seq number c =
            (c.withBank bank (some { sc with cancelMark := true, cancels := sc.cancels ++ [(slot, seq)] })).slotTaken
              slot seq .cancel 0) ∧
          (sc.running = false →
            ∃ e : Chip, dispatchCancel slot seq number c =
                (let d := e.slotDone slot seq ⟨12, number, 2, 0⟩
                 if (runningBank e).isSome = true then d else engine .select d) ∧
              e.sce = { c.sce with banks := c.sce.banks.set bank none } ∧
              e.ccu = { c.ccu with
                target := if c.ccu.target.map CollapseTarget.number = some number then none else c.ccu.target } ∧
              c.delivers (scanOutcome sc .cancelled []) e ∧
              (∀ k s, sc.request.order = some (k, s) →
                ∀ y ∈ slotAccesses c.layout k s true ⟨1, number, 5, c.dlv.sequenceGiven⟩, e.mpt.carries y) ∧
              e.lki = c.lki ∧ e.chc = c.chc ∧ (c.tcu.drain = none → e.tcu = c.tcu))))) ∧
  ∀ (slot : Nat) (seq : BitVec 8) (tag : Word32) (c : Chip),
    let next := if c.dlv.event.sequence.toNat = 4294967295 then 1 else c.dlv.event.sequence + 1
    let counted := { c.dlv.counters with markers := countUp c.dlv.counters.markers }
    (8 ≤ c.dlv.pendingEvents.length →
      ∃ e : Chip, dispatchMark slot seq tag c = e.slotDone slot seq ⟨14, 0, 0, 0⟩ ∧
        e.dlv.counters = { counted with lostEvents := countUp counted.lostEvents } ∧
        e.dlv.event = { c.dlv.event with noRoom := true } ∧ e.dlv.pendingEvents = c.dlv.pendingEvents ∧
        e.lki = c.lki ∧ e.chc = c.chc ∧ e.ccu = c.ccu ∧ e.sce = c.sce ∧ e.tcu = c.tcu ∧ e.ord = c.ord) ∧
    (c.dlv.pendingEvents.length < 8 →
      ∃ e : Chip, dispatchMark slot seq tag c = e.slotDone slot seq ⟨1, next.toNat, 0, 0⟩ ∧ e.dlv.counters = counted ∧
        e.dlv.event.sequence = next ∧
        (c.dlv.pendingEvents = [] → c.dlv.event.hasRoom = true →
          e.dlv = { c.dlv with
            counters := counted
            event := { c.dlv.event with sequence := next, written := c.dlv.event.written + 1 } } ∧ e.rgp = c.rgp ∧
          e.mpt = { c.mpt with waitDlv := c.mpt.waitDlv ++ [writeAccess (.record .event)
            (c.layout.events + (c.dlv.event.written.toNat % c.dlv.event.slots) * 256)
            (eventBytes ⟨next, .marker tag⟩)] }) ∧
        (c.dlv.event.hasRoom = false →
          e.dlv.pendingEvents = c.dlv.pendingEvents ++ [⟨next, .marker tag⟩] ∧
          e.dlv.event = { c.dlv.event with sequence := next, noRoom := true } ∧
          (c.dlv.event.noRoom = false → e.raised causeRoom)) ∧
        e.lki = c.lki ∧ e.chc = c.chc ∧ e.ccu = c.ccu ∧ e.sce = c.sce ∧ e.tcu = c.tcu ∧ e.ord = c.ord)

/-- When a slot write is answered without error in a part that is not FAULTED with no write to begin: the write of a
DONE state sets ORDER; the write of a result, and of a TAKEN state, changes no register. Nothing else changes but
the memory port. (R129, R143, R5) -/
def Obligations.SlotWriteSetsOrder : Prop :=
  ∀ (c : Chip) (q : List Instr) (a : Access) (k : Nat) (done : Bool), c.mpt.onBus = some a →
    c.rgp.partState ≠ .faulted → c.dlv.progressAsked = false →
    a.purpose = .slotResult k ∨ a.purpose = .slotState k done →
    ∃ d, exec (.orderSlotWriteDone true) ⟨c, q⟩ = .next ⟨d, q⟩ ∧
      d.rgp = (if a.purpose = .slotState k true then { c.rgp with cause := c.rgp.cause ||| 0x04 } else c.rgp) ∧
      d.lki = c.lki ∧ d.chc = c.chc ∧ d.ccu = c.ccu ∧ d.sce = c.sce ∧ d.tcu = c.tcu ∧ d.ord = c.ord ∧ d.dlv = c.dlv ∧
      d.mpt.windows = c.mpt.windows ∧ d.mpt.records = c.mpt.records ∧ d.mpt.overflow = c.mpt.overflow

/-! ## Delivery -/

/-- When the return block is read in a part that is not FAULTED: each released total read is adopted when it is no
further ahead than the written total, and otherwise the released total becomes the written total and a clamp is
counted. One read is counted. The no-room mark of a stream with room is cleared. Then the pending records are written,
oldest first, each at the next slot, while the event stream has room, and leave the queue in that order. With records
left the event stream's no-room mark is set; if it was clear until then, ROOM is set and, with the read that was in
flight, a new return block read begins; if it was set, no read begins but for a reread mark. A read that fails leaves
both streams and the queue as they are, counts one read, and is recorded under STREAMS. (R148, R151, R152, R153, R158,
R171) -/
def Obligations.ReturnBlockGivesRoomBack : Prop :=
  (∀ (c : Chip) (q : List Instr) (a : Access) (b : List Byte), c.mpt.onBus = some a → a.purpose = .returnBlock →
    b.length = a.len → c.rgp.partState ≠ .faulted →
    let r (id : StreamId) : Word32 := BitVec.ofNat 32 (leValue b (if id = .pick then 0 else 4) 4)
    let ahead (id : StreamId) : Bool :=
      decide (((c.dlv.stream id).written - (c.dlv.stream id).released).toNat < (r id - (c.dlv.stream id).released).toNat)
    let released (id : StreamId) : Word32 := if ahead id = true then (c.dlv.stream id).written else r id
    let room (id : StreamId) : Bool :=
      decide (((c.dlv.stream id).written - released id).toNat < (c.dlv.stream id).slots)
    ∃ d, exec (.returnBlockReadDone (.data b)) ⟨c, q⟩ = .next ⟨d, q⟩ ∧
      (∀ id, (d.dlv.stream id).released = released id) ∧
      d.dlv.counters.clamps = addCount c.dlv.counters.clamps
        ((if ahead .pick then 1 else 0) + (if ahead .event then 1 else 0)) ∧
      d.dlv.counters.returnReads = countUp c.dlv.counters.returnReads ∧
      (c.dlv.pendingEvents = [] →
        (∀ id, d.dlv.stream id =
          { c.dlv.stream id with released := released id
                                 noRoom := (c.dlv.stream id).noRoom && !room id }) ∧
        d.dlv.pendingEvents = [] ∧ d.rgp = c.rgp ∧ (c.dlv.reread = false → d.dlv.returnRead = false)) ∧
      (∀ rec, c.dlv.pendingEvents = [rec] → room .event = true →
        d.dlv.pendingEvents = [] ∧ d.dlv.event.written = c.dlv.event.written + 1 ∧
        d.mpt.carries (writeAccess (.record .event)
          (c.layout.events + (c.dlv.event.written.toNat % c.dlv.event.slots) * 256) (eventBytes rec))) ∧
      (c.dlv.event.slots ≤ 4294967295 →
        let free := c.dlv.event.slots - (c.dlv.event.written - released .event).toNat
        let k := min c.dlv.pendingEvents.length free
        let marked : Bool := c.dlv.event.noRoom && !room .event
        let left : Bool := decide (k < c.dlv.pendingEvents.length)
        d.dlv.pendingEvents = c.dlv.pendingEvents.drop k ∧
        d.dlv.event = { c.dlv.event with
          released := released .event
          written := c.dlv.event.written + BitVec.ofNat 32 k
          noRoom := marked || left } ∧
        (∀ (i : Nat) (rec : EventRecord), i < k → c.dlv.pendingEvents[i]? = some rec →
          d.mpt.carries (writeAccess (.record .event)
            (c.layout.events + ((c.dlv.event.written + BitVec.ofNat 32 i).toNat % c.dlv.event.slots) * 256)
            (eventBytes rec))) ∧
        d.rgp = (if left = true ∧ marked = false then { c.rgp with cause := c.rgp.cause ||| 0x08 } else c.rgp) ∧
        (c.dlv.returnRead = true → c.active = true →
          d.dlv.reread = false ∧ d.dlv.returnRead = (c.dlv.reread || (left && !marked)) ∧
          (d.dlv.returnRead = true → d.mpt.carries (readAccess .returnBlock c.layout.returnBlock 64)))) ∧
      d.dlv.pick = { c.dlv.pick with
        released := released .pick
        noRoom := c.dlv.pick.noRoom && !room .pick } ∧
      d.lki = c.lki ∧ d.chc = c.chc ∧ d.ccu = c.ccu ∧ d.sce = c.sce ∧ d.tcu = c.tcu ∧ d.ord = c.ord) ∧
  ∀ (c : Chip) (q : List Instr) (a : Access), c.mpt.onBus = some a → a.purpose = .returnBlock →
    c.rgp.partState ≠ .faulted →
    ∃ d, exec (.returnBlockReadDone .error) ⟨c, q⟩ = .next ⟨d, q⟩ ∧ d.dlv.pick = c.dlv.pick ∧
      d.dlv.event = c.dlv.event ∧ d.dlv.pendingEvents = c.dlv.pendingEvents ∧
      d.dlv.counters = { c.dlv.counters with returnReads := countUp c.dlv.counters.returnReads } ∧
      (c.active = true → c.dlv.showsNext d.dlv ∧ d.rgp = c.rgp ∧ d.dlv.returnRead = c.dlv.reread) ∧
      d.mpt.windows = c.mpt.windows ∧
      d.mpt.records = (c.mpt.record .streams .bus a.addr c.lki.horizon).records ∧
      d.mpt.overflow = (c.mpt.record .streams .bus a.addr c.lki.horizon).overflow ∧
      d.lki = c.lki ∧ d.chc = c.chc ∧ d.ccu = c.ccu ∧ d.sce = c.sce ∧ d.tcu = c.tcu ∧ d.ord = c.ord

/-- When a record write is answered in BOUND, LISTENING or STOPPING: the published total of its stream advances by
1, failed or not, and nothing else of the two streams changes; the record counts as written without error and as
lost with one; an error is recorded under STREAMS. The progress block is to be written. (R149, R164, R165, R171,
R173) -/
def Obligations.RecordWriteAdvancesThePublishedTotal : Prop :=
  ∀ (c : Chip) (q : List Instr) (a : Access) (id : StreamId) (ok : Bool), c.mpt.onBus = some a →
    a.purpose = .record id → c.active = true →
    ∃ d, exec (.recordWriteDone ok) ⟨c, q⟩ = .next ⟨d, q⟩ ∧
      d.dlv.stream id = { c.dlv.stream id with published := (c.dlv.stream id).published + 1 } ∧
      (∀ other, other ≠ id → d.dlv.stream other = c.dlv.stream other) ∧
      d.dlv.counters =
        (match id, ok with
          | .pick, true => { c.dlv.counters with picksWritten := countUp c.dlv.counters.picksWritten }
          | .event, true => { c.dlv.counters with eventsWritten := countUp c.dlv.counters.eventsWritten }
          | .pick, false => { c.dlv.counters with lostPicks := countUp c.dlv.counters.lostPicks }
          | .event, false => { c.dlv.counters with lostEvents := countUp c.dlv.counters.lostEvents }) ∧
      c.dlv.showsNext d.dlv ∧
      d.mpt.records =
        (if ok = true then c.mpt.records else (c.mpt.record .streams .bus a.addr c.lki.horizon).records) ∧
      d.dlv.pendingEvents = c.dlv.pendingEvents ∧ d.rgp = c.rgp ∧ d.lki = c.lki ∧ d.chc = c.chc ∧ d.ccu = c.ccu ∧
      d.sce = c.sce ∧ d.tcu = c.tcu ∧ d.ord = c.ord

/-- Outside a binding, in a part that is not FAULTED with no write to begin: the answer to the first and to the
middle words changes nothing but the memory port. The answer to the last word gives both shown totals the published
totals carried, counts the write, notes the epoch count carried, sets EPOCH if it is higher than the last and FAULT
if the write carries a recording; with the rewrite mark, in BOUND, LISTENING or STOPPING, a new write is in flight
and the mark is clear, and without it none is. (R149, R150, R164, R173) -/
def Obligations.CompletedWriteShowsTheTotals : Prop :=
  (∀ (c : Chip) (q : List Instr) (a : Access), c.mpt.onBus = some a →
    a.purpose = .progressFirst ∨ a.purpose = .progressMiddle → c.rgp.partState ≠ .faulted →
    c.dlv.progressAsked = false →
    ∃ d, exec (.progressBlockWordWriteDone true) ⟨c, q⟩ = .next ⟨d, q⟩ ∧ d = { c with mpt := d.mpt } ∧
      d.mpt.windows = c.mpt.windows ∧ d.mpt.records = c.mpt.records ∧ d.mpt.overflow = c.mpt.overflow) ∧
  ∀ (c : Chip) (q : List Instr) (a : Access) (w : ProgressWrite), c.mpt.onBus = some a → a.purpose = .progressLast →
    c.rgp.partState ≠ .faulted → c.rgp.binding = none → c.dlv.progress = some w → c.dlv.progressAsked = false →
    ∃ d, exec (.progressWriteDone true) ⟨c, q⟩ = .next ⟨d, q⟩ ∧
      d.dlv.pick.shown = w.pickTotal ∧ d.dlv.event.shown = w.eventTotal ∧
      d.dlv.counters = { c.dlv.counters with progressWrites := countUp c.dlv.counters.progressWrites } ∧
      d.dlv.epochShown = w.epochCount ∧
      (c.dlv.epochShown.toNat < w.epochCount.toNat → d.raised causeEpoch) ∧ (w.showsFault = true → d.raised causeFault) ∧
      (∀ b < 8, c.rgp.cause.getLsbD b = true → d.rgp.cause.getLsbD b = true) ∧
      (c.dlv.rewrite = false → d.dlv.progress = none ∧ d.dlv.updateCount = c.dlv.updateCount) ∧
      (c.dlv.rewrite = true → c.active = true →
        d.dlv.rewrite = false ∧ d.dlv.faultUnshown = false ∧
        d.dlv.progress =
          some ⟨c.dlv.pick.published, c.dlv.event.published, c.dlv.epochCount, c.dlv.faultUnshown⟩ ∧
        (c.dlv.updateCount.toNat < 4294967295 → d.dlv.updateCount = c.dlv.updateCount + 1)) ∧
      d.rgp.partState = c.rgp.partState ∧ d.lki = c.lki ∧ d.chc = c.chc ∧ d.ccu = c.ccu ∧ d.sce = c.sce ∧
      d.tcu = c.tcu ∧ d.ord = c.ord

/-- The showing of m records, k above 0: from a count c below k it leaves (c + m) mod k and reaches k exactly when c + m
does; from a count at or past k its first record reaches k. With k = 0 it leaves 0 and reaches nothing. Outside a
binding, in a part that is not FAULTED with no write to begin, a completed progress block write steps each stream's
count by the records it shows, with the k in force, sets EVENT or PICK exactly for a count that reached k, and changes
nothing else of the streams but the shown totals. In a settled part NOTICE_COUNT_REACHED by itself sets EVENT or PICK
for a count that stands at or past a k above 0 and returns it to 0; for any other count it changes nothing: what the
row does apart from the write is the model's choice (log entries 2 and 5). (R150) -/
def Obligations.NoticeCountPromptsOnceForEachKRecords : Prop :=
  (∀ k m count : Nat, 0 < k → count < k →
    (noticeSteps k m count).1 = (count + m) % k ∧ ((noticeSteps k m count).2 = true ↔ k ≤ count + m)) ∧
  (∀ k m count : Nat, 0 < k → k ≤ count → 0 < m → noticeSteps k m count = ((m - 1) % k, true)) ∧
  (∀ m count : Nat, 0 < m → noticeSteps 0 m count = (0, false)) ∧
  (∀ (c : Chip) (q : List Instr) (a : Access) (w : ProgressWrite), c.mpt.onBus = some a → a.purpose = .progressLast →
    c.rgp.partState ≠ .faulted → c.rgp.binding = none → c.dlv.progress = some w → c.dlv.progressAsked = false →
    let pick := noticeSteps ((c.tcu.settings.map Settings.pickNotice).getD 0) (w.pickTotal - c.dlv.pick.shown).toNat
      c.dlv.pick.notice
    let event := noticeSteps ((c.tcu.settings.map Settings.eventNotice).getD 0)
      (w.eventTotal - c.dlv.event.shown).toNat c.dlv.event.notice
    ∃ d, exec (.progressWriteDone true) ⟨c, q⟩ = .next ⟨d, q⟩ ∧
      d.dlv.pick = { c.dlv.pick with shown := w.pickTotal, notice := pick.1 } ∧
      d.dlv.event = { c.dlv.event with shown := w.eventTotal, notice := event.1 } ∧
      d.rgp.cause.getLsbD causePick = (c.rgp.cause.getLsbD causePick || pick.2) ∧
      d.rgp.cause.getLsbD causeEvent = (c.rgp.cause.getLsbD causeEvent || event.2)) ∧
  ∀ (id : StreamId) (c : Chip) (q : List Instr), c.settled →
    (¬ (0 < noticeLimit id c ∧ noticeLimit id c ≤ (c.dlv.stream id).notice) →
      exec (.noticeCountReached id) ⟨c, q⟩ = .next ⟨c, q⟩) ∧
    (0 < noticeLimit id c → noticeLimit id c ≤ (c.dlv.stream id).notice →
      ∃ d, exec (.noticeCountReached id) ⟨c, q⟩ = .next ⟨d, q⟩ ∧
        d.rgp = { c.rgp with cause := c.rgp.cause ||| (if id = .pick then 0x02 else 0x01) } ∧
        d.dlv.stream id = { c.dlv.stream id with notice := 0 } ∧
        (∀ other, other ≠ id → d.dlv.stream other = c.dlv.stream other) ∧ d.dlv.counters = c.dlv.counters ∧
        d.mpt = c.mpt ∧ d.lki = c.lki ∧ d.chc = c.chc ∧ d.ccu = c.ccu ∧ d.sce = c.sce ∧ d.tcu = c.tcu ∧ d.ord = c.ord)

/-- While an epoch is outgoing, in a part that is not FAULTED: the answer for half 0 is noted and half 1's state is
read (reading half 0 first is the model's choice, log entry 19). The answer for half 1 chooses the preferred half if
FREE, else the other if FREE, and requests its header write; with neither FREE the epoch is lost and counted, and the
writer is idle. A failed state read counts as not FREE. After the header comes tick 0, after tick i below 499 tick i +
1, after tick 499 the FULL write. The answered FULL write gives the selector its half, counts the epoch written, and
the writer is idle. A header, tick or FULL write that fails loses the epoch: it is counted, the selector stays, and the
writer is idle. An error is recorded under RAW and, in BOUND, LISTENING and STOPPING, shown by a progress block write.
The assembly buffer stays as it is. (R161, R162, R169, R165, R171) -/
def Obligations.RawEpochGoesToAFreeHalf : Prop :=
  ∀ (c : Chip) (q : List Instr) (a : Access) (o : Outgoing), c.mpt.onBus = some a → c.rgp.partState ≠ .faulted →
    c.dlv.outgoing = some o →
    (∀ x : Option (List Byte), (∀ b, x = some b → b.length = a.len) →
      let free : Bool := x.any fun b => leValue b 0 4 == 1
      ((∃ h, a.purpose = .rawState h) →
        ∃ d, exec (.rawStateReadDone (readAnswerOf x)) ⟨c, q⟩ = .next ⟨d, q⟩ ∧ d.dlv.assembly = c.dlv.assembly ∧
          d.dlv.selector = c.dlv.selector ∧ (x = none → c.active = true → c.dlv.showsNext d.dlv) ∧
          d.mpt.records =
            (if x.isSome = true then c.mpt.records else (c.mpt.record .raw .bus a.addr c.lki.horizon).records)) ∧
      (a.purpose = .rawState 0 →
        ∃ d, exec (.rawStateReadDone (readAnswerOf x)) ⟨c, q⟩ = .next ⟨d, q⟩ ∧
          d.dlv.outgoing = some ⟨o.epoch, free⟩ ∧ d.dlv.counters = c.dlv.counters ∧
          d.mpt.carries (readAccess (.rawState 1) c.layout.raw1 4)) ∧
      (a.purpose = .rawState 1 →
        ∃ d, exec (.rawStateReadDone (readAnswerOf x)) ⟨c, q⟩ = .next ⟨d, q⟩ ∧
          (∀ h : Fin 2,
            (free = true ∧ h = 1 ∧ (o.half0Free = false ∨ c.dlv.selector = some 0)) ∨
              (o.half0Free = true ∧ h = 0 ∧ (free = false ∨ c.dlv.selector ≠ some 0)) →
            d.dlv.outgoing = some o ∧ d.dlv.counters = c.dlv.counters ∧
            d.mpt.carries (writeAccess (.rawHeader h.val) (c.layout.rawBase h.val + 8) (rawHeaderBytes o.epoch))) ∧
          (o.half0Free = false → free = false →
            d.dlv.outgoing = none ∧
            d.dlv.counters = { c.dlv.counters with rawLost := countUp c.dlv.counters.rawLost }))) ∧
    (∀ h : Nat, a.purpose = .rawHeader h →
      ∃ d, exec (.rawHalfWriteDone true) ⟨c, q⟩ = .next ⟨d, q⟩ ∧ d.dlv.outgoing = some o ∧
        d.mpt.carries (writeAccess (.rawTick h 0) (c.layout.rawBase h + 0x80) (rawTickBytes o.epoch 0))) ∧
    (∀ h i : Nat, a.purpose = .rawTick h i →
      ∃ d, exec (.rawHalfWriteDone true) ⟨c, q⟩ = .next ⟨d, q⟩ ∧ d.dlv.outgoing = some o ∧
        d.mpt.carries (if i < 499 then
            writeAccess (.rawTick h (i + 1)) (c.layout.rawBase h + 0x80 + 1024 * (i + 1)) (rawTickBytes o.epoch (i + 1))
          else writeAccess (.rawFull h) (c.layout.rawBase h) [2, 0, 0, 0])) ∧
    (∀ h : Fin 2, a.purpose = .rawFull h.val →
      ∃ d, exec (.rawFullWriteDone true) ⟨c, q⟩ = .next ⟨d, q⟩ ∧ d.dlv.outgoing = none ∧ d.dlv.selector = some h ∧
        d.dlv.counters = { c.dlv.counters with rawWritten := countUp c.dlv.counters.rawWritten } ∧
        d.rgp = c.rgp ∧ d.lki = c.lki ∧ d.chc = c.chc ∧ d.ccu = c.ccu ∧ d.sce = c.sce ∧ d.tcu = c.tcu ∧ d.ord = c.ord) ∧
    ∀ (i : Instr) (h k : Nat),
      (i = .rawHalfWriteDone false ∧ (a.purpose = .rawHeader h ∨ a.purpose = .rawTick h k)) ∨
        (i = .rawFullWriteDone false ∧ a.purpose = .rawFull h) →
      ∃ d, exec i ⟨c, q⟩ = .next ⟨d, q⟩ ∧ d.dlv.outgoing = none ∧ d.dlv.selector = c.dlv.selector ∧
        d.dlv.assembly = c.dlv.assembly ∧
        d.dlv.counters = { c.dlv.counters with rawLost := countUp c.dlv.counters.rawLost } ∧
        d.mpt.records = (c.mpt.record .raw .bus a.addr c.lki.horizon).records ∧
        (c.active = true → c.dlv.showsNext d.dlv) ∧ d.lki = c.lki ∧ d.chc = c.chc ∧ d.ccu = c.ccu ∧ d.sce = c.sce ∧
        d.tcu = c.tcu ∧ d.ord = c.ord

/-- With eight records pending, of distinct sequences, and no room in the event stream: the lost-events counter
increases by 1. A record stronger than the weakest waiting record takes the next sequence and joins the end of the
queue, which loses the record of lowest coherence, of equal ones the one of highest place. Any other record takes no
sequence and leaves the queue as it is: a marker always does. The no-room mark is set. That the highest sequence of
R157 is the highest place, across the wrap too, is the model's reading (log entry 31). (R156, R157, R159) -/
def Obligations.FullQueueKeepsTheStrongestRecords : Prop :=
  ∀ (c : Chip) (content : EventContent), c.dlv.pendingEvents.length = 8 →
    (c.dlv.pendingEvents.map EventRecord.seq).Nodup → c.dlv.event.hasRoom = false →
    let d := (deliverContent content c).1
    let seq := if c.dlv.event.sequence.toNat = 4294967295 then 1 else c.dlv.event.sequence + 1
    d.dlv.counters.lostEvents = countUp c.dlv.counters.lostEvents ∧ d.dlv.event.noRoom = true ∧
      ((∃ w ∈ c.dlv.pendingEvents, coherence w.content < coherence content) →
        (deliverContent content c).2 = some seq ∧ d.dlv.event.sequence = seq ∧
        ∃ before w after, c.dlv.pendingEvents = before ++ w :: after ∧
          (∀ x ∈ before, coherence w.content ≤ coherence x.content) ∧
          (∀ x ∈ after, coherence w.content < coherence x.content) ∧
          d.dlv.pendingEvents = before ++ after ++ [⟨seq, content⟩]) ∧
      ((∀ w ∈ c.dlv.pendingEvents, coherence content ≤ coherence w.content) →
        (deliverContent content c).2 = none ∧ d.dlv.event.sequence = c.dlv.event.sequence ∧
        d.dlv.pendingEvents = c.dlv.pendingEvents) ∧
      ∀ tag, coherence (.marker tag) = 0

/-! ## Faults -/

/-- With a valid record of the source, that record's count increases by 1 up to 65,535 and nothing else of the
records changes. With none and a free record, the lowest-numbered free one becomes valid with the source, the kind,
the address, a count of 1 and the H in force. With neither the overflow count increases by 1 and the records stay.
Nothing else of MPT changes. (R172, R168) -/
def Obligations.FaultIsRecordedInOneOfThreeWays : Prop :=
  ∀ (src : FaultSource) (kind : FaultKind) (addr : Nat) (hz : Option Nat) (m : Mpt),
    m.record src kind addr hz =
        { m with records := (m.record src kind addr hz).records, overflow := (m.record src kind addr hz).overflow } ∧
      ((∃ f, some f ∈ m.records ∧ f.source = src) →
        (m.record src kind addr hz).overflow = m.overflow ∧
        (m.record src kind addr hz).records.length = m.records.length ∧
        (∀ n : Nat, m.records[n]? = some none → (m.record src kind addr hz).records[n]? = some none) ∧
        ∀ (n : Nat) (f : FaultRecord), m.records[n]? = some (some f) →
          (m.record src kind addr hz).records[n]? =
            some (some (if f.source = src then { f with count := min (f.count + 1) 65535 } else f))) ∧
      ((∀ f, some f ∈ m.records → f.source ≠ src) →
        (none ∈ m.records →
          (m.record src kind addr hz).overflow = m.overflow ∧
          ∃ n, m.records[n]? = some none ∧ (∀ k < n, m.records[k]? ≠ some none) ∧
            (m.record src kind addr hz).records = m.records.set n (some ⟨src, kind, addr, 1, hz⟩)) ∧
        (none ∉ m.records →
          (m.record src kind addr hz).records = m.records ∧
          (m.record src kind addr hz).overflow.toNat = min (m.overflow.toNat + 1) 4294967295))

/-- With an index of 0 to 3 that record is free afterwards, the others and the overflow count stay, and the slot is
written DONE with OK and 1 if the record was valid or 0. With 0xFF every record is free, the overflow count is 0,
and the number is that of the valid records. With any other index no record changes and the slot is written DONE
with BAD-PARAM. (R142, R174, R180) -/
def Obligations.FaultClearFreesRecords : Prop :=
  ∀ (slot index : Nat) (seq : BitVec 8) (c : Chip),
    let d := dispatchFaultClear slot seq index c
    (index ≤ 3 →
      d.mpt.records = c.mpt.records.set index none ∧ d.mpt.overflow = c.mpt.overflow ∧
      ∀ x ∈ slotAccesses c.layout slot seq true
        ⟨1, if (c.mpt.records.getD index none).isSome = true then 1 else 0, 0, 0⟩, d.mpt.carries x) ∧
    (index = 0xFF →
      d.mpt.records = List.replicate c.mpt.records.length none ∧ d.mpt.overflow = 0 ∧
      ∀ x ∈ slotAccesses c.layout slot seq true ⟨1, (c.mpt.records.filter Option.isSome).length, 0, 0⟩, d.mpt.carries x) ∧
    (3 < index → index ≠ 0xFF →
      d.mpt.records = c.mpt.records ∧ d.mpt.overflow = c.mpt.overflow ∧
      ∀ x ∈ slotAccesses c.layout slot seq true ⟨5, 0, 0, 0⟩, d.mpt.carries x) ∧
    d.ord.openOrders = c.ord.openOrders.filter (fun e => e.slot != slot) ∧ d.mpt.windows = c.mpt.windows ∧
    d.mpt.onBus = c.mpt.onBus ∧ d.rgp = c.rgp ∧ d.lki = c.lki ∧ d.chc = c.chc ∧ d.ccu = c.ccu ∧ d.sce = c.sce ∧
    d.tcu = c.tcu

/-- When a write to the progress block or to an order slot is answered with an error in a part that is not FAULTED: the
fault is recorded with kind BUS, FAULT and STATE are set, the part is FAULTED with halt source PROGRESS or ORDERS.
Every hub is DISABLED with H, counters and lane count kept; the queue, the collapse target, the banks, the poll, the
timer, the open orders, the pending records (counted lost), the raw epochs, and every waiting access are gone; the bus
is free. The channels, the tables in force, the streams and the other registers keep their values. The progress image
is frozen: that it stands with the fault recorded and before the other effects of the entry is the model's reading (log
entry 34). That no access is granted before the part enters FAULTED is its choice (log entry 33). (R16, R171, R172, R173, R175, R61, R78,
R106, R127, R145, R166) -/
def Obligations.HaltingFaultEntersFaulted : Prop :=
  ∀ (c : Chip) (q : List Instr) (a : Access) (hs : HaltSource), c.mpt.onBus = some a → c.rgp.partState ≠ .faulted →
    ((∃ k, a.purpose = .slotResult k ∨ ∃ done, a.purpose = .slotState k done) ∧ hs = .orders) ∨
      ((a.purpose = .progressFirst ∨ a.purpose = .progressMiddle ∨ a.purpose = .progressLast) ∧ hs = .progress) →
    ∃ d, exec (answerTo a.purpose none) ⟨c, q⟩ = .next ⟨d, q⟩ ∧ d.rgp.partState = .faulted ∧ d.rgp.haltSource = hs ∧
      d.raised causeFault ∧ d.raised causeState ∧
      d.mpt.records =
        (c.mpt.record (if hs = .orders then .orders else .progress) .bus a.addr c.lki.horizon).records ∧
      d.mpt.onBus = none ∧ d.mpt.nothingWaits ∧ d.mpt.windows = c.mpt.windows ∧
      d.lki = ⟨c.lki.hubs.map (fun h => ⟨.disabled, [], none, none, none, none, 0, h.actualLanes, h.counters⟩),
        c.lki.horizon⟩ ∧
      d.chc = c.chc ∧ d.ccu = { c.ccu with queue := [], target := none } ∧
      d.sce = { c.sce with banks := List.replicate c.sce.banks.length none } ∧
      d.tcu = { c.tcu with fetch := none, reload := none, waiting := [], drain := none } ∧
      d.ord =
        { c.ord with drainPending := none, openOrders := [], poll := none, repeatMark := false, timer := none
                     takeRun := none } ∧
      d.dlv.pendingEvents = [] ∧ d.dlv.progress = none ∧ d.dlv.returnRead = false ∧ d.dlv.assembly = none ∧
      d.dlv.outgoing = none ∧ d.dlv.pick = c.dlv.pick ∧ d.dlv.event = c.dlv.event ∧
      (let recorded := c.mpt.record (if hs = .orders then .orders else .progress) .bus a.addr c.lki.horizon
       d.dlv.image = .frozen (Chip.image { c with mpt := recorded })) ∧
      d.dlv.counters =
        { c.dlv.counters with lostEvents := addCount c.dlv.counters.lostEvents c.dlv.pendingEvents.length } ∧
      d.rgp.mask = c.rgp.mask ∧ d.rgp.dirbase = c.rgp.dirbase ∧ d.rgp.lastCode = c.rgp.lastCode ∧
      d.rgp.acceptance = c.rgp.acceptance ∧ d.rgp.layout = c.rgp.layout ∧ d.rgp.binding = none

/-- ANSWER_LIMIT_EXPIRY does exactly what an error answer to the access on the bus does, and with none it changes
nothing. With none on the bus every answer is late and changes nothing (log entry 2). In FAULTED an answer without
error changes the memory port alone, and not its records; an answer with an error is recorded with its source and kind
BUS and sets FAULT, and changes nothing else but the memory port: the halt source stays. That a record write which
fails there leaves its counter and its published total is the model's reading (log entry 32); no run of the model has
an access on the bus in FAULTED (log entry 33). (R170, R175, R173) -/
def Obligations.FaultedPartAndUnansweredAccess : Prop :=
  (∀ (c : Chip) (q : List Instr),
    (∀ a, c.mpt.onBus = some a → exec .answerLimitExpiry ⟨c, q⟩ = exec (answerTo a.purpose none) ⟨c, q⟩) ∧
    (c.mpt.onBus = none →
      exec .answerLimitExpiry ⟨c, q⟩ = .next ⟨c, q⟩ ∧
      ∀ (p : Purpose) (result : Option (List Byte)), exec (answerTo p result) ⟨c, q⟩ = .next ⟨c, q⟩)) ∧
  ∀ (c : Chip) (q : List Instr) (a : Access), c.settled → c.mpt.onBus = some a → c.rgp.partState = .faulted →
    (∀ b : List Byte, b.length = a.len →
      ∃ d, exec (answerTo a.purpose (some b)) ⟨c, q⟩ = .next ⟨d, q⟩ ∧ d = { c with mpt := d.mpt } ∧
        d.mpt.records = c.mpt.records ∧ d.mpt.overflow = c.mpt.overflow ∧ d.mpt.windows = c.mpt.windows) ∧
    ∃ d, exec (answerTo a.purpose none) ⟨c, q⟩ = .next ⟨d, q⟩ ∧
      d = { c with mpt := d.mpt, rgp := { c.rgp with cause := c.rgp.cause ||| 0x10 } } ∧
      d.mpt.records = (c.mpt.record (faultSourceOf a.purpose) .bus a.addr c.lki.horizon).records ∧
      d.mpt.overflow = (c.mpt.record (faultSourceOf a.purpose) .bus a.addr c.lki.horizon).overflow ∧
      d.mpt.windows = c.mpt.windows

/-! ## Invariants -/

/-- From every state whose part is settled, a step that answers a next state leaves a settled part. R169 gives the bus to
a waiting request and R164 begins the write; that both have happened by the end of every command is the model's choice
(log entries 11 and 15). -/
def Obligations.StepKeepsTheBusGranted : Prop :=
  ∀ s t : State, s.chip.settled → step s = .next t → t.chip.settled

/-- From every state whose fault records are sound, a step that answers a next state leaves them sound. (R168, R172,
R174, R176) -/
def Obligations.StepKeepsTheFaultRecordsSound : Prop :=
  ∀ s t : State, s.chip.mpt.faultsSound → step s = .next t → t.chip.mpt.faultsSound

/-- From every state in which the ticks of the hubs are frame edges, each hub holds what its state lets it hold (a
DISABLED hub nothing, a SEEKING hub at most the provisional frame its marker names, a LIVE hub frames in order below its
next_tick, a STALLED hub no frame; a place in time, a silence timer and a bad-frame count of at most 8 in LIVE and
STALLED alone) and H is the smallest next_tick over the LIVE hubs if there is one, a step that answers a next state
leaves such a state. A set H stays set and does not fall, unless the command in front is a reset or a BIND. (R30, R22,
R23, R24, R26, R27, R29, R31, R35) -/
def Obligations.HorizonIsTheSmallestNextTickAndNeverFalls : Prop :=
  ∀ s t : State, s.chip.lki.horizonSound → step s = .next t →
    t.chip.lki.horizonSound ∧
      ∀ h0, s.chip.lki.horizon = some h0 → s.pending.head?.all (fun i => !startsOver i) = true →
        ∃ h1, t.chip.lki.horizon = some h1 ∧ h0 ≤ h1

/-- From every state whose channels are sound, a step that answers a next state leaves them sound. (R40, R49, R56,
R61) -/
def Obligations.ChannelsStayInTheirRanges : Prop :=
  ∀ s t : State, s.chip.chc.sound → step s = .next t → t.chip.chc.sound

/-- From every state in which the four bounds hold, a step that answers a next state leaves a state in which they
hold. (R71, R113, R148, R157) -/
def Obligations.QueuesAndStreamsStayBounded : Prop :=
  ∀ s t : State,
    s.chip.ccu.queueBounded ∧ s.chip.tcu.cacheBounded ∧ s.chip.dlv.pendingBounded ∧ s.chip.dlv.streamsSound →
    step s = .next t →
    t.chip.ccu.queueBounded ∧ t.chip.tcu.cacheBounded ∧ t.chip.dlv.pendingBounded ∧ t.chip.dlv.streamsSound

/-- From every state whose banks are sound, a step that answers a next state leaves them sound. (R81, R82, R84, R87,
R88) -/
def Obligations.BanksHoldDistinctLevelsAndTheRunningOneIsHighest : Prop :=
  ∀ s t : State, s.chip.sce.banksSound → step s = .next t → t.chip.sce.banksSound

/-- State.reset is settled, its DIRBASE is aligned, its fault records, horizon, channels, bounds, streams and banks
are sound, and its queue is empty. (R4, R17, R39, R61, R78, R106, R127, R166, R176) -/
def Obligations.ResetMeetsEveryInvariant : Prop :=
  State.reset.chip.settled ∧ State.reset.chip.dirbaseAligned ∧ State.reset.chip.mpt.faultsSound ∧
    State.reset.chip.lki.horizonSound ∧ State.reset.chip.chc.sound ∧ State.reset.chip.ccu.queueBounded ∧
    State.reset.chip.tcu.cacheBounded ∧ State.reset.chip.dlv.pendingBounded ∧ State.reset.chip.dlv.streamsSound ∧
    State.reset.chip.sce.banksSound ∧ State.reset.pending = []

end
end

