-- ==== Sys2Proof/Laws/State.lean ====
section
/-! SUPPORT. One lemma for each block after each change of one block, and for each field of RGP and of the machine after the
updates shared by every command. -/

namespace Sys2Proof.Machine

/-! ## Changes of RGP -/

@[simp] theorem Chip.onRgp_rgp (f : Rgp → Rgp) (c : Chip) : (c.onRgp f).rgp = f c.rgp := rfl
@[simp] theorem Chip.onRgp_mpt (f : Rgp → Rgp) (c : Chip) : (c.onRgp f).mpt = c.mpt := rfl
@[simp] theorem Chip.onRgp_lki (f : Rgp → Rgp) (c : Chip) : (c.onRgp f).lki = c.lki := rfl
@[simp] theorem Chip.onRgp_chc (f : Rgp → Rgp) (c : Chip) : (c.onRgp f).chc = c.chc := rfl
@[simp] theorem Chip.onRgp_ccu (f : Rgp → Rgp) (c : Chip) : (c.onRgp f).ccu = c.ccu := rfl
@[simp] theorem Chip.onRgp_sce (f : Rgp → Rgp) (c : Chip) : (c.onRgp f).sce = c.sce := rfl
@[simp] theorem Chip.onRgp_tcu (f : Rgp → Rgp) (c : Chip) : (c.onRgp f).tcu = c.tcu := rfl
@[simp] theorem Chip.onRgp_ord (f : Rgp → Rgp) (c : Chip) : (c.onRgp f).ord = c.ord := rfl
@[simp] theorem Chip.onRgp_dlv (f : Rgp → Rgp) (c : Chip) : (c.onRgp f).dlv = c.dlv := rfl
@[simp] theorem Chip.onRgp_freeUses (f : Rgp → Rgp) (c : Chip) : (c.onRgp f).freeUses = c.freeUses := rfl

/-! ## Changes of MPT -/

@[simp] theorem Chip.onMpt_rgp (f : Mpt → Mpt) (c : Chip) : (c.onMpt f).rgp = c.rgp := rfl
@[simp] theorem Chip.onMpt_mpt (f : Mpt → Mpt) (c : Chip) : (c.onMpt f).mpt = f c.mpt := rfl
@[simp] theorem Chip.onMpt_lki (f : Mpt → Mpt) (c : Chip) : (c.onMpt f).lki = c.lki := rfl
@[simp] theorem Chip.onMpt_chc (f : Mpt → Mpt) (c : Chip) : (c.onMpt f).chc = c.chc := rfl
@[simp] theorem Chip.onMpt_ccu (f : Mpt → Mpt) (c : Chip) : (c.onMpt f).ccu = c.ccu := rfl
@[simp] theorem Chip.onMpt_sce (f : Mpt → Mpt) (c : Chip) : (c.onMpt f).sce = c.sce := rfl
@[simp] theorem Chip.onMpt_tcu (f : Mpt → Mpt) (c : Chip) : (c.onMpt f).tcu = c.tcu := rfl
@[simp] theorem Chip.onMpt_ord (f : Mpt → Mpt) (c : Chip) : (c.onMpt f).ord = c.ord := rfl
@[simp] theorem Chip.onMpt_dlv (f : Mpt → Mpt) (c : Chip) : (c.onMpt f).dlv = c.dlv := rfl
@[simp] theorem Chip.onMpt_freeUses (f : Mpt → Mpt) (c : Chip) : (c.onMpt f).freeUses = c.freeUses := rfl

/-! ## Changes of LKI -/

@[simp] theorem Chip.onLki_rgp (f : Lki → Lki) (c : Chip) : (c.onLki f).rgp = c.rgp := rfl
@[simp] theorem Chip.onLki_mpt (f : Lki → Lki) (c : Chip) : (c.onLki f).mpt = c.mpt := rfl
@[simp] theorem Chip.onLki_lki (f : Lki → Lki) (c : Chip) : (c.onLki f).lki = f c.lki := rfl
@[simp] theorem Chip.onLki_chc (f : Lki → Lki) (c : Chip) : (c.onLki f).chc = c.chc := rfl
@[simp] theorem Chip.onLki_ccu (f : Lki → Lki) (c : Chip) : (c.onLki f).ccu = c.ccu := rfl
@[simp] theorem Chip.onLki_sce (f : Lki → Lki) (c : Chip) : (c.onLki f).sce = c.sce := rfl
@[simp] theorem Chip.onLki_tcu (f : Lki → Lki) (c : Chip) : (c.onLki f).tcu = c.tcu := rfl
@[simp] theorem Chip.onLki_ord (f : Lki → Lki) (c : Chip) : (c.onLki f).ord = c.ord := rfl
@[simp] theorem Chip.onLki_dlv (f : Lki → Lki) (c : Chip) : (c.onLki f).dlv = c.dlv := rfl
@[simp] theorem Chip.onLki_freeUses (f : Lki → Lki) (c : Chip) : (c.onLki f).freeUses = c.freeUses := rfl

/-! ## Changes of CHC -/

@[simp] theorem Chip.onChc_rgp (f : Chc → Chc) (c : Chip) : (c.onChc f).rgp = c.rgp := rfl
@[simp] theorem Chip.onChc_mpt (f : Chc → Chc) (c : Chip) : (c.onChc f).mpt = c.mpt := rfl
@[simp] theorem Chip.onChc_lki (f : Chc → Chc) (c : Chip) : (c.onChc f).lki = c.lki := rfl
@[simp] theorem Chip.onChc_chc (f : Chc → Chc) (c : Chip) : (c.onChc f).chc = f c.chc := rfl
@[simp] theorem Chip.onChc_ccu (f : Chc → Chc) (c : Chip) : (c.onChc f).ccu = c.ccu := rfl
@[simp] theorem Chip.onChc_sce (f : Chc → Chc) (c : Chip) : (c.onChc f).sce = c.sce := rfl
@[simp] theorem Chip.onChc_tcu (f : Chc → Chc) (c : Chip) : (c.onChc f).tcu = c.tcu := rfl
@[simp] theorem Chip.onChc_ord (f : Chc → Chc) (c : Chip) : (c.onChc f).ord = c.ord := rfl
@[simp] theorem Chip.onChc_dlv (f : Chc → Chc) (c : Chip) : (c.onChc f).dlv = c.dlv := rfl
@[simp] theorem Chip.onChc_freeUses (f : Chc → Chc) (c : Chip) : (c.onChc f).freeUses = c.freeUses := rfl

/-! ## Changes of CCU -/

@[simp] theorem Chip.onCcu_rgp (f : Ccu → Ccu) (c : Chip) : (c.onCcu f).rgp = c.rgp := rfl
@[simp] theorem Chip.onCcu_mpt (f : Ccu → Ccu) (c : Chip) : (c.onCcu f).mpt = c.mpt := rfl
@[simp] theorem Chip.onCcu_lki (f : Ccu → Ccu) (c : Chip) : (c.onCcu f).lki = c.lki := rfl
@[simp] theorem Chip.onCcu_chc (f : Ccu → Ccu) (c : Chip) : (c.onCcu f).chc = c.chc := rfl
@[simp] theorem Chip.onCcu_ccu (f : Ccu → Ccu) (c : Chip) : (c.onCcu f).ccu = f c.ccu := rfl
@[simp] theorem Chip.onCcu_sce (f : Ccu → Ccu) (c : Chip) : (c.onCcu f).sce = c.sce := rfl
@[simp] theorem Chip.onCcu_tcu (f : Ccu → Ccu) (c : Chip) : (c.onCcu f).tcu = c.tcu := rfl
@[simp] theorem Chip.onCcu_ord (f : Ccu → Ccu) (c : Chip) : (c.onCcu f).ord = c.ord := rfl
@[simp] theorem Chip.onCcu_dlv (f : Ccu → Ccu) (c : Chip) : (c.onCcu f).dlv = c.dlv := rfl
@[simp] theorem Chip.onCcu_freeUses (f : Ccu → Ccu) (c : Chip) : (c.onCcu f).freeUses = c.freeUses := rfl

/-! ## Changes of SCE -/

@[simp] theorem Chip.onSce_rgp (f : Sce → Sce) (c : Chip) : (c.onSce f).rgp = c.rgp := rfl
@[simp] theorem Chip.onSce_mpt (f : Sce → Sce) (c : Chip) : (c.onSce f).mpt = c.mpt := rfl
@[simp] theorem Chip.onSce_lki (f : Sce → Sce) (c : Chip) : (c.onSce f).lki = c.lki := rfl
@[simp] theorem Chip.onSce_chc (f : Sce → Sce) (c : Chip) : (c.onSce f).chc = c.chc := rfl
@[simp] theorem Chip.onSce_ccu (f : Sce → Sce) (c : Chip) : (c.onSce f).ccu = c.ccu := rfl
@[simp] theorem Chip.onSce_sce (f : Sce → Sce) (c : Chip) : (c.onSce f).sce = f c.sce := rfl
@[simp] theorem Chip.onSce_tcu (f : Sce → Sce) (c : Chip) : (c.onSce f).tcu = c.tcu := rfl
@[simp] theorem Chip.onSce_ord (f : Sce → Sce) (c : Chip) : (c.onSce f).ord = c.ord := rfl
@[simp] theorem Chip.onSce_dlv (f : Sce → Sce) (c : Chip) : (c.onSce f).dlv = c.dlv := rfl
@[simp] theorem Chip.onSce_freeUses (f : Sce → Sce) (c : Chip) : (c.onSce f).freeUses = c.freeUses := rfl

/-! ## Changes of TCU -/

@[simp] theorem Chip.onTcu_rgp (f : Tcu → Tcu) (c : Chip) : (c.onTcu f).rgp = c.rgp := rfl
@[simp] theorem Chip.onTcu_mpt (f : Tcu → Tcu) (c : Chip) : (c.onTcu f).mpt = c.mpt := rfl
@[simp] theorem Chip.onTcu_lki (f : Tcu → Tcu) (c : Chip) : (c.onTcu f).lki = c.lki := rfl
@[simp] theorem Chip.onTcu_chc (f : Tcu → Tcu) (c : Chip) : (c.onTcu f).chc = c.chc := rfl
@[simp] theorem Chip.onTcu_ccu (f : Tcu → Tcu) (c : Chip) : (c.onTcu f).ccu = c.ccu := rfl
@[simp] theorem Chip.onTcu_sce (f : Tcu → Tcu) (c : Chip) : (c.onTcu f).sce = c.sce := rfl
@[simp] theorem Chip.onTcu_tcu (f : Tcu → Tcu) (c : Chip) : (c.onTcu f).tcu = f c.tcu := rfl
@[simp] theorem Chip.onTcu_ord (f : Tcu → Tcu) (c : Chip) : (c.onTcu f).ord = c.ord := rfl
@[simp] theorem Chip.onTcu_dlv (f : Tcu → Tcu) (c : Chip) : (c.onTcu f).dlv = c.dlv := rfl
@[simp] theorem Chip.onTcu_freeUses (f : Tcu → Tcu) (c : Chip) : (c.onTcu f).freeUses = c.freeUses := rfl

/-! ## Changes of ORD -/

@[simp] theorem Chip.onOrd_rgp (f : Orders → Orders) (c : Chip) : (c.onOrd f).rgp = c.rgp := rfl
@[simp] theorem Chip.onOrd_mpt (f : Orders → Orders) (c : Chip) : (c.onOrd f).mpt = c.mpt := rfl
@[simp] theorem Chip.onOrd_lki (f : Orders → Orders) (c : Chip) : (c.onOrd f).lki = c.lki := rfl
@[simp] theorem Chip.onOrd_chc (f : Orders → Orders) (c : Chip) : (c.onOrd f).chc = c.chc := rfl
@[simp] theorem Chip.onOrd_ccu (f : Orders → Orders) (c : Chip) : (c.onOrd f).ccu = c.ccu := rfl
@[simp] theorem Chip.onOrd_sce (f : Orders → Orders) (c : Chip) : (c.onOrd f).sce = c.sce := rfl
@[simp] theorem Chip.onOrd_tcu (f : Orders → Orders) (c : Chip) : (c.onOrd f).tcu = c.tcu := rfl
@[simp] theorem Chip.onOrd_ord (f : Orders → Orders) (c : Chip) : (c.onOrd f).ord = f c.ord := rfl
@[simp] theorem Chip.onOrd_dlv (f : Orders → Orders) (c : Chip) : (c.onOrd f).dlv = c.dlv := rfl
@[simp] theorem Chip.onOrd_freeUses (f : Orders → Orders) (c : Chip) : (c.onOrd f).freeUses = c.freeUses := rfl

/-! ## Changes of DLV -/

@[simp] theorem Chip.onDlv_rgp (f : Dlv → Dlv) (c : Chip) : (c.onDlv f).rgp = c.rgp := rfl
@[simp] theorem Chip.onDlv_mpt (f : Dlv → Dlv) (c : Chip) : (c.onDlv f).mpt = c.mpt := rfl
@[simp] theorem Chip.onDlv_lki (f : Dlv → Dlv) (c : Chip) : (c.onDlv f).lki = c.lki := rfl
@[simp] theorem Chip.onDlv_chc (f : Dlv → Dlv) (c : Chip) : (c.onDlv f).chc = c.chc := rfl
@[simp] theorem Chip.onDlv_ccu (f : Dlv → Dlv) (c : Chip) : (c.onDlv f).ccu = c.ccu := rfl
@[simp] theorem Chip.onDlv_sce (f : Dlv → Dlv) (c : Chip) : (c.onDlv f).sce = c.sce := rfl
@[simp] theorem Chip.onDlv_tcu (f : Dlv → Dlv) (c : Chip) : (c.onDlv f).tcu = c.tcu := rfl
@[simp] theorem Chip.onDlv_ord (f : Dlv → Dlv) (c : Chip) : (c.onDlv f).ord = c.ord := rfl
@[simp] theorem Chip.onDlv_dlv (f : Dlv → Dlv) (c : Chip) : (c.onDlv f).dlv = f c.dlv := rfl
@[simp] theorem Chip.onDlv_freeUses (f : Dlv → Dlv) (c : Chip) : (c.onDlv f).freeUses = c.freeUses := rfl

/-! ## Cause bits, waiting requests and streams -/

@[simp] theorem Rgp.setCause_partState (bit : Nat) (r : Rgp) : (r.setCause bit).partState = r.partState := rfl
@[simp] theorem Rgp.setCause_bindResult (bit : Nat) (r : Rgp) : (r.setCause bit).bindResult = r.bindResult := rfl
@[simp] theorem Rgp.setCause_haltSource (bit : Nat) (r : Rgp) : (r.setCause bit).haltSource = r.haltSource := rfl
@[simp] theorem Rgp.setCause_autoStrap (bit : Nat) (r : Rgp) : (r.setCause bit).autoStrap = r.autoStrap := rfl
@[simp] theorem Rgp.setCause_dirselStrap (bit : Nat) (r : Rgp) : (r.setCause bit).dirselStrap = r.dirselStrap := rfl
@[simp] theorem Rgp.setCause_lastCode (bit : Nat) (r : Rgp) : (r.setCause bit).lastCode = r.lastCode := rfl
@[simp] theorem Rgp.setCause_acceptance (bit : Nat) (r : Rgp) : (r.setCause bit).acceptance = r.acceptance := rfl
@[simp] theorem Rgp.setCause_dirbase (bit : Nat) (r : Rgp) : (r.setCause bit).dirbase = r.dirbase := rfl
@[simp] theorem Rgp.setCause_mask (bit : Nat) (r : Rgp) : (r.setCause bit).mask = r.mask := rfl
@[simp] theorem Rgp.setCause_resetHeld (bit : Nat) (r : Rgp) : (r.setCause bit).resetHeld = r.resetHeld := rfl
@[simp] theorem Rgp.setCause_binding (bit : Nat) (r : Rgp) : (r.setCause bit).binding = r.binding := rfl
@[simp] theorem Rgp.setCause_layout (bit : Nat) (r : Rgp) : (r.setCause bit).layout = r.layout := rfl

@[simp] theorem Mpt.setWaits_windows (m : Mpt) (l : List Access) (b : Requester) : (m.setWaits l b).windows = m.windows := by cases b <;> rfl
@[simp] theorem Mpt.setWaits_records (m : Mpt) (l : List Access) (b : Requester) : (m.setWaits l b).records = m.records := by cases b <;> rfl
@[simp] theorem Mpt.setWaits_overflow (m : Mpt) (l : List Access) (b : Requester) : (m.setWaits l b).overflow = m.overflow := by cases b <;> rfl
@[simp] theorem Mpt.setWaits_onBus (m : Mpt) (l : List Access) (b : Requester) : (m.setWaits l b).onBus = m.onBus := by cases b <;> rfl
@[simp] theorem Mpt.setWaits_lastGrant (m : Mpt) (l : List Access) (b : Requester) : (m.setWaits l b).lastGrant = m.lastGrant := by cases b <;> rfl

@[simp] theorem Dlv.onStream_pendingEvents (id : StreamId) (f : StreamState → StreamState) (d : Dlv) : (d.onStream id f).pendingEvents = d.pendingEvents := by cases id <;> rfl
@[simp] theorem Dlv.onStream_returnRead (id : StreamId) (f : StreamState → StreamState) (d : Dlv) : (d.onStream id f).returnRead = d.returnRead := by cases id <;> rfl
@[simp] theorem Dlv.onStream_reread (id : StreamId) (f : StreamState → StreamState) (d : Dlv) : (d.onStream id f).reread = d.reread := by cases id <;> rfl
@[simp] theorem Dlv.onStream_assembly (id : StreamId) (f : StreamState → StreamState) (d : Dlv) : (d.onStream id f).assembly = d.assembly := by cases id <;> rfl
@[simp] theorem Dlv.onStream_outgoing (id : StreamId) (f : StreamState → StreamState) (d : Dlv) : (d.onStream id f).outgoing = d.outgoing := by cases id <;> rfl
@[simp] theorem Dlv.onStream_selector (id : StreamId) (f : StreamState → StreamState) (d : Dlv) : (d.onStream id f).selector = d.selector := by cases id <;> rfl
@[simp] theorem Dlv.onStream_progress (id : StreamId) (f : StreamState → StreamState) (d : Dlv) : (d.onStream id f).progress = d.progress := by cases id <;> rfl
@[simp] theorem Dlv.onStream_progressAsked (id : StreamId) (f : StreamState → StreamState) (d : Dlv) : (d.onStream id f).progressAsked = d.progressAsked := by cases id <;> rfl
@[simp] theorem Dlv.onStream_rewrite (id : StreamId) (f : StreamState → StreamState) (d : Dlv) : (d.onStream id f).rewrite = d.rewrite := by cases id <;> rfl
@[simp] theorem Dlv.onStream_image (id : StreamId) (f : StreamState → StreamState) (d : Dlv) : (d.onStream id f).image = d.image := by cases id <;> rfl
@[simp] theorem Dlv.onStream_updateCount (id : StreamId) (f : StreamState → StreamState) (d : Dlv) : (d.onStream id f).updateCount = d.updateCount := by cases id <;> rfl
@[simp] theorem Dlv.onStream_epochCount (id : StreamId) (f : StreamState → StreamState) (d : Dlv) : (d.onStream id f).epochCount = d.epochCount := by cases id <;> rfl
@[simp] theorem Dlv.onStream_epochShown (id : StreamId) (f : StreamState → StreamState) (d : Dlv) : (d.onStream id f).epochShown = d.epochShown := by cases id <;> rfl
@[simp] theorem Dlv.onStream_faultUnshown (id : StreamId) (f : StreamState → StreamState) (d : Dlv) : (d.onStream id f).faultUnshown = d.faultUnshown := by cases id <;> rfl
@[simp] theorem Dlv.onStream_counters (id : StreamId) (f : StreamState → StreamState) (d : Dlv) : (d.onStream id f).counters = d.counters := by cases id <;> rfl

@[simp] theorem Chip.onDlvCounters_rgp (f : DlvCounters → DlvCounters) (c : Chip) : (c.onDlvCounters f).rgp = c.rgp := rfl
@[simp] theorem Chip.onDlvCounters_mpt (f : DlvCounters → DlvCounters) (c : Chip) : (c.onDlvCounters f).mpt = c.mpt := rfl
@[simp] theorem Chip.onDlvCounters_lki (f : DlvCounters → DlvCounters) (c : Chip) : (c.onDlvCounters f).lki = c.lki := rfl
@[simp] theorem Chip.onDlvCounters_chc (f : DlvCounters → DlvCounters) (c : Chip) : (c.onDlvCounters f).chc = c.chc := rfl
@[simp] theorem Chip.onDlvCounters_ccu (f : DlvCounters → DlvCounters) (c : Chip) : (c.onDlvCounters f).ccu = c.ccu := rfl
@[simp] theorem Chip.onDlvCounters_sce (f : DlvCounters → DlvCounters) (c : Chip) : (c.onDlvCounters f).sce = c.sce := rfl
@[simp] theorem Chip.onDlvCounters_tcu (f : DlvCounters → DlvCounters) (c : Chip) : (c.onDlvCounters f).tcu = c.tcu := rfl
@[simp] theorem Chip.onDlvCounters_ord (f : DlvCounters → DlvCounters) (c : Chip) : (c.onDlvCounters f).ord = c.ord := rfl
@[simp] theorem Chip.onDlvCounters_freeUses (f : DlvCounters → DlvCounters) (c : Chip) : (c.onDlvCounters f).freeUses = c.freeUses := rfl
@[simp] theorem Chip.onDlvCounters_dlv_pick (f : DlvCounters → DlvCounters) (c : Chip) : (c.onDlvCounters f).dlv.pick = c.dlv.pick := rfl
@[simp] theorem Chip.onDlvCounters_dlv_event (f : DlvCounters → DlvCounters) (c : Chip) : (c.onDlvCounters f).dlv.event = c.dlv.event := rfl
@[simp] theorem Chip.onDlvCounters_dlv_pendingEvents (f : DlvCounters → DlvCounters) (c : Chip) : (c.onDlvCounters f).dlv.pendingEvents = c.dlv.pendingEvents := rfl
@[simp] theorem Chip.onDlvCounters_dlv_returnRead (f : DlvCounters → DlvCounters) (c : Chip) : (c.onDlvCounters f).dlv.returnRead = c.dlv.returnRead := rfl
@[simp] theorem Chip.onDlvCounters_dlv_reread (f : DlvCounters → DlvCounters) (c : Chip) : (c.onDlvCounters f).dlv.reread = c.dlv.reread := rfl
@[simp] theorem Chip.onDlvCounters_dlv_assembly (f : DlvCounters → DlvCounters) (c : Chip) : (c.onDlvCounters f).dlv.assembly = c.dlv.assembly := rfl
@[simp] theorem Chip.onDlvCounters_dlv_outgoing (f : DlvCounters → DlvCounters) (c : Chip) : (c.onDlvCounters f).dlv.outgoing = c.dlv.outgoing := rfl
@[simp] theorem Chip.onDlvCounters_dlv_selector (f : DlvCounters → DlvCounters) (c : Chip) : (c.onDlvCounters f).dlv.selector = c.dlv.selector := rfl
@[simp] theorem Chip.onDlvCounters_dlv_progress (f : DlvCounters → DlvCounters) (c : Chip) : (c.onDlvCounters f).dlv.progress = c.dlv.progress := rfl
@[simp] theorem Chip.onDlvCounters_dlv_progressAsked (f : DlvCounters → DlvCounters) (c : Chip) : (c.onDlvCounters f).dlv.progressAsked = c.dlv.progressAsked := rfl
@[simp] theorem Chip.onDlvCounters_dlv_rewrite (f : DlvCounters → DlvCounters) (c : Chip) : (c.onDlvCounters f).dlv.rewrite = c.dlv.rewrite := rfl
@[simp] theorem Chip.onDlvCounters_dlv_image (f : DlvCounters → DlvCounters) (c : Chip) : (c.onDlvCounters f).dlv.image = c.dlv.image := rfl
@[simp] theorem Chip.onDlvCounters_dlv_updateCount (f : DlvCounters → DlvCounters) (c : Chip) : (c.onDlvCounters f).dlv.updateCount = c.dlv.updateCount := rfl
@[simp] theorem Chip.onDlvCounters_dlv_epochCount (f : DlvCounters → DlvCounters) (c : Chip) : (c.onDlvCounters f).dlv.epochCount = c.dlv.epochCount := rfl
@[simp] theorem Chip.onDlvCounters_dlv_epochShown (f : DlvCounters → DlvCounters) (c : Chip) : (c.onDlvCounters f).dlv.epochShown = c.dlv.epochShown := rfl
@[simp] theorem Chip.onDlvCounters_dlv_faultUnshown (f : DlvCounters → DlvCounters) (c : Chip) : (c.onDlvCounters f).dlv.faultUnshown = c.dlv.faultUnshown := rfl
@[simp] theorem Chip.onDlvCounters_dlv_counters (f : DlvCounters → DlvCounters) (c : Chip) : (c.onDlvCounters f).dlv.counters = f c.dlv.counters := rfl

/-! ## The updates of one block that several commands share -/

@[simp] theorem Mpt.record_windows (src : FaultSource) (kind : FaultKind) (addr : Nat) (h : Option Nat) (m : Mpt) : (m.record src kind addr h).windows = m.windows := by unfold Mpt.record; (repeat' split) <;> rfl
@[simp] theorem Mpt.record_waitRgp (src : FaultSource) (kind : FaultKind) (addr : Nat) (h : Option Nat) (m : Mpt) : (m.record src kind addr h).waitRgp = m.waitRgp := by unfold Mpt.record; (repeat' split) <;> rfl
@[simp] theorem Mpt.record_waitTcu (src : FaultSource) (kind : FaultKind) (addr : Nat) (h : Option Nat) (m : Mpt) : (m.record src kind addr h).waitTcu = m.waitTcu := by unfold Mpt.record; (repeat' split) <;> rfl
@[simp] theorem Mpt.record_waitOrd (src : FaultSource) (kind : FaultKind) (addr : Nat) (h : Option Nat) (m : Mpt) : (m.record src kind addr h).waitOrd = m.waitOrd := by unfold Mpt.record; (repeat' split) <;> rfl
@[simp] theorem Mpt.record_waitDlv (src : FaultSource) (kind : FaultKind) (addr : Nat) (h : Option Nat) (m : Mpt) : (m.record src kind addr h).waitDlv = m.waitDlv := by unfold Mpt.record; (repeat' split) <;> rfl
@[simp] theorem Mpt.record_onBus (src : FaultSource) (kind : FaultKind) (addr : Nat) (h : Option Nat) (m : Mpt) : (m.record src kind addr h).onBus = m.onBus := by unfold Mpt.record; (repeat' split) <;> rfl
@[simp] theorem Mpt.record_lastGrant (src : FaultSource) (kind : FaultKind) (addr : Nat) (h : Option Nat) (m : Mpt) : (m.record src kind addr h).lastGrant = m.lastGrant := by unfold Mpt.record; (repeat' split) <;> rfl

@[simp] theorem Mpt.abandonWaiting_windows (m : Mpt) : (m.abandonWaiting).windows = m.windows := rfl
@[simp] theorem Mpt.abandonWaiting_records (m : Mpt) : (m.abandonWaiting).records = m.records := rfl
@[simp] theorem Mpt.abandonWaiting_overflow (m : Mpt) : (m.abandonWaiting).overflow = m.overflow := rfl
@[simp] theorem Mpt.abandonWaiting_onBus (m : Mpt) : (m.abandonWaiting).onBus = m.onBus := rfl
@[simp] theorem Mpt.abandonWaiting_lastGrant (m : Mpt) : (m.abandonWaiting).lastGrant = m.lastGrant := rfl

theorem grantAmong_windows (l : List Requester) (m : Mpt) : (grantAmong l m).windows = m.windows := by
  induction l with
  | nil => rfl
  | cons b l ih => unfold grantAmong; split <;> simp [ih]
@[simp] theorem Mpt.grant_windows (m : Mpt) : m.grant.windows = m.windows := by unfold Mpt.grant; split <;> simp [grantAmong_windows]

theorem grantAmong_records (l : List Requester) (m : Mpt) : (grantAmong l m).records = m.records := by
  induction l with
  | nil => rfl
  | cons b l ih => unfold grantAmong; split <;> simp [ih]
@[simp] theorem Mpt.grant_records (m : Mpt) : m.grant.records = m.records := by unfold Mpt.grant; split <;> simp [grantAmong_records]

theorem grantAmong_overflow (l : List Requester) (m : Mpt) : (grantAmong l m).overflow = m.overflow := by
  induction l with
  | nil => rfl
  | cons b l ih => unfold grantAmong; split <;> simp [ih]
@[simp] theorem Mpt.grant_overflow (m : Mpt) : m.grant.overflow = m.overflow := by unfold Mpt.grant; split <;> simp [grantAmong_overflow]

@[simp] theorem Lki.disableAll_horizon (l : Lki) : (l.disableAll).horizon = l.horizon := rfl

@[simp] theorem Lki.stall_horizon (n : Nat) (l : Lki) : (l.stall n).horizon = l.horizon := by unfold Lki.stall; split <;> rfl

@[simp] theorem Rgp.halt_autoStrap (hs : HaltSource) (r : Rgp) : (r.halt hs).autoStrap = r.autoStrap := rfl
@[simp] theorem Rgp.halt_dirselStrap (hs : HaltSource) (r : Rgp) : (r.halt hs).dirselStrap = r.dirselStrap := rfl
@[simp] theorem Rgp.halt_lastCode (hs : HaltSource) (r : Rgp) : (r.halt hs).lastCode = r.lastCode := rfl
@[simp] theorem Rgp.halt_acceptance (hs : HaltSource) (r : Rgp) : (r.halt hs).acceptance = r.acceptance := rfl
@[simp] theorem Rgp.halt_dirbase (hs : HaltSource) (r : Rgp) : (r.halt hs).dirbase = r.dirbase := rfl
@[simp] theorem Rgp.halt_cause (hs : HaltSource) (r : Rgp) : (r.halt hs).cause = r.cause := rfl
@[simp] theorem Rgp.halt_mask (hs : HaltSource) (r : Rgp) : (r.halt hs).mask = r.mask := rfl
@[simp] theorem Rgp.halt_resetHeld (hs : HaltSource) (r : Rgp) : (r.halt hs).resetHeld = r.resetHeld := rfl
@[simp] theorem Rgp.halt_layout (hs : HaltSource) (r : Rgp) : (r.halt hs).layout = r.layout := rfl

@[simp] theorem Rgp.startBinding_autoStrap (auto : Bool) (r : Rgp) : (r.startBinding auto).autoStrap = r.autoStrap := rfl
@[simp] theorem Rgp.startBinding_dirselStrap (auto : Bool) (r : Rgp) : (r.startBinding auto).dirselStrap = r.dirselStrap := rfl
@[simp] theorem Rgp.startBinding_lastCode (auto : Bool) (r : Rgp) : (r.startBinding auto).lastCode = r.lastCode := rfl
@[simp] theorem Rgp.startBinding_acceptance (auto : Bool) (r : Rgp) : (r.startBinding auto).acceptance = r.acceptance := rfl
@[simp] theorem Rgp.startBinding_dirbase (auto : Bool) (r : Rgp) : (r.startBinding auto).dirbase = r.dirbase := rfl
@[simp] theorem Rgp.startBinding_cause (auto : Bool) (r : Rgp) : (r.startBinding auto).cause = r.cause := rfl
@[simp] theorem Rgp.startBinding_mask (auto : Bool) (r : Rgp) : (r.startBinding auto).mask = r.mask := rfl
@[simp] theorem Rgp.startBinding_resetHeld (auto : Bool) (r : Rgp) : (r.startBinding auto).resetHeld = r.resetHeld := rfl

@[simp] theorem Tcu.discard_settings (t : Tcu) : (t.discard).settings = t.settings := rfl
@[simp] theorem Tcu.discard_grids (t : Tcu) : (t.discard).grids = t.grids := rfl
@[simp] theorem Tcu.discard_hubEntries (t : Tcu) : (t.discard).hubEntries = t.hubEntries := rfl
@[simp] theorem Tcu.discard_stationEntries (t : Tcu) : (t.discard).stationEntries = t.stationEntries := rfl
@[simp] theorem Tcu.discard_cache (t : Tcu) : (t.discard).cache = t.cache := rfl
@[simp] theorem Tcu.discard_hits (t : Tcu) : (t.discard).hits = t.hits := rfl
@[simp] theorem Tcu.discard_misses (t : Tcu) : (t.discard).misses = t.misses := rfl
@[simp] theorem Tcu.discard_evictions (t : Tcu) : (t.discard).evictions = t.evictions := rfl
@[simp] theorem Tcu.discard_dropped (t : Tcu) : (t.discard).dropped = t.dropped := rfl
@[simp] theorem Tcu.discard_invalidations (t : Tcu) : (t.discard).invalidations = t.invalidations := rfl

@[simp] theorem Tcu.dropRows_settings (scope : RowScope) (t : Tcu) : (t.dropRows scope).settings = t.settings := rfl
@[simp] theorem Tcu.dropRows_grids (scope : RowScope) (t : Tcu) : (t.dropRows scope).grids = t.grids := rfl
@[simp] theorem Tcu.dropRows_hubEntries (scope : RowScope) (t : Tcu) : (t.dropRows scope).hubEntries = t.hubEntries := rfl
@[simp] theorem Tcu.dropRows_stationEntries (scope : RowScope) (t : Tcu) : (t.dropRows scope).stationEntries = t.stationEntries := rfl
@[simp] theorem Tcu.dropRows_reload (scope : RowScope) (t : Tcu) : (t.dropRows scope).reload = t.reload := rfl
@[simp] theorem Tcu.dropRows_waiting (scope : RowScope) (t : Tcu) : (t.dropRows scope).waiting = t.waiting := rfl
@[simp] theorem Tcu.dropRows_drain (scope : RowScope) (t : Tcu) : (t.dropRows scope).drain = t.drain := rfl
@[simp] theorem Tcu.dropRows_hits (scope : RowScope) (t : Tcu) : (t.dropRows scope).hits = t.hits := rfl
@[simp] theorem Tcu.dropRows_misses (scope : RowScope) (t : Tcu) : (t.dropRows scope).misses = t.misses := rfl
@[simp] theorem Tcu.dropRows_evictions (scope : RowScope) (t : Tcu) : (t.dropRows scope).evictions = t.evictions := rfl
@[simp] theorem Tcu.dropRows_invalidations (scope : RowScope) (t : Tcu) : (t.dropRows scope).invalidations = t.invalidations := rfl

@[simp] theorem Tcu.endFetch_settings (row : Option (List (BitVec 16))) (t : Tcu) : (t.endFetch row).settings = t.settings := by unfold Tcu.endFetch Tcu.keepRow; (repeat' split) <;> rfl
@[simp] theorem Tcu.endFetch_grids (row : Option (List (BitVec 16))) (t : Tcu) : (t.endFetch row).grids = t.grids := by unfold Tcu.endFetch Tcu.keepRow; (repeat' split) <;> rfl
@[simp] theorem Tcu.endFetch_hubEntries (row : Option (List (BitVec 16))) (t : Tcu) : (t.endFetch row).hubEntries = t.hubEntries := by unfold Tcu.endFetch Tcu.keepRow; (repeat' split) <;> rfl
@[simp] theorem Tcu.endFetch_stationEntries (row : Option (List (BitVec 16))) (t : Tcu) : (t.endFetch row).stationEntries = t.stationEntries := by unfold Tcu.endFetch Tcu.keepRow; (repeat' split) <;> rfl
@[simp] theorem Tcu.endFetch_reload (row : Option (List (BitVec 16))) (t : Tcu) : (t.endFetch row).reload = t.reload := by unfold Tcu.endFetch Tcu.keepRow; (repeat' split) <;> rfl
@[simp] theorem Tcu.endFetch_waiting (row : Option (List (BitVec 16))) (t : Tcu) : (t.endFetch row).waiting = t.waiting := by unfold Tcu.endFetch Tcu.keepRow; (repeat' split) <;> rfl
@[simp] theorem Tcu.endFetch_drain (row : Option (List (BitVec 16))) (t : Tcu) : (t.endFetch row).drain = t.drain := by unfold Tcu.endFetch Tcu.keepRow; (repeat' split) <;> rfl
@[simp] theorem Tcu.endFetch_hits (row : Option (List (BitVec 16))) (t : Tcu) : (t.endFetch row).hits = t.hits := by unfold Tcu.endFetch Tcu.keepRow; (repeat' split) <;> rfl
@[simp] theorem Tcu.endFetch_misses (row : Option (List (BitVec 16))) (t : Tcu) : (t.endFetch row).misses = t.misses := by unfold Tcu.endFetch Tcu.keepRow; (repeat' split) <;> rfl
@[simp] theorem Tcu.endFetch_dropped (row : Option (List (BitVec 16))) (t : Tcu) : (t.endFetch row).dropped = t.dropped := by unfold Tcu.endFetch Tcu.keepRow; (repeat' split) <;> rfl
@[simp] theorem Tcu.endFetch_invalidations (row : Option (List (BitVec 16))) (t : Tcu) : (t.endFetch row).invalidations = t.invalidations := by unfold Tcu.endFetch Tcu.keepRow; (repeat' split) <;> rfl

@[simp] theorem Dlv.carry_pick (d : Dlv) : (d.carry).pick = d.pick := rfl
@[simp] theorem Dlv.carry_event (d : Dlv) : (d.carry).event = d.event := rfl
@[simp] theorem Dlv.carry_pendingEvents (d : Dlv) : (d.carry).pendingEvents = d.pendingEvents := rfl
@[simp] theorem Dlv.carry_returnRead (d : Dlv) : (d.carry).returnRead = d.returnRead := rfl
@[simp] theorem Dlv.carry_reread (d : Dlv) : (d.carry).reread = d.reread := rfl
@[simp] theorem Dlv.carry_assembly (d : Dlv) : (d.carry).assembly = d.assembly := rfl
@[simp] theorem Dlv.carry_outgoing (d : Dlv) : (d.carry).outgoing = d.outgoing := rfl
@[simp] theorem Dlv.carry_selector (d : Dlv) : (d.carry).selector = d.selector := rfl
@[simp] theorem Dlv.carry_progressAsked (d : Dlv) : (d.carry).progressAsked = d.progressAsked := rfl
@[simp] theorem Dlv.carry_rewrite (d : Dlv) : (d.carry).rewrite = d.rewrite := rfl
@[simp] theorem Dlv.carry_image (d : Dlv) : (d.carry).image = d.image := rfl
@[simp] theorem Dlv.carry_updateCount (d : Dlv) : (d.carry).updateCount = d.updateCount := rfl
@[simp] theorem Dlv.carry_epochCount (d : Dlv) : (d.carry).epochCount = d.epochCount := rfl
@[simp] theorem Dlv.carry_epochShown (d : Dlv) : (d.carry).epochShown = d.epochShown := rfl
@[simp] theorem Dlv.carry_counters (d : Dlv) : (d.carry).counters = d.counters := rfl

@[simp] theorem Dlv.ask_pick (d : Dlv) : (d.ask).pick = d.pick := by unfold Dlv.ask; split <;> rfl
@[simp] theorem Dlv.ask_event (d : Dlv) : (d.ask).event = d.event := by unfold Dlv.ask; split <;> rfl
@[simp] theorem Dlv.ask_pendingEvents (d : Dlv) : (d.ask).pendingEvents = d.pendingEvents := by unfold Dlv.ask; split <;> rfl
@[simp] theorem Dlv.ask_returnRead (d : Dlv) : (d.ask).returnRead = d.returnRead := by unfold Dlv.ask; split <;> rfl
@[simp] theorem Dlv.ask_reread (d : Dlv) : (d.ask).reread = d.reread := by unfold Dlv.ask; split <;> rfl
@[simp] theorem Dlv.ask_assembly (d : Dlv) : (d.ask).assembly = d.assembly := by unfold Dlv.ask; split <;> rfl
@[simp] theorem Dlv.ask_outgoing (d : Dlv) : (d.ask).outgoing = d.outgoing := by unfold Dlv.ask; split <;> rfl
@[simp] theorem Dlv.ask_selector (d : Dlv) : (d.ask).selector = d.selector := by unfold Dlv.ask; split <;> rfl
@[simp] theorem Dlv.ask_progress (d : Dlv) : (d.ask).progress = d.progress := by unfold Dlv.ask; split <;> rfl
@[simp] theorem Dlv.ask_image (d : Dlv) : (d.ask).image = d.image := by unfold Dlv.ask; split <;> rfl
@[simp] theorem Dlv.ask_updateCount (d : Dlv) : (d.ask).updateCount = d.updateCount := by unfold Dlv.ask; split <;> rfl
@[simp] theorem Dlv.ask_epochCount (d : Dlv) : (d.ask).epochCount = d.epochCount := by unfold Dlv.ask; split <;> rfl
@[simp] theorem Dlv.ask_epochShown (d : Dlv) : (d.ask).epochShown = d.epochShown := by unfold Dlv.ask; split <;> rfl
@[simp] theorem Dlv.ask_faultUnshown (d : Dlv) : (d.ask).faultUnshown = d.faultUnshown := by unfold Dlv.ask; split <;> rfl
@[simp] theorem Dlv.ask_counters (d : Dlv) : (d.ask).counters = d.counters := by unfold Dlv.ask; split <;> rfl

@[simp] theorem Dlv.discard_pick (d : Dlv) : (d.discard).pick = d.pick := rfl
@[simp] theorem Dlv.discard_event (d : Dlv) : (d.discard).event = d.event := rfl
@[simp] theorem Dlv.discard_selector (d : Dlv) : (d.discard).selector = d.selector := rfl
@[simp] theorem Dlv.discard_image (d : Dlv) : (d.discard).image = d.image := rfl
@[simp] theorem Dlv.discard_updateCount (d : Dlv) : (d.discard).updateCount = d.updateCount := rfl
@[simp] theorem Dlv.discard_epochCount (d : Dlv) : (d.discard).epochCount = d.epochCount := rfl
@[simp] theorem Dlv.discard_epochShown (d : Dlv) : (d.discard).epochShown = d.epochShown := rfl
@[simp] theorem Dlv.discard_faultUnshown (d : Dlv) : (d.discard).faultUnshown = d.faultUnshown := rfl

@[simp] theorem Dlv.freeze_image (b : List Byte) (d : Dlv) : (d.freeze b).image = .frozen b := rfl
@[simp] theorem Dlv.freeze_pick (b : List Byte) (d : Dlv) : (d.freeze b).pick = d.pick := rfl
@[simp] theorem Dlv.freeze_event (b : List Byte) (d : Dlv) : (d.freeze b).event = d.event := rfl
@[simp] theorem Dlv.freeze_pendingEvents (b : List Byte) (d : Dlv) : (d.freeze b).pendingEvents = d.pendingEvents := rfl
@[simp] theorem Dlv.freeze_returnRead (b : List Byte) (d : Dlv) : (d.freeze b).returnRead = d.returnRead := rfl
@[simp] theorem Dlv.freeze_reread (b : List Byte) (d : Dlv) : (d.freeze b).reread = d.reread := rfl
@[simp] theorem Dlv.freeze_assembly (b : List Byte) (d : Dlv) : (d.freeze b).assembly = d.assembly := rfl
@[simp] theorem Dlv.freeze_outgoing (b : List Byte) (d : Dlv) : (d.freeze b).outgoing = d.outgoing := rfl
@[simp] theorem Dlv.freeze_selector (b : List Byte) (d : Dlv) : (d.freeze b).selector = d.selector := rfl
@[simp] theorem Dlv.freeze_progress (b : List Byte) (d : Dlv) : (d.freeze b).progress = d.progress := rfl
@[simp] theorem Dlv.freeze_progressAsked (b : List Byte) (d : Dlv) : (d.freeze b).progressAsked = d.progressAsked := rfl
@[simp] theorem Dlv.freeze_rewrite (b : List Byte) (d : Dlv) : (d.freeze b).rewrite = d.rewrite := rfl
@[simp] theorem Dlv.freeze_updateCount (b : List Byte) (d : Dlv) : (d.freeze b).updateCount = d.updateCount := rfl
@[simp] theorem Dlv.freeze_epochCount (b : List Byte) (d : Dlv) : (d.freeze b).epochCount = d.epochCount := rfl
@[simp] theorem Dlv.freeze_epochShown (b : List Byte) (d : Dlv) : (d.freeze b).epochShown = d.epochShown := rfl
@[simp] theorem Dlv.freeze_faultUnshown (b : List Byte) (d : Dlv) : (d.freeze b).faultUnshown = d.faultUnshown := rfl
@[simp] theorem Dlv.freeze_counters (b : List Byte) (d : Dlv) : (d.freeze b).counters = d.counters := rfl

@[simp] theorem Ccu.discard_prevCount (u : Ccu) : (u.discard).prevCount = u.prevCount := rfl
@[simp] theorem Ccu.discard_requestCounter (u : Ccu) : (u.discard).requestCounter = u.requestCounter := rfl
@[simp] theorem Ccu.discard_declarations (u : Ccu) : (u.discard).declarations = u.declarations := rfl
@[simp] theorem Ccu.discard_merges (u : Ccu) : (u.discard).merges = u.merges := rfl
@[simp] theorem Ccu.discard_lost (u : Ccu) : (u.discard).lost = u.lost := rfl
@[simp] theorem Ccu.discard_displaced (u : Ccu) : (u.discard).displaced = u.displaced := rfl

@[simp] theorem Sce.discard_parks (e : Sce) : (e.discard).parks = e.parks := rfl
@[simp] theorem Sce.discard_resumes (e : Sce) : (e.discard).resumes = e.resumes := rfl
@[simp] theorem Sce.discard_stage2Runs (e : Sce) : (e.discard).stage2Runs = e.stage2Runs := rfl

@[simp] theorem Orders.discard_expected (o : Orders) : (o.discard).expected = o.expected := rfl
@[simp] theorem Orders.discard_polls (o : Orders) : (o.discard).polls = o.polls := rfl
@[simp] theorem Orders.discard_taken (o : Orders) : (o.discard).taken = o.taken := rfl
@[simp] theorem Orders.discard_duplicates (o : Orders) : (o.discard).duplicates = o.duplicates := rfl
@[simp] theorem Orders.discard_torn (o : Orders) : (o.discard).torn = o.torn := rfl

@[simp] theorem noteSlotWritten_expected (slot : Nat) (o : Orders) : (noteSlotWritten slot o).expected = o.expected := rfl
@[simp] theorem noteSlotWritten_drainPending (slot : Nat) (o : Orders) : (noteSlotWritten slot o).drainPending = o.drainPending := rfl
@[simp] theorem noteSlotWritten_openOrders (slot : Nat) (o : Orders) : (noteSlotWritten slot o).openOrders = o.openOrders := rfl
@[simp] theorem noteSlotWritten_poll (slot : Nat) (o : Orders) : (noteSlotWritten slot o).poll = o.poll := rfl
@[simp] theorem noteSlotWritten_repeatMark (slot : Nat) (o : Orders) : (noteSlotWritten slot o).repeatMark = o.repeatMark := rfl
@[simp] theorem noteSlotWritten_timer (slot : Nat) (o : Orders) : (noteSlotWritten slot o).timer = o.timer := rfl
@[simp] theorem noteSlotWritten_polls (slot : Nat) (o : Orders) : (noteSlotWritten slot o).polls = o.polls := rfl
@[simp] theorem noteSlotWritten_taken (slot : Nat) (o : Orders) : (noteSlotWritten slot o).taken = o.taken := rfl
@[simp] theorem noteSlotWritten_duplicates (slot : Nat) (o : Orders) : (noteSlotWritten slot o).duplicates = o.duplicates := rfl
@[simp] theorem noteSlotWritten_torn (slot : Nat) (o : Orders) : (noteSlotWritten slot o).torn = o.torn := rfl

@[simp] theorem closeOrder_expected (slot : Nat) (o : Orders) : (closeOrder slot o).expected = o.expected := rfl
@[simp] theorem closeOrder_drainPending (slot : Nat) (o : Orders) : (closeOrder slot o).drainPending = o.drainPending := rfl
@[simp] theorem closeOrder_poll (slot : Nat) (o : Orders) : (closeOrder slot o).poll = o.poll := rfl
@[simp] theorem closeOrder_repeatMark (slot : Nat) (o : Orders) : (closeOrder slot o).repeatMark = o.repeatMark := rfl
@[simp] theorem closeOrder_timer (slot : Nat) (o : Orders) : (closeOrder slot o).timer = o.timer := rfl
@[simp] theorem closeOrder_takeRun (slot : Nat) (o : Orders) : (closeOrder slot o).takeRun = o.takeRun := rfl
@[simp] theorem closeOrder_polls (slot : Nat) (o : Orders) : (closeOrder slot o).polls = o.polls := rfl
@[simp] theorem closeOrder_taken (slot : Nat) (o : Orders) : (closeOrder slot o).taken = o.taken := rfl
@[simp] theorem closeOrder_duplicates (slot : Nat) (o : Orders) : (closeOrder slot o).duplicates = o.duplicates := rfl
@[simp] theorem closeOrder_torn (slot : Nat) (o : Orders) : (closeOrder slot o).torn = o.torn := rfl

end Sys2Proof.Machine
end

