-- ==== Sys2Proof/Laws/OpsFrame.lean ====
section
/-! SUPPORT. The frames of the shared operations: for each, the parts of the state it keeps. A relation
`Kept.by…` names the blocks and fields kept, and is cited for every operation that keeps exactly those. -/

namespace Sys2Proof.Machine

/-- What `setCause` keeps. -/
abbrev Kept.bySetCause (c d : Chip) : Prop :=
  d.rgp.partState = c.rgp.partState ∧
  d.rgp.bindResult = c.rgp.bindResult ∧ d.rgp.haltSource = c.rgp.haltSource ∧ d.rgp.autoStrap = c.rgp.autoStrap ∧
  d.rgp.dirselStrap = c.rgp.dirselStrap ∧ d.rgp.lastCode = c.rgp.lastCode ∧ d.rgp.acceptance = c.rgp.acceptance ∧
  d.rgp.dirbase = c.rgp.dirbase ∧ d.rgp.mask = c.rgp.mask ∧ d.rgp.resetHeld = c.rgp.resetHeld ∧
  d.rgp.binding = c.rgp.binding ∧ d.rgp.layout = c.rgp.layout ∧ d.mpt = c.mpt ∧ d.lki = c.lki ∧ d.chc = c.chc ∧
  d.ccu = c.ccu ∧ d.sce = c.sce ∧ d.tcu = c.tcu ∧ d.ord = c.ord ∧ d.dlv = c.dlv ∧ d.freeUses = c.freeUses ∧
  d.active = c.active

/-- The frame of `setCause`. -/
@[simp] theorem setCause_frame (bit : Nat) (c : Chip) : Kept.bySetCause c (setCause bit c) := by
  and_intros
  all_goals first
    | (simp [setCause]; done)
    | (simp [setCause, Chip.active])

/-- What `request` keeps. -/
abbrev Kept.byRequest (c d : Chip) : Prop :=
  d.rgp = c.rgp ∧ d.mpt.windows = c.mpt.windows ∧
  d.mpt.records = c.mpt.records ∧ d.mpt.overflow = c.mpt.overflow ∧ d.mpt.onBus = c.mpt.onBus ∧
  d.mpt.lastGrant = c.mpt.lastGrant ∧ d.lki = c.lki ∧ d.chc = c.chc ∧ d.ccu = c.ccu ∧ d.sce = c.sce ∧ d.tcu = c.tcu ∧
  d.ord = c.ord ∧ d.dlv = c.dlv ∧ d.freeUses = c.freeUses ∧ d.active = c.active

/-- The frame of `request`. -/
@[simp] theorem request_frame (b : Requester) (a : Access) (c : Chip) : Kept.byRequest c (request b a c) := by
  and_intros
  all_goals first
    | (simp [request]; done)
    | (simp [request, Chip.active])

/-- The frame of `requestAll`. -/
@[simp] theorem requestAll_frame (b : Requester) (l : List Access) (c : Chip) :
    Kept.byRequest c (requestAll b l c) := by
  and_intros
  all_goals first
    | (simp [requestAll]; done)
    | (simp [requestAll, Chip.active])

/-- What `stepUpdateCount` keeps. -/
abbrev Kept.byStepUpdateCount (c d : Chip) : Prop :=
  d.rgp = c.rgp ∧ d.mpt = c.mpt ∧ d.lki = c.lki ∧ d.chc = c.chc ∧
  d.ccu = c.ccu ∧ d.sce = c.sce ∧ d.tcu = c.tcu ∧ d.ord = c.ord ∧ d.dlv.image = c.dlv.image ∧ d.dlv.pick = c.dlv.pick ∧
  d.dlv.event = c.dlv.event ∧ d.dlv.pendingEvents = c.dlv.pendingEvents ∧ d.dlv.returnRead = c.dlv.returnRead ∧
  d.dlv.reread = c.dlv.reread ∧ d.dlv.assembly = c.dlv.assembly ∧ d.dlv.outgoing = c.dlv.outgoing ∧
  d.dlv.selector = c.dlv.selector ∧ d.dlv.progress = c.dlv.progress ∧ d.dlv.progressAsked = c.dlv.progressAsked ∧
  d.dlv.rewrite = c.dlv.rewrite ∧ d.dlv.epochCount = c.dlv.epochCount ∧ d.dlv.epochShown = c.dlv.epochShown ∧
  d.dlv.faultUnshown = c.dlv.faultUnshown ∧ d.dlv.counters = c.dlv.counters ∧ d.active = c.active

/-- The frame of `stepUpdateCount`. -/
@[simp] theorem stepUpdateCount_frame (c : Chip) : Kept.byStepUpdateCount c (stepUpdateCount c) := by
  and_intros
  all_goals first
    | (simp [stepUpdateCount]; done)
    | (simp [stepUpdateCount, Chip.active])

/-- What `beginProgress` keeps. -/
abbrev Kept.byBeginProgress (c d : Chip) : Prop :=
  d.rgp = c.rgp ∧ d.mpt.windows = c.mpt.windows ∧ d.mpt.records = c.mpt.records ∧ d.mpt.overflow = c.mpt.overflow ∧
  d.mpt.onBus = c.mpt.onBus ∧ d.mpt.lastGrant = c.mpt.lastGrant ∧ d.lki = c.lki ∧ d.chc = c.chc ∧ d.ccu = c.ccu ∧
  d.sce = c.sce ∧ d.tcu = c.tcu ∧ d.ord = c.ord ∧ d.dlv.image = c.dlv.image ∧ d.dlv.pick = c.dlv.pick ∧
  d.dlv.event = c.dlv.event ∧ d.dlv.pendingEvents = c.dlv.pendingEvents ∧ d.dlv.returnRead = c.dlv.returnRead ∧
  d.dlv.reread = c.dlv.reread ∧ d.dlv.assembly = c.dlv.assembly ∧ d.dlv.outgoing = c.dlv.outgoing ∧
  d.dlv.selector = c.dlv.selector ∧ d.dlv.progressAsked = c.dlv.progressAsked ∧ d.dlv.rewrite = c.dlv.rewrite ∧
  d.dlv.epochCount = c.dlv.epochCount ∧ d.dlv.epochShown = c.dlv.epochShown ∧ d.dlv.counters = c.dlv.counters ∧
  d.active = c.active

/-- The frame of `beginProgress`. -/
@[simp] theorem beginProgress_frame (state : PartState) (c : Chip) :
    Kept.byBeginProgress c (beginProgress state c) := by
  and_intros
  all_goals first
    | (simp [beginProgress]; done)
    | (simp [beginProgress, Chip.active])

/-- What `askProgress` keeps. -/
abbrev Kept.byAskProgress (c d : Chip) : Prop :=
  d.rgp = c.rgp ∧ d.mpt = c.mpt ∧ d.lki = c.lki ∧ d.chc = c.chc ∧
  d.ccu = c.ccu ∧ d.sce = c.sce ∧ d.tcu = c.tcu ∧ d.ord = c.ord ∧ d.dlv.image = c.dlv.image ∧ d.dlv.pick = c.dlv.pick ∧
  d.dlv.event = c.dlv.event ∧ d.dlv.pendingEvents = c.dlv.pendingEvents ∧ d.dlv.returnRead = c.dlv.returnRead ∧
  d.dlv.reread = c.dlv.reread ∧ d.dlv.assembly = c.dlv.assembly ∧ d.dlv.outgoing = c.dlv.outgoing ∧
  d.dlv.selector = c.dlv.selector ∧ d.dlv.progress = c.dlv.progress ∧ d.dlv.updateCount = c.dlv.updateCount ∧
  d.dlv.epochCount = c.dlv.epochCount ∧ d.dlv.epochShown = c.dlv.epochShown ∧
  d.dlv.faultUnshown = c.dlv.faultUnshown ∧ d.dlv.counters = c.dlv.counters ∧ d.freeUses = c.freeUses ∧
  d.active = c.active

/-- The frame of `askProgress`. -/
@[simp] theorem askProgress_frame (c : Chip) : Kept.byAskProgress c (askProgress c) := by
  and_intros
  all_goals first
    | (unfold askProgress; (repeat' split) <;> simp)
    | (unfold askProgress; (repeat' split) <;> simp [Chip.active])

/-- What `startAsked` keeps. -/
abbrev Kept.byStartAsked (c d : Chip) : Prop :=
  d.rgp = c.rgp ∧ d.mpt.windows = c.mpt.windows ∧ d.mpt.records = c.mpt.records ∧ d.mpt.overflow = c.mpt.overflow ∧
  d.mpt.onBus = c.mpt.onBus ∧ d.mpt.lastGrant = c.mpt.lastGrant ∧ d.lki = c.lki ∧ d.chc = c.chc ∧ d.ccu = c.ccu ∧
  d.sce = c.sce ∧ d.tcu = c.tcu ∧ d.ord = c.ord ∧ d.dlv.image = c.dlv.image ∧ d.dlv.pick = c.dlv.pick ∧
  d.dlv.event = c.dlv.event ∧ d.dlv.pendingEvents = c.dlv.pendingEvents ∧ d.dlv.returnRead = c.dlv.returnRead ∧
  d.dlv.reread = c.dlv.reread ∧ d.dlv.assembly = c.dlv.assembly ∧ d.dlv.outgoing = c.dlv.outgoing ∧
  d.dlv.selector = c.dlv.selector ∧ d.dlv.rewrite = c.dlv.rewrite ∧ d.dlv.epochCount = c.dlv.epochCount ∧
  d.dlv.epochShown = c.dlv.epochShown ∧ d.dlv.counters = c.dlv.counters ∧ d.active = c.active

/-- The frame of `startAsked`. -/
@[simp] theorem startAsked_frame (c : Chip) : Kept.byStartAsked c (startAsked c) := by
  and_intros
  all_goals first
    | (unfold startAsked; (try dsimp only); (repeat' split) <;> simp)
    | (unfold startAsked; (try dsimp only); (repeat' split) <;> simp [Chip.active])

/-- What `concludeStep` keeps. -/
abbrev Kept.byConcludeStep (c d : Chip) : Prop :=
  d.rgp = c.rgp ∧ d.mpt.windows = c.mpt.windows ∧ d.mpt.records = c.mpt.records ∧ d.mpt.overflow = c.mpt.overflow ∧
  d.lki = c.lki ∧ d.chc = c.chc ∧ d.ccu = c.ccu ∧ d.sce = c.sce ∧ d.tcu = c.tcu ∧ d.ord = c.ord ∧
  d.dlv.image = c.dlv.image ∧ d.dlv.pick = c.dlv.pick ∧ d.dlv.event = c.dlv.event ∧
  d.dlv.pendingEvents = c.dlv.pendingEvents ∧ d.dlv.returnRead = c.dlv.returnRead ∧ d.dlv.reread = c.dlv.reread ∧
  d.dlv.assembly = c.dlv.assembly ∧ d.dlv.outgoing = c.dlv.outgoing ∧ d.dlv.selector = c.dlv.selector ∧
  d.dlv.rewrite = c.dlv.rewrite ∧ d.dlv.epochCount = c.dlv.epochCount ∧ d.dlv.epochShown = c.dlv.epochShown ∧
  d.dlv.counters = c.dlv.counters ∧ d.active = c.active

/-- The frame of `concludeStep`. -/
@[simp] theorem concludeStep_frame (c : Chip) : Kept.byConcludeStep c (concludeStep c) := by
  and_intros
  all_goals first
    | (simp [concludeStep]; done)
    | (simp [concludeStep, Chip.active])

/-- What `recordFaultNow` keeps. -/
abbrev Kept.byRecordFaultNow (c d : Chip) : Prop :=
  d.rgp.partState = c.rgp.partState ∧
  d.rgp.bindResult = c.rgp.bindResult ∧ d.rgp.haltSource = c.rgp.haltSource ∧ d.rgp.autoStrap = c.rgp.autoStrap ∧
  d.rgp.dirselStrap = c.rgp.dirselStrap ∧ d.rgp.lastCode = c.rgp.lastCode ∧ d.rgp.acceptance = c.rgp.acceptance ∧
  d.rgp.dirbase = c.rgp.dirbase ∧ d.rgp.mask = c.rgp.mask ∧ d.rgp.resetHeld = c.rgp.resetHeld ∧
  d.rgp.binding = c.rgp.binding ∧ d.rgp.layout = c.rgp.layout ∧ d.mpt.windows = c.mpt.windows ∧
  d.mpt.waitRgp = c.mpt.waitRgp ∧ d.mpt.waitTcu = c.mpt.waitTcu ∧ d.mpt.waitOrd = c.mpt.waitOrd ∧
  d.mpt.waitDlv = c.mpt.waitDlv ∧ d.mpt.onBus = c.mpt.onBus ∧ d.mpt.lastGrant = c.mpt.lastGrant ∧ d.lki = c.lki ∧
  d.chc = c.chc ∧ d.ccu = c.ccu ∧ d.sce = c.sce ∧ d.tcu = c.tcu ∧ d.ord = c.ord ∧ d.dlv = c.dlv ∧
  d.freeUses = c.freeUses ∧ d.active = c.active

/-- The frame of `recordFaultNow`. -/
@[simp] theorem recordFaultNow_frame (src : FaultSource) (kind : FaultKind) (addr : Nat) (c : Chip) :
    Kept.byRecordFaultNow c (recordFaultNow src kind addr c) := by
  and_intros
  all_goals first
    | (simp [recordFaultNow]; done)
    | (simp [recordFaultNow, Chip.active])

/-- What `recordFault` keeps. -/
abbrev Kept.byRecordFault (c d : Chip) : Prop :=
  d.rgp.partState = c.rgp.partState ∧ d.rgp.bindResult = c.rgp.bindResult ∧ d.rgp.haltSource = c.rgp.haltSource ∧
  d.rgp.autoStrap = c.rgp.autoStrap ∧ d.rgp.dirselStrap = c.rgp.dirselStrap ∧ d.rgp.lastCode = c.rgp.lastCode ∧
  d.rgp.acceptance = c.rgp.acceptance ∧ d.rgp.dirbase = c.rgp.dirbase ∧ d.rgp.mask = c.rgp.mask ∧
  d.rgp.resetHeld = c.rgp.resetHeld ∧ d.rgp.binding = c.rgp.binding ∧ d.rgp.layout = c.rgp.layout ∧
  d.mpt.windows = c.mpt.windows ∧ d.mpt.waitRgp = c.mpt.waitRgp ∧ d.mpt.waitTcu = c.mpt.waitTcu ∧
  d.mpt.waitOrd = c.mpt.waitOrd ∧ d.mpt.waitDlv = c.mpt.waitDlv ∧ d.mpt.onBus = c.mpt.onBus ∧
  d.mpt.lastGrant = c.mpt.lastGrant ∧ d.lki = c.lki ∧ d.chc = c.chc ∧ d.ccu = c.ccu ∧ d.sce = c.sce ∧ d.tcu = c.tcu ∧
  d.ord = c.ord ∧ d.dlv.image = c.dlv.image ∧ d.dlv.pick = c.dlv.pick ∧ d.dlv.event = c.dlv.event ∧
  d.dlv.pendingEvents = c.dlv.pendingEvents ∧ d.dlv.returnRead = c.dlv.returnRead ∧ d.dlv.reread = c.dlv.reread ∧
  d.dlv.assembly = c.dlv.assembly ∧ d.dlv.outgoing = c.dlv.outgoing ∧ d.dlv.selector = c.dlv.selector ∧
  d.dlv.progress = c.dlv.progress ∧ d.dlv.updateCount = c.dlv.updateCount ∧ d.dlv.epochCount = c.dlv.epochCount ∧
  d.dlv.epochShown = c.dlv.epochShown ∧ d.dlv.counters = c.dlv.counters ∧ d.freeUses = c.freeUses ∧ d.active = c.active

/-- The frame of `recordFault`. -/
@[simp] theorem recordFault_frame (src : FaultSource) (kind : FaultKind) (addr : Nat) (c : Chip) :
    Kept.byRecordFault c (recordFault src kind addr c) := by
  and_intros
  all_goals first
    | (unfold recordFault; (repeat' split) <;> simp; done)
    | (unfold recordFault; (repeat' split) <;> simp [Chip.active])

/-- What `beginReturnRead` keeps. -/
abbrev Kept.byBeginReturnRead (c d : Chip) : Prop :=
  d.rgp = c.rgp ∧ d.mpt.windows = c.mpt.windows ∧ d.mpt.records = c.mpt.records ∧ d.mpt.overflow = c.mpt.overflow ∧
  d.mpt.onBus = c.mpt.onBus ∧ d.mpt.lastGrant = c.mpt.lastGrant ∧ d.lki = c.lki ∧ d.chc = c.chc ∧ d.ccu = c.ccu ∧
  d.sce = c.sce ∧ d.tcu = c.tcu ∧ d.ord = c.ord ∧ d.dlv.image = c.dlv.image ∧ d.dlv.pick = c.dlv.pick ∧
  d.dlv.event = c.dlv.event ∧ d.dlv.pendingEvents = c.dlv.pendingEvents ∧ d.dlv.assembly = c.dlv.assembly ∧
  d.dlv.outgoing = c.dlv.outgoing ∧ d.dlv.selector = c.dlv.selector ∧ d.dlv.progress = c.dlv.progress ∧
  d.dlv.progressAsked = c.dlv.progressAsked ∧ d.dlv.rewrite = c.dlv.rewrite ∧ d.dlv.updateCount = c.dlv.updateCount ∧
  d.dlv.epochCount = c.dlv.epochCount ∧ d.dlv.epochShown = c.dlv.epochShown ∧ d.dlv.faultUnshown = c.dlv.faultUnshown ∧
  d.dlv.counters = c.dlv.counters ∧ d.freeUses = c.freeUses ∧ d.active = c.active

/-- The frame of `beginReturnRead`. -/
@[simp] theorem beginReturnRead_frame (c : Chip) : Kept.byBeginReturnRead c (beginReturnRead c) := by
  and_intros
  all_goals first
    | (unfold beginReturnRead; (repeat' split) <;> simp)
    | (unfold beginReturnRead; (repeat' split) <;> simp [Chip.active])

/-- What `changeState` keeps. -/
abbrev Kept.byChangeState (c d : Chip) : Prop :=
  d.rgp.bindResult = c.rgp.bindResult ∧
  d.rgp.haltSource = c.rgp.haltSource ∧ d.rgp.autoStrap = c.rgp.autoStrap ∧ d.rgp.dirselStrap = c.rgp.dirselStrap ∧
  d.rgp.lastCode = c.rgp.lastCode ∧ d.rgp.acceptance = c.rgp.acceptance ∧ d.rgp.dirbase = c.rgp.dirbase ∧
  d.rgp.mask = c.rgp.mask ∧ d.rgp.resetHeld = c.rgp.resetHeld ∧ d.rgp.binding = c.rgp.binding ∧
  d.rgp.layout = c.rgp.layout ∧ d.mpt = c.mpt ∧ d.lki = c.lki ∧ d.chc = c.chc ∧ d.ccu = c.ccu ∧ d.sce = c.sce ∧
  d.tcu = c.tcu ∧ d.ord = c.ord ∧ d.dlv = c.dlv ∧ d.freeUses = c.freeUses

/-- The frame of `changeState`. -/
@[simp] theorem changeState_frame (st : PartState) (c : Chip) : Kept.byChangeState c (changeState st c) := by
  and_intros <;> simp [changeState]

/-- What `enterState` keeps. -/
abbrev Kept.byEnterState (c d : Chip) : Prop :=
  d.rgp.bindResult = c.rgp.bindResult ∧
  d.rgp.haltSource = c.rgp.haltSource ∧ d.rgp.autoStrap = c.rgp.autoStrap ∧ d.rgp.dirselStrap = c.rgp.dirselStrap ∧
  d.rgp.lastCode = c.rgp.lastCode ∧ d.rgp.acceptance = c.rgp.acceptance ∧ d.rgp.dirbase = c.rgp.dirbase ∧
  d.rgp.mask = c.rgp.mask ∧ d.rgp.resetHeld = c.rgp.resetHeld ∧ d.rgp.binding = c.rgp.binding ∧
  d.rgp.layout = c.rgp.layout ∧ d.mpt = c.mpt ∧ d.lki = c.lki ∧ d.chc = c.chc ∧ d.ccu = c.ccu ∧ d.sce = c.sce ∧
  d.tcu = c.tcu ∧ d.ord = c.ord ∧ d.dlv.image = c.dlv.image ∧ d.dlv.pick = c.dlv.pick ∧ d.dlv.event = c.dlv.event ∧
  d.dlv.pendingEvents = c.dlv.pendingEvents ∧ d.dlv.returnRead = c.dlv.returnRead ∧ d.dlv.reread = c.dlv.reread ∧
  d.dlv.assembly = c.dlv.assembly ∧ d.dlv.outgoing = c.dlv.outgoing ∧ d.dlv.selector = c.dlv.selector ∧
  d.dlv.progress = c.dlv.progress ∧ d.dlv.updateCount = c.dlv.updateCount ∧ d.dlv.epochCount = c.dlv.epochCount ∧
  d.dlv.epochShown = c.dlv.epochShown ∧ d.dlv.faultUnshown = c.dlv.faultUnshown ∧ d.dlv.counters = c.dlv.counters ∧
  d.freeUses = c.freeUses

/-- The frame of `enterState`. -/
@[simp] theorem enterState_frame (st : PartState) (c : Chip) : Kept.byEnterState c (enterState st c) := by
  and_intros <;> simp [enterState]

/-- What `enterFaulted` keeps. -/
abbrev Kept.byEnterFaulted (c d : Chip) : Prop :=
  d.rgp.autoStrap = c.rgp.autoStrap ∧
  d.rgp.dirselStrap = c.rgp.dirselStrap ∧ d.rgp.lastCode = c.rgp.lastCode ∧ d.rgp.acceptance = c.rgp.acceptance ∧
  d.rgp.dirbase = c.rgp.dirbase ∧ d.rgp.mask = c.rgp.mask ∧ d.rgp.resetHeld = c.rgp.resetHeld ∧
  d.rgp.layout = c.rgp.layout ∧ d.mpt.windows = c.mpt.windows ∧ d.mpt.records = c.mpt.records ∧
  d.mpt.overflow = c.mpt.overflow ∧ d.mpt.onBus = c.mpt.onBus ∧ d.mpt.lastGrant = c.mpt.lastGrant ∧
  d.lki.horizon = c.lki.horizon ∧ d.chc = c.chc ∧ d.ccu.prevCount = c.ccu.prevCount ∧
  d.ccu.requestCounter = c.ccu.requestCounter ∧ d.ccu.declarations = c.ccu.declarations ∧
  d.ccu.merges = c.ccu.merges ∧ d.ccu.lost = c.ccu.lost ∧ d.ccu.displaced = c.ccu.displaced ∧
  d.sce.parks = c.sce.parks ∧ d.sce.resumes = c.sce.resumes ∧ d.sce.stage2Runs = c.sce.stage2Runs ∧
  d.tcu.settings = c.tcu.settings ∧ d.tcu.grids = c.tcu.grids ∧ d.tcu.hubEntries = c.tcu.hubEntries ∧
  d.tcu.stationEntries = c.tcu.stationEntries ∧ d.tcu.cache = c.tcu.cache ∧ d.tcu.hits = c.tcu.hits ∧
  d.tcu.misses = c.tcu.misses ∧ d.tcu.evictions = c.tcu.evictions ∧ d.tcu.dropped = c.tcu.dropped ∧
  d.tcu.invalidations = c.tcu.invalidations ∧ d.ord.expected = c.ord.expected ∧ d.ord.polls = c.ord.polls ∧
  d.ord.taken = c.ord.taken ∧ d.ord.duplicates = c.ord.duplicates ∧ d.ord.torn = c.ord.torn ∧
  d.dlv.pick = c.dlv.pick ∧ d.dlv.event = c.dlv.event ∧ d.dlv.selector = c.dlv.selector ∧
  d.dlv.updateCount = c.dlv.updateCount ∧ d.dlv.epochCount = c.dlv.epochCount ∧ d.dlv.epochShown = c.dlv.epochShown ∧
  d.dlv.faultUnshown = c.dlv.faultUnshown ∧ d.freeUses = c.freeUses

/-- The frame of `enterFaulted`. -/
@[simp] theorem enterFaulted_frame (hs : HaltSource) (c : Chip) : Kept.byEnterFaulted c (enterFaulted hs c) := by
  and_intros <;> simp [enterFaulted]

/-- The image that a part holds once it has entered FAULTED is the one of before the entry (R166). -/
@[simp] theorem enterFaulted_image (hs : HaltSource) (c : Chip) :
    (enterFaulted hs c).dlv.image = .frozen c.image := by simp [enterFaulted]

/-- The image does not show CAUSE. -/
@[simp] theorem setCause_image (bit : Nat) (c : Chip) : (setCause bit c).image = c.image := rfl

/-- What `freeBus` keeps. -/
abbrev Kept.byFreeBus (c d : Chip) : Prop :=
  d.rgp = c.rgp ∧ d.mpt.windows = c.mpt.windows ∧
  d.mpt.records = c.mpt.records ∧ d.mpt.overflow = c.mpt.overflow ∧ d.mpt.waitRgp = c.mpt.waitRgp ∧
  d.mpt.waitTcu = c.mpt.waitTcu ∧ d.mpt.waitOrd = c.mpt.waitOrd ∧ d.mpt.waitDlv = c.mpt.waitDlv ∧
  d.mpt.lastGrant = c.mpt.lastGrant ∧ d.lki = c.lki ∧ d.chc = c.chc ∧ d.ccu = c.ccu ∧ d.sce = c.sce ∧ d.tcu = c.tcu ∧
  d.ord = c.ord ∧ d.dlv = c.dlv ∧ d.freeUses = c.freeUses ∧ d.active = c.active

/-- The frame of `freeBus`. -/
@[simp] theorem freeBus_frame (c : Chip) : Kept.byFreeBus c (freeBus c) := by
  and_intros
  all_goals first
    | (simp [freeBus]; done)
    | (simp [freeBus, Chip.active])

/-- The image does not show the bus. -/
@[simp] theorem freeBus_image (c : Chip) : (freeBus c).image = c.image := rfl

end Sys2Proof.Machine
end

