-- ==== Sys2Proof/Laws/DeliveryFrame.lean ====
section
/-! SUPPORT. The frames of the operations of DLV: for each, the parts of the state it keeps. A relation
`Kept.by…` names the blocks and fields kept, and is cited for every operation that keeps exactly those. -/

namespace Sys2Proof.Machine

/-- What `onStream` keeps. -/
abbrev Kept.byOnStream (c d : Chip) : Prop :=
  d.rgp = c.rgp ∧ d.mpt = c.mpt ∧ d.lki = c.lki ∧ d.chc = c.chc ∧ d.ccu = c.ccu ∧ d.sce = c.sce ∧ d.tcu = c.tcu ∧
  d.ord = c.ord ∧ d.dlv.image = c.dlv.image ∧ d.dlv.pendingEvents = c.dlv.pendingEvents ∧
  d.dlv.returnRead = c.dlv.returnRead ∧ d.dlv.reread = c.dlv.reread ∧ d.dlv.assembly = c.dlv.assembly ∧
  d.dlv.outgoing = c.dlv.outgoing ∧ d.dlv.selector = c.dlv.selector ∧ d.dlv.progress = c.dlv.progress ∧
  d.dlv.progressAsked = c.dlv.progressAsked ∧ d.dlv.rewrite = c.dlv.rewrite ∧ d.dlv.updateCount = c.dlv.updateCount ∧
  d.dlv.epochCount = c.dlv.epochCount ∧ d.dlv.epochShown = c.dlv.epochShown ∧ d.dlv.faultUnshown = c.dlv.faultUnshown ∧
  d.dlv.counters = c.dlv.counters ∧ d.freeUses = c.freeUses ∧ d.active = c.active

/-- The frame of `onStream`. -/
@[simp] theorem onStream_frame (id : StreamId) (f : StreamState → StreamState) (c : Chip) :
    Kept.byOnStream c (onStream id f c) := by
  and_intros
  all_goals first
    | (simp [onStream]; done)
    | (simp [onStream, Chip.active])

/-- What `assignRecord` keeps. -/
abbrev Kept.byAssignRecord (c d : Chip) : Prop :=
  d.rgp = c.rgp ∧ d.mpt.windows = c.mpt.windows ∧ d.mpt.records = c.mpt.records ∧ d.mpt.overflow = c.mpt.overflow ∧
  d.mpt.onBus = c.mpt.onBus ∧ d.mpt.lastGrant = c.mpt.lastGrant ∧ d.lki = c.lki ∧ d.chc = c.chc ∧ d.ccu = c.ccu ∧
  d.sce = c.sce ∧ d.tcu = c.tcu ∧ d.ord = c.ord ∧ d.dlv.image = c.dlv.image ∧
  d.dlv.pendingEvents = c.dlv.pendingEvents ∧ d.dlv.returnRead = c.dlv.returnRead ∧ d.dlv.reread = c.dlv.reread ∧
  d.dlv.assembly = c.dlv.assembly ∧ d.dlv.outgoing = c.dlv.outgoing ∧ d.dlv.selector = c.dlv.selector ∧
  d.dlv.progress = c.dlv.progress ∧ d.dlv.progressAsked = c.dlv.progressAsked ∧ d.dlv.rewrite = c.dlv.rewrite ∧
  d.dlv.updateCount = c.dlv.updateCount ∧ d.dlv.epochCount = c.dlv.epochCount ∧ d.dlv.epochShown = c.dlv.epochShown ∧
  d.dlv.faultUnshown = c.dlv.faultUnshown ∧ d.dlv.counters = c.dlv.counters ∧ d.freeUses = c.freeUses ∧
  d.active = c.active

/-- The frame of `assignRecord`. -/
@[simp] theorem assignRecord_frame (id : StreamId) (bytes : List Byte) (c : Chip) :
    Kept.byAssignRecord c (assignRecord id bytes c) := by
  and_intros <;> simp [assignRecord]

/-- What `markNoRoom` keeps. -/
abbrev Kept.byMarkNoRoom (c d : Chip) : Prop :=
  d.rgp.partState = c.rgp.partState ∧ d.rgp.bindResult = c.rgp.bindResult ∧ d.rgp.haltSource = c.rgp.haltSource ∧
  d.rgp.autoStrap = c.rgp.autoStrap ∧ d.rgp.dirselStrap = c.rgp.dirselStrap ∧ d.rgp.lastCode = c.rgp.lastCode ∧
  d.rgp.acceptance = c.rgp.acceptance ∧ d.rgp.dirbase = c.rgp.dirbase ∧ d.rgp.mask = c.rgp.mask ∧
  d.rgp.resetHeld = c.rgp.resetHeld ∧ d.rgp.binding = c.rgp.binding ∧ d.rgp.layout = c.rgp.layout ∧ d.mpt = c.mpt ∧
  d.lki = c.lki ∧ d.chc = c.chc ∧ d.ccu = c.ccu ∧ d.sce = c.sce ∧ d.tcu = c.tcu ∧ d.ord = c.ord ∧
  d.dlv.image = c.dlv.image ∧ d.dlv.pendingEvents = c.dlv.pendingEvents ∧ d.dlv.returnRead = c.dlv.returnRead ∧
  d.dlv.reread = c.dlv.reread ∧ d.dlv.assembly = c.dlv.assembly ∧ d.dlv.outgoing = c.dlv.outgoing ∧
  d.dlv.selector = c.dlv.selector ∧ d.dlv.progress = c.dlv.progress ∧ d.dlv.progressAsked = c.dlv.progressAsked ∧
  d.dlv.rewrite = c.dlv.rewrite ∧ d.dlv.updateCount = c.dlv.updateCount ∧ d.dlv.epochCount = c.dlv.epochCount ∧
  d.dlv.epochShown = c.dlv.epochShown ∧ d.dlv.faultUnshown = c.dlv.faultUnshown ∧ d.dlv.counters = c.dlv.counters ∧
  d.freeUses = c.freeUses ∧ d.active = c.active

/-- The frame of `markNoRoom`. -/
@[simp] theorem markNoRoom_frame (id : StreamId) (c : Chip) : Kept.byMarkNoRoom c (markNoRoom id c) := by
  and_intros <;> (unfold markNoRoom; (repeat' split) <;> simp)

/-- What `meetNoRoom` keeps. -/
abbrev Kept.byMeetNoRoom (c d : Chip) : Prop :=
  d.rgp.partState = c.rgp.partState ∧ d.rgp.bindResult = c.rgp.bindResult ∧ d.rgp.haltSource = c.rgp.haltSource ∧
  d.rgp.autoStrap = c.rgp.autoStrap ∧ d.rgp.dirselStrap = c.rgp.dirselStrap ∧ d.rgp.lastCode = c.rgp.lastCode ∧
  d.rgp.acceptance = c.rgp.acceptance ∧ d.rgp.dirbase = c.rgp.dirbase ∧ d.rgp.mask = c.rgp.mask ∧
  d.rgp.resetHeld = c.rgp.resetHeld ∧ d.rgp.binding = c.rgp.binding ∧ d.rgp.layout = c.rgp.layout ∧
  d.mpt.windows = c.mpt.windows ∧ d.mpt.records = c.mpt.records ∧ d.mpt.overflow = c.mpt.overflow ∧
  d.mpt.onBus = c.mpt.onBus ∧ d.mpt.lastGrant = c.mpt.lastGrant ∧ d.lki = c.lki ∧ d.chc = c.chc ∧ d.ccu = c.ccu ∧
  d.sce = c.sce ∧ d.tcu = c.tcu ∧ d.ord = c.ord ∧ d.dlv.image = c.dlv.image ∧
  d.dlv.pendingEvents = c.dlv.pendingEvents ∧ d.dlv.assembly = c.dlv.assembly ∧ d.dlv.outgoing = c.dlv.outgoing ∧
  d.dlv.selector = c.dlv.selector ∧ d.dlv.progress = c.dlv.progress ∧ d.dlv.progressAsked = c.dlv.progressAsked ∧
  d.dlv.rewrite = c.dlv.rewrite ∧ d.dlv.updateCount = c.dlv.updateCount ∧ d.dlv.epochCount = c.dlv.epochCount ∧
  d.dlv.epochShown = c.dlv.epochShown ∧ d.dlv.faultUnshown = c.dlv.faultUnshown ∧ d.dlv.counters = c.dlv.counters ∧
  d.freeUses = c.freeUses ∧ d.active = c.active

/-- The frame of `meetNoRoom`. -/
@[simp] theorem meetNoRoom_frame (id : StreamId) (c : Chip) : Kept.byMeetNoRoom c (meetNoRoom id c) := by
  and_intros <;> simp [meetNoRoom]

/-- The frame of `takeSequence`. -/
@[simp] theorem takeSequence_frame (id : StreamId) (c : Chip) : Kept.byOnStream c (takeSequence id c) := by
  and_intros <;> simp [takeSequence]

/-- What `deliverPick` keeps. -/
abbrev Kept.byDeliverPick (c d : Chip) : Prop :=
  d.rgp.partState = c.rgp.partState ∧ d.rgp.bindResult = c.rgp.bindResult ∧ d.rgp.haltSource = c.rgp.haltSource ∧
  d.rgp.autoStrap = c.rgp.autoStrap ∧ d.rgp.dirselStrap = c.rgp.dirselStrap ∧ d.rgp.lastCode = c.rgp.lastCode ∧
  d.rgp.acceptance = c.rgp.acceptance ∧ d.rgp.dirbase = c.rgp.dirbase ∧ d.rgp.mask = c.rgp.mask ∧
  d.rgp.resetHeld = c.rgp.resetHeld ∧ d.rgp.binding = c.rgp.binding ∧ d.rgp.layout = c.rgp.layout ∧
  d.mpt.windows = c.mpt.windows ∧ d.mpt.records = c.mpt.records ∧ d.mpt.overflow = c.mpt.overflow ∧
  d.mpt.onBus = c.mpt.onBus ∧ d.mpt.lastGrant = c.mpt.lastGrant ∧ d.lki = c.lki ∧ d.chc = c.chc ∧ d.ccu = c.ccu ∧
  d.sce = c.sce ∧ d.tcu = c.tcu ∧ d.ord = c.ord ∧ d.dlv.image = c.dlv.image ∧
  d.dlv.pendingEvents = c.dlv.pendingEvents ∧ d.dlv.assembly = c.dlv.assembly ∧ d.dlv.outgoing = c.dlv.outgoing ∧
  d.dlv.selector = c.dlv.selector ∧ d.dlv.progress = c.dlv.progress ∧ d.dlv.progressAsked = c.dlv.progressAsked ∧
  d.dlv.rewrite = c.dlv.rewrite ∧ d.dlv.updateCount = c.dlv.updateCount ∧ d.dlv.epochCount = c.dlv.epochCount ∧
  d.dlv.epochShown = c.dlv.epochShown ∧ d.dlv.faultUnshown = c.dlv.faultUnshown ∧ d.freeUses = c.freeUses ∧
  d.active = c.active

/-- The frame of `deliverPick`. -/
@[simp] theorem deliverPick_frame (p : Pick) (c : Chip) : Kept.byDeliverPick c (deliverPick p c) := by
  and_intros
  all_goals first
    | (unfold deliverPick; (repeat' split) <;> simp; done)
    | (unfold deliverPick; (repeat' split) <;> simp [Chip.active])

/-- What `setPendingEvents` keeps. -/
abbrev Kept.bySetPendingEvents (c d : Chip) : Prop :=
  d.rgp = c.rgp ∧ d.mpt = c.mpt ∧ d.lki = c.lki ∧ d.chc = c.chc ∧ d.ccu = c.ccu ∧ d.sce = c.sce ∧ d.tcu = c.tcu ∧
  d.ord = c.ord ∧ d.dlv.image = c.dlv.image ∧ d.dlv.pick = c.dlv.pick ∧ d.dlv.event = c.dlv.event ∧
  d.dlv.returnRead = c.dlv.returnRead ∧ d.dlv.reread = c.dlv.reread ∧ d.dlv.assembly = c.dlv.assembly ∧
  d.dlv.outgoing = c.dlv.outgoing ∧ d.dlv.selector = c.dlv.selector ∧ d.dlv.progress = c.dlv.progress ∧
  d.dlv.progressAsked = c.dlv.progressAsked ∧ d.dlv.rewrite = c.dlv.rewrite ∧ d.dlv.updateCount = c.dlv.updateCount ∧
  d.dlv.epochCount = c.dlv.epochCount ∧ d.dlv.epochShown = c.dlv.epochShown ∧ d.dlv.faultUnshown = c.dlv.faultUnshown ∧
  d.dlv.counters = c.dlv.counters ∧ d.freeUses = c.freeUses ∧ d.active = c.active

/-- The frame of `setPendingEvents`. -/
@[simp] theorem setPendingEvents_frame (l : List EventRecord) (c : Chip) :
    Kept.bySetPendingEvents c (setPendingEvents l c) := by
  and_intros
  all_goals first
    | (simp [setPendingEvents]; done)
    | (simp [setPendingEvents, Chip.active])

/-- What `writePending` keeps. -/
abbrev Kept.byWritePending (c d : Chip) : Prop :=
  d.rgp.partState = c.rgp.partState ∧
  d.rgp.bindResult = c.rgp.bindResult ∧ d.rgp.haltSource = c.rgp.haltSource ∧ d.rgp.autoStrap = c.rgp.autoStrap ∧
  d.rgp.dirselStrap = c.rgp.dirselStrap ∧ d.rgp.lastCode = c.rgp.lastCode ∧ d.rgp.acceptance = c.rgp.acceptance ∧
  d.rgp.dirbase = c.rgp.dirbase ∧ d.rgp.mask = c.rgp.mask ∧ d.rgp.resetHeld = c.rgp.resetHeld ∧
  d.rgp.binding = c.rgp.binding ∧ d.rgp.layout = c.rgp.layout ∧ d.mpt.windows = c.mpt.windows ∧
  d.mpt.records = c.mpt.records ∧ d.mpt.overflow = c.mpt.overflow ∧ d.mpt.onBus = c.mpt.onBus ∧
  d.mpt.lastGrant = c.mpt.lastGrant ∧ d.lki = c.lki ∧ d.chc = c.chc ∧ d.ccu = c.ccu ∧ d.sce = c.sce ∧ d.tcu = c.tcu ∧
  d.ord = c.ord ∧ d.dlv.image = c.dlv.image ∧ d.dlv.assembly = c.dlv.assembly ∧ d.dlv.outgoing = c.dlv.outgoing ∧
  d.dlv.selector = c.dlv.selector ∧ d.dlv.progress = c.dlv.progress ∧ d.dlv.progressAsked = c.dlv.progressAsked ∧
  d.dlv.rewrite = c.dlv.rewrite ∧ d.dlv.updateCount = c.dlv.updateCount ∧ d.dlv.epochCount = c.dlv.epochCount ∧
  d.dlv.epochShown = c.dlv.epochShown ∧ d.dlv.faultUnshown = c.dlv.faultUnshown ∧ d.dlv.counters = c.dlv.counters ∧
  d.freeUses = c.freeUses ∧ d.active = c.active

/-- The frame of `writePending`. -/
@[simp] theorem writePending_frame (x0 : List EventRecord) (c : Chip) :
    Kept.byWritePending c (writePending x0 c) := by
  induction x0 generalizing c with
  | nil => and_intros <;> simp [writePending]
  | cons x l ih =>
    unfold writePending
    and_intros <;>
      ((repeat' split) <;> simp [ih])

/-- The frame of `pendingWrite`. -/
@[simp] theorem pendingWrite_frame (c : Chip) : Kept.byWritePending c (pendingWrite c) := by
  and_intros <;> simp [pendingWrite]

/-- What `joinPending` keeps. -/
abbrev Kept.byJoinPending (c d : Chip) : Prop :=
  d.rgp = c.rgp ∧ d.mpt = c.mpt ∧ d.lki = c.lki ∧ d.chc = c.chc ∧ d.ccu = c.ccu ∧ d.sce = c.sce ∧ d.tcu = c.tcu ∧
  d.ord = c.ord ∧ d.dlv.image = c.dlv.image ∧ d.dlv.returnRead = c.dlv.returnRead ∧ d.dlv.reread = c.dlv.reread ∧
  d.dlv.assembly = c.dlv.assembly ∧ d.dlv.outgoing = c.dlv.outgoing ∧ d.dlv.selector = c.dlv.selector ∧
  d.dlv.progress = c.dlv.progress ∧ d.dlv.progressAsked = c.dlv.progressAsked ∧ d.dlv.rewrite = c.dlv.rewrite ∧
  d.dlv.updateCount = c.dlv.updateCount ∧ d.dlv.epochCount = c.dlv.epochCount ∧ d.dlv.epochShown = c.dlv.epochShown ∧
  d.dlv.faultUnshown = c.dlv.faultUnshown ∧ d.dlv.counters = c.dlv.counters ∧ d.freeUses = c.freeUses ∧
  d.active = c.active

/-- The frame of `joinPending`. -/
@[simp] theorem joinPending_frame (content : EventContent) (c : Chip) :
    Kept.byJoinPending c (joinPending content c) := by
  and_intros <;> simp [joinPending]

/-- The frame of `appendRecord`. -/
@[simp] theorem appendRecord_frame (content : EventContent) (c : Chip) :
    Kept.byWritePending c (appendRecord content c) := by
  and_intros <;> (unfold appendRecord; (try dsimp only); (repeat' split) <;> simp)

/-- The frame of `writeDirect`. -/
@[simp] theorem writeDirect_frame (content : EventContent) (c : Chip) :
    Kept.byAssignRecord c (writeDirect content c) := by
  and_intros <;> simp [writeDirect]

/-- What `countLostEvent` keeps. -/
abbrev Kept.byCountLostEvent (c d : Chip) : Prop :=
  d.rgp = c.rgp ∧ d.mpt = c.mpt ∧ d.lki = c.lki ∧ d.chc = c.chc ∧
  d.ccu = c.ccu ∧ d.sce = c.sce ∧ d.tcu = c.tcu ∧ d.ord = c.ord ∧ d.dlv.image = c.dlv.image ∧ d.dlv.pick = c.dlv.pick ∧
  d.dlv.event = c.dlv.event ∧ d.dlv.pendingEvents = c.dlv.pendingEvents ∧ d.dlv.returnRead = c.dlv.returnRead ∧
  d.dlv.reread = c.dlv.reread ∧ d.dlv.assembly = c.dlv.assembly ∧ d.dlv.outgoing = c.dlv.outgoing ∧
  d.dlv.selector = c.dlv.selector ∧ d.dlv.progress = c.dlv.progress ∧ d.dlv.progressAsked = c.dlv.progressAsked ∧
  d.dlv.rewrite = c.dlv.rewrite ∧ d.dlv.updateCount = c.dlv.updateCount ∧ d.dlv.epochCount = c.dlv.epochCount ∧
  d.dlv.epochShown = c.dlv.epochShown ∧ d.dlv.faultUnshown = c.dlv.faultUnshown ∧ d.freeUses = c.freeUses ∧
  d.active = c.active

/-- The frame of `countLostEvent`. -/
@[simp] theorem countLostEvent_frame (c : Chip) : Kept.byCountLostEvent c (countLostEvent c) := by
  and_intros
  all_goals first
    | (simp [countLostEvent]; done)
    | (simp [countLostEvent, Chip.active])

/-- The frame of `appendDisplacing`. -/
@[simp] theorem appendDisplacing_frame (content : EventContent) (c : Chip) :
    Kept.byWritePending c (appendDisplacing content c) := by
  and_intros <;> (unfold appendDisplacing; (try dsimp only); (repeat' split) <;> simp)

/-- What `deliverFull` keeps. -/
abbrev Kept.byDeliverFull (c d : Chip) : Prop :=
  d.rgp.partState = c.rgp.partState ∧
  d.rgp.bindResult = c.rgp.bindResult ∧ d.rgp.haltSource = c.rgp.haltSource ∧ d.rgp.autoStrap = c.rgp.autoStrap ∧
  d.rgp.dirselStrap = c.rgp.dirselStrap ∧ d.rgp.lastCode = c.rgp.lastCode ∧ d.rgp.acceptance = c.rgp.acceptance ∧
  d.rgp.dirbase = c.rgp.dirbase ∧ d.rgp.mask = c.rgp.mask ∧ d.rgp.resetHeld = c.rgp.resetHeld ∧
  d.rgp.binding = c.rgp.binding ∧ d.rgp.layout = c.rgp.layout ∧ d.mpt.windows = c.mpt.windows ∧
  d.mpt.records = c.mpt.records ∧ d.mpt.overflow = c.mpt.overflow ∧ d.mpt.onBus = c.mpt.onBus ∧
  d.mpt.lastGrant = c.mpt.lastGrant ∧ d.lki = c.lki ∧ d.chc = c.chc ∧ d.ccu = c.ccu ∧ d.sce = c.sce ∧ d.tcu = c.tcu ∧
  d.ord = c.ord ∧ d.dlv.image = c.dlv.image ∧ d.dlv.assembly = c.dlv.assembly ∧ d.dlv.outgoing = c.dlv.outgoing ∧
  d.dlv.selector = c.dlv.selector ∧ d.dlv.progress = c.dlv.progress ∧ d.dlv.progressAsked = c.dlv.progressAsked ∧
  d.dlv.rewrite = c.dlv.rewrite ∧ d.dlv.updateCount = c.dlv.updateCount ∧ d.dlv.epochCount = c.dlv.epochCount ∧
  d.dlv.epochShown = c.dlv.epochShown ∧ d.dlv.faultUnshown = c.dlv.faultUnshown ∧ d.freeUses = c.freeUses ∧
  d.active = c.active

/-- The frame of `deliverFull`. -/
@[simp] theorem deliverFull_frame (content : EventContent) (c : Chip) :
    Kept.byDeliverFull c (deliverFull content c).1 := by
  and_intros <;> (unfold deliverFull; (try dsimp only); (repeat' split) <;> simp)

/-- The frame of `deliverContent`. -/
@[simp] theorem deliverContent_frame (content : EventContent) (c : Chip) :
    Kept.byDeliverFull c (deliverContent content c).1 := by
  and_intros <;> (unfold deliverContent; (repeat' split) <;> simp)

/-- The frame of `deliverOutcome`. -/
@[simp] theorem deliverOutcome_frame (o : EventOutcome) (c : Chip) : Kept.byDeliverFull c (deliverOutcome o c).1 := by
  and_intros
  all_goals first
    | (unfold deliverOutcome; (try dsimp only); (repeat' split) <;> simp; done)
    | (unfold deliverOutcome; (try dsimp only); (repeat' split) <;> simp [Chip.active])

/-- The frame of `deliverMarker`. -/
@[simp] theorem deliverMarker_frame (tag : Word32) (c : Chip) : Kept.byDeliverFull c (deliverMarker tag c).1 := by
  and_intros
  all_goals first
    | (simp [deliverMarker]; done)
    | (simp [deliverMarker, Chip.active])

/-- What `recordAnswered` keeps. -/
abbrev Kept.byRecordAnswered (c d : Chip) : Prop :=
  d.rgp = c.rgp ∧ d.mpt = c.mpt ∧ d.lki = c.lki ∧ d.chc = c.chc ∧ d.ccu = c.ccu ∧ d.sce = c.sce ∧ d.tcu = c.tcu ∧
  d.ord = c.ord ∧ d.dlv.image = c.dlv.image ∧ d.dlv.pendingEvents = c.dlv.pendingEvents ∧
  d.dlv.returnRead = c.dlv.returnRead ∧ d.dlv.reread = c.dlv.reread ∧ d.dlv.assembly = c.dlv.assembly ∧
  d.dlv.outgoing = c.dlv.outgoing ∧ d.dlv.selector = c.dlv.selector ∧ d.dlv.progress = c.dlv.progress ∧
  d.dlv.updateCount = c.dlv.updateCount ∧ d.dlv.epochCount = c.dlv.epochCount ∧ d.dlv.epochShown = c.dlv.epochShown ∧
  d.dlv.faultUnshown = c.dlv.faultUnshown ∧ d.freeUses = c.freeUses ∧ d.active = c.active

/-- The frame of `recordAnswered`. -/
@[simp] theorem recordAnswered_frame (a : Access) (result : Option (List Byte)) (c : Chip) :
    Kept.byRecordAnswered c (recordAnswered a result c) := by
  and_intros
  all_goals first
    | (simp [recordAnswered]; done)
    | (simp [recordAnswered, Chip.active])

/-- What `adoptReleased` keeps. -/
abbrev Kept.byAdoptReleased (c d : Chip) : Prop :=
  d.rgp = c.rgp ∧ d.mpt = c.mpt ∧ d.lki = c.lki ∧ d.chc = c.chc ∧ d.ccu = c.ccu ∧ d.sce = c.sce ∧ d.tcu = c.tcu ∧
  d.ord = c.ord ∧ d.dlv.image = c.dlv.image ∧ d.dlv.pendingEvents = c.dlv.pendingEvents ∧
  d.dlv.returnRead = c.dlv.returnRead ∧ d.dlv.reread = c.dlv.reread ∧ d.dlv.assembly = c.dlv.assembly ∧
  d.dlv.outgoing = c.dlv.outgoing ∧ d.dlv.selector = c.dlv.selector ∧ d.dlv.progress = c.dlv.progress ∧
  d.dlv.progressAsked = c.dlv.progressAsked ∧ d.dlv.rewrite = c.dlv.rewrite ∧ d.dlv.updateCount = c.dlv.updateCount ∧
  d.dlv.epochCount = c.dlv.epochCount ∧ d.dlv.epochShown = c.dlv.epochShown ∧ d.dlv.faultUnshown = c.dlv.faultUnshown ∧
  d.freeUses = c.freeUses ∧ d.active = c.active

/-- The frame of `adoptReleased`. -/
@[simp] theorem adoptReleased_frame (id : StreamId) (r : Word32) (c : Chip) :
    Kept.byAdoptReleased c (adoptReleased id r c) := by
  and_intros
  all_goals first
    | (unfold adoptReleased; (try dsimp only); (repeat' split) <;> simp)
    | (unfold adoptReleased; (try dsimp only); (repeat' split) <;> simp [Chip.active])

/-- The frame of `adoptReturnBlock`. -/
@[simp] theorem adoptReturnBlock_frame (b : List Byte) (c : Chip) : Kept.byDeliverFull c (adoptReturnBlock b c) := by
  and_intros <;> simp [adoptReturnBlock]

/-- The frame of `endReturnRead`. -/
@[simp] theorem endReturnRead_frame (c : Chip) : Kept.byBeginReturnRead c (endReturnRead c) := by
  and_intros
  all_goals first
    | (unfold endReturnRead; (repeat' split) <;> simp)
    | (unfold endReturnRead; (repeat' split) <;> simp [Chip.active])

/-- The frame of `returnBlockAnswered`. -/
@[simp] theorem returnBlockAnswered_frame (_a : Access) (result : Option (List Byte)) (c : Chip) :
    Kept.byDeliverFull c (returnBlockAnswered _a result c) := by
  and_intros
  all_goals first
    | (unfold returnBlockAnswered; (try dsimp only); (repeat' split) <;> simp; done)
    | (unfold returnBlockAnswered; (try dsimp only); (repeat' split) <;> simp [Chip.active])

/-- What `offerEpoch` keeps. -/
abbrev Kept.byOfferEpoch (c d : Chip) : Prop :=
  d.rgp = c.rgp ∧ d.mpt.windows = c.mpt.windows ∧ d.mpt.records = c.mpt.records ∧ d.mpt.overflow = c.mpt.overflow ∧
  d.mpt.onBus = c.mpt.onBus ∧ d.mpt.lastGrant = c.mpt.lastGrant ∧ d.lki = c.lki ∧ d.chc = c.chc ∧ d.ccu = c.ccu ∧
  d.sce = c.sce ∧ d.tcu = c.tcu ∧ d.ord = c.ord ∧ d.dlv.image = c.dlv.image ∧ d.dlv.pick = c.dlv.pick ∧
  d.dlv.event = c.dlv.event ∧ d.dlv.pendingEvents = c.dlv.pendingEvents ∧ d.dlv.returnRead = c.dlv.returnRead ∧
  d.dlv.reread = c.dlv.reread ∧ d.dlv.assembly = c.dlv.assembly ∧ d.dlv.selector = c.dlv.selector ∧
  d.dlv.progress = c.dlv.progress ∧ d.dlv.progressAsked = c.dlv.progressAsked ∧ d.dlv.rewrite = c.dlv.rewrite ∧
  d.dlv.updateCount = c.dlv.updateCount ∧ d.dlv.epochCount = c.dlv.epochCount ∧ d.dlv.epochShown = c.dlv.epochShown ∧
  d.dlv.faultUnshown = c.dlv.faultUnshown ∧ d.freeUses = c.freeUses ∧ d.active = c.active

/-- The frame of `offerEpoch`. -/
@[simp] theorem offerEpoch_frame (e : RawEpoch) (c : Chip) : Kept.byOfferEpoch c (offerEpoch e c) := by
  and_intros
  all_goals first
    | (unfold offerEpoch; (repeat' split) <;> simp)
    | (unfold offerEpoch; (repeat' split) <;> simp [Chip.active])

/-- What `stepEpochCount` keeps. -/
abbrev Kept.byStepEpochCount (c d : Chip) : Prop :=
  d.rgp = c.rgp ∧ d.mpt = c.mpt ∧ d.lki = c.lki ∧ d.chc = c.chc ∧
  d.ccu = c.ccu ∧ d.sce = c.sce ∧ d.tcu = c.tcu ∧ d.ord = c.ord ∧ d.dlv.image = c.dlv.image ∧ d.dlv.pick = c.dlv.pick ∧
  d.dlv.event = c.dlv.event ∧ d.dlv.pendingEvents = c.dlv.pendingEvents ∧ d.dlv.returnRead = c.dlv.returnRead ∧
  d.dlv.reread = c.dlv.reread ∧ d.dlv.assembly = c.dlv.assembly ∧ d.dlv.outgoing = c.dlv.outgoing ∧
  d.dlv.selector = c.dlv.selector ∧ d.dlv.progress = c.dlv.progress ∧ d.dlv.progressAsked = c.dlv.progressAsked ∧
  d.dlv.rewrite = c.dlv.rewrite ∧ d.dlv.updateCount = c.dlv.updateCount ∧ d.dlv.epochShown = c.dlv.epochShown ∧
  d.dlv.faultUnshown = c.dlv.faultUnshown ∧ d.dlv.counters = c.dlv.counters ∧ d.active = c.active

/-- The frame of `stepEpochCount`. -/
@[simp] theorem stepEpochCount_frame (c : Chip) : Kept.byStepEpochCount c (stepEpochCount c) := by
  and_intros
  all_goals first
    | (simp [stepEpochCount]; done)
    | (simp [stepEpochCount, Chip.active])

/-- What `placeRawTick` keeps. -/
abbrev Kept.byPlaceRawTick (c d : Chip) : Prop :=
  d.rgp = c.rgp ∧ d.mpt.windows = c.mpt.windows ∧ d.mpt.records = c.mpt.records ∧ d.mpt.overflow = c.mpt.overflow ∧
  d.mpt.onBus = c.mpt.onBus ∧ d.mpt.lastGrant = c.mpt.lastGrant ∧ d.lki = c.lki ∧ d.chc = c.chc ∧ d.ccu = c.ccu ∧
  d.sce = c.sce ∧ d.tcu = c.tcu ∧ d.ord = c.ord ∧ d.dlv.image = c.dlv.image ∧ d.dlv.pick = c.dlv.pick ∧
  d.dlv.event = c.dlv.event ∧ d.dlv.pendingEvents = c.dlv.pendingEvents ∧ d.dlv.returnRead = c.dlv.returnRead ∧
  d.dlv.reread = c.dlv.reread ∧ d.dlv.selector = c.dlv.selector ∧ d.dlv.progress = c.dlv.progress ∧
  d.dlv.progressAsked = c.dlv.progressAsked ∧ d.dlv.rewrite = c.dlv.rewrite ∧ d.dlv.updateCount = c.dlv.updateCount ∧
  d.dlv.epochShown = c.dlv.epochShown ∧ d.dlv.faultUnshown = c.dlv.faultUnshown ∧ d.active = c.active

/-- The frame of `placeRawTick`. -/
@[simp] theorem placeRawTick_frame (t : Nat) (samples : List (Option (BitVec 24))) (c : Chip) :
    Kept.byPlaceRawTick c (placeRawTick t samples c) := by
  and_intros
  all_goals first
    | (unfold placeRawTick; (try dsimp only); (repeat' split) <;> simp)
    | (unfold placeRawTick; (try dsimp only); (repeat' split) <;> simp [Chip.active])

/-- What `loseEpoch` keeps. -/
abbrev Kept.byLoseEpoch (c d : Chip) : Prop :=
  d.rgp = c.rgp ∧ d.mpt = c.mpt ∧ d.lki = c.lki ∧ d.chc = c.chc ∧
  d.ccu = c.ccu ∧ d.sce = c.sce ∧ d.tcu = c.tcu ∧ d.ord = c.ord ∧ d.dlv.image = c.dlv.image ∧ d.dlv.pick = c.dlv.pick ∧
  d.dlv.event = c.dlv.event ∧ d.dlv.pendingEvents = c.dlv.pendingEvents ∧ d.dlv.returnRead = c.dlv.returnRead ∧
  d.dlv.reread = c.dlv.reread ∧ d.dlv.assembly = c.dlv.assembly ∧ d.dlv.selector = c.dlv.selector ∧
  d.dlv.progress = c.dlv.progress ∧ d.dlv.progressAsked = c.dlv.progressAsked ∧ d.dlv.rewrite = c.dlv.rewrite ∧
  d.dlv.updateCount = c.dlv.updateCount ∧ d.dlv.epochCount = c.dlv.epochCount ∧ d.dlv.epochShown = c.dlv.epochShown ∧
  d.dlv.faultUnshown = c.dlv.faultUnshown ∧ d.freeUses = c.freeUses ∧ d.active = c.active

/-- The frame of `loseEpoch`. -/
@[simp] theorem loseEpoch_frame (c : Chip) : Kept.byLoseEpoch c (loseEpoch c) := by
  and_intros
  all_goals first
    | (simp [loseEpoch]; done)
    | (simp [loseEpoch, Chip.active])

/-- The frame of `rawStateAnswered`. -/
@[simp] theorem rawStateAnswered_frame (a : Access) (result : Option (List Byte)) (c : Chip) :
    Kept.byOfferEpoch c (rawStateAnswered a result c) := by
  and_intros
  all_goals first
    | (unfold rawStateAnswered; (try dsimp only); (repeat' split) <;> simp; done)
    | (unfold rawStateAnswered; (try dsimp only); (repeat' split) <;> simp [Chip.active])

/-- The frame of `rawHalfAnswered`. -/
@[simp] theorem rawHalfAnswered_frame (a : Access) (result : Option (List Byte)) (c : Chip) :
    Kept.byOfferEpoch c (rawHalfAnswered a result c) := by
  and_intros <;> (unfold rawHalfAnswered; (repeat' split) <;> simp)

/-- What `rawFullAnswered` keeps. -/
abbrev Kept.byRawFullAnswered (c d : Chip) : Prop :=
  d.rgp = c.rgp ∧ d.mpt = c.mpt ∧ d.lki = c.lki ∧ d.chc = c.chc ∧
  d.ccu = c.ccu ∧ d.sce = c.sce ∧ d.tcu = c.tcu ∧ d.ord = c.ord ∧ d.dlv.image = c.dlv.image ∧ d.dlv.pick = c.dlv.pick ∧
  d.dlv.event = c.dlv.event ∧ d.dlv.pendingEvents = c.dlv.pendingEvents ∧ d.dlv.returnRead = c.dlv.returnRead ∧
  d.dlv.reread = c.dlv.reread ∧ d.dlv.assembly = c.dlv.assembly ∧ d.dlv.progress = c.dlv.progress ∧
  d.dlv.progressAsked = c.dlv.progressAsked ∧ d.dlv.rewrite = c.dlv.rewrite ∧ d.dlv.updateCount = c.dlv.updateCount ∧
  d.dlv.epochCount = c.dlv.epochCount ∧ d.dlv.epochShown = c.dlv.epochShown ∧
  d.dlv.faultUnshown = c.dlv.faultUnshown ∧ d.freeUses = c.freeUses ∧ d.active = c.active

/-- The frame of `rawFullAnswered`. -/
@[simp] theorem rawFullAnswered_frame (a : Access) (result : Option (List Byte)) (c : Chip) :
    Kept.byRawFullAnswered c (rawFullAnswered a result c) := by
  and_intros
  all_goals first
    | (unfold rawFullAnswered; (repeat' split) <;> simp)
    | (unfold rawFullAnswered; (repeat' split) <;> simp [Chip.active])

/-- The frame of `takeNotice`. -/
@[simp] theorem takeNotice_frame (id : StreamId) (c : Chip) : Kept.byMarkNoRoom c (takeNotice id c) := by
  and_intros <;> (unfold takeNotice; (repeat' split) <;> simp)

@[simp] theorem noticeSteps_zero (k count : Nat) : noticeSteps k 0 count = (count, false) := rfl

@[simp] theorem noticeSteps_succ (k m count : Nat) :
    noticeSteps k (m + 1) count =
      ((noticeSteps k m (noticeStep k count).1).1, (noticeStep k count).2 || (noticeSteps k m (noticeStep k count).1).2) :=
  rfl

/-- One record shown with a k above 0 leaves a count below k. -/
theorem noticeStep_lt (k count : Nat) (h : 0 < k) : (noticeStep k count).1 < k := by
  simp only [noticeStep]
  split
  · omega
  · split <;> simp_all

/-- What a showing does to the streams, and to the cause register: all it can do beside `showTotal_frame`. -/
theorem showTotal_spec (id : StreamId) (total : Word32) (c : Chip) :
    let n := noticeSteps (noticeLimit id c) (total - (c.dlv.stream id).shown).toNat (c.dlv.stream id).notice
    showTotal id total c =
      (if n.2 then setCause (noticeCause id) else fun d => d)
        (onStream id (fun s => { s with shown := total, notice := n.1 }) c) := by
  simp only [showTotal]
  split <;> rfl

/-- The frame of `showTotal`. -/
@[simp] theorem showTotal_frame (id : StreamId) (total : Word32) (c : Chip) :
    Kept.byMarkNoRoom c (showTotal id total c) := by
  and_intros <;> (unfold showTotal; (try dsimp only); (repeat' split) <;> simp)

/-- What `showEpoch` keeps. -/
abbrev Kept.byShowEpoch (c d : Chip) : Prop :=
  d.rgp.partState = c.rgp.partState ∧
  d.rgp.bindResult = c.rgp.bindResult ∧ d.rgp.haltSource = c.rgp.haltSource ∧ d.rgp.autoStrap = c.rgp.autoStrap ∧
  d.rgp.dirselStrap = c.rgp.dirselStrap ∧ d.rgp.lastCode = c.rgp.lastCode ∧ d.rgp.acceptance = c.rgp.acceptance ∧
  d.rgp.dirbase = c.rgp.dirbase ∧ d.rgp.mask = c.rgp.mask ∧ d.rgp.resetHeld = c.rgp.resetHeld ∧
  d.rgp.binding = c.rgp.binding ∧ d.rgp.layout = c.rgp.layout ∧ d.mpt = c.mpt ∧ d.lki = c.lki ∧ d.chc = c.chc ∧
  d.ccu = c.ccu ∧ d.sce = c.sce ∧ d.tcu = c.tcu ∧ d.ord = c.ord ∧ d.dlv.image = c.dlv.image ∧ d.dlv.pick = c.dlv.pick ∧
  d.dlv.event = c.dlv.event ∧ d.dlv.pendingEvents = c.dlv.pendingEvents ∧ d.dlv.returnRead = c.dlv.returnRead ∧
  d.dlv.reread = c.dlv.reread ∧ d.dlv.assembly = c.dlv.assembly ∧ d.dlv.outgoing = c.dlv.outgoing ∧
  d.dlv.selector = c.dlv.selector ∧ d.dlv.progress = c.dlv.progress ∧ d.dlv.progressAsked = c.dlv.progressAsked ∧
  d.dlv.rewrite = c.dlv.rewrite ∧ d.dlv.updateCount = c.dlv.updateCount ∧ d.dlv.epochCount = c.dlv.epochCount ∧
  d.dlv.faultUnshown = c.dlv.faultUnshown ∧ d.dlv.counters = c.dlv.counters ∧ d.freeUses = c.freeUses ∧
  d.active = c.active

/-- The frame of `showEpoch`. -/
@[simp] theorem showEpoch_frame (w : ProgressWrite) (c : Chip) : Kept.byShowEpoch c (showEpoch w c) := by
  and_intros
  all_goals first
    | (unfold showEpoch; (try dsimp only); (repeat' split) <;> simp)
    | (unfold showEpoch; (try dsimp only); (repeat' split) <;> simp [Chip.active])

/-- The frame of `showFault`. -/
@[simp] theorem showFault_frame (w : ProgressWrite) (c : Chip) : Kept.bySetCause c (showFault w c) := by
  and_intros <;> (unfold showFault; (repeat' split) <;> simp)

/-- What `completeProgress` keeps. -/
abbrev Kept.byCompleteProgress (c d : Chip) : Prop :=
  d.rgp.partState = c.rgp.partState ∧ d.rgp.bindResult = c.rgp.bindResult ∧ d.rgp.haltSource = c.rgp.haltSource ∧
  d.rgp.autoStrap = c.rgp.autoStrap ∧ d.rgp.dirselStrap = c.rgp.dirselStrap ∧ d.rgp.lastCode = c.rgp.lastCode ∧
  d.rgp.acceptance = c.rgp.acceptance ∧ d.rgp.dirbase = c.rgp.dirbase ∧ d.rgp.mask = c.rgp.mask ∧
  d.rgp.resetHeld = c.rgp.resetHeld ∧ d.rgp.binding = c.rgp.binding ∧ d.rgp.layout = c.rgp.layout ∧ d.mpt = c.mpt ∧
  d.lki = c.lki ∧ d.chc = c.chc ∧ d.ccu = c.ccu ∧ d.sce = c.sce ∧ d.tcu = c.tcu ∧ d.ord = c.ord ∧
  d.dlv.image = c.dlv.image ∧ d.dlv.pendingEvents = c.dlv.pendingEvents ∧ d.dlv.returnRead = c.dlv.returnRead ∧
  d.dlv.reread = c.dlv.reread ∧ d.dlv.assembly = c.dlv.assembly ∧ d.dlv.outgoing = c.dlv.outgoing ∧
  d.dlv.selector = c.dlv.selector ∧ d.dlv.progressAsked = c.dlv.progressAsked ∧ d.dlv.rewrite = c.dlv.rewrite ∧
  d.dlv.updateCount = c.dlv.updateCount ∧ d.dlv.epochCount = c.dlv.epochCount ∧
  d.dlv.faultUnshown = c.dlv.faultUnshown ∧ d.freeUses = c.freeUses ∧ d.active = c.active

/-- The frame of `completeProgress`. -/
@[simp] theorem completeProgress_frame (w : ProgressWrite) (c : Chip) :
    Kept.byCompleteProgress c (completeProgress w c) := by
  and_intros
  all_goals first
    | (simp [completeProgress]; done)
    | (simp [completeProgress, Chip.active])

/-- The frame of `rewriteProgress`. -/
@[simp] theorem rewriteProgress_frame (c : Chip) : Kept.byAskProgress c (rewriteProgress c) := by
  and_intros
  all_goals first
    | (unfold rewriteProgress; (repeat' split) <;> simp; done)
    | (unfold rewriteProgress; (repeat' split) <;> simp [Chip.active])

end Sys2Proof.Machine
end

