-- ==== Sys2Proof/Laws/OrderSlotsFrame.lean ====
section
/-! SUPPORT. The frames of the writes of the order slots and the polls: for each, the parts of the state it keeps. A relation
`Kept.by…` names the blocks and fields kept, and is cited for every operation that keeps exactly those. -/

namespace Sys2Proof.Machine

/-- What `writeSlot` keeps. -/
abbrev Kept.byWriteSlot (c d : Chip) : Prop :=
  d.rgp = c.rgp ∧ d.mpt.windows = c.mpt.windows ∧
  d.mpt.records = c.mpt.records ∧ d.mpt.overflow = c.mpt.overflow ∧ d.mpt.onBus = c.mpt.onBus ∧
  d.mpt.lastGrant = c.mpt.lastGrant ∧ d.lki = c.lki ∧ d.chc = c.chc ∧ d.ccu = c.ccu ∧ d.sce = c.sce ∧ d.tcu = c.tcu ∧
  d.ord.expected = c.ord.expected ∧ d.ord.drainPending = c.ord.drainPending ∧ d.ord.openOrders = c.ord.openOrders ∧
  d.ord.poll = c.ord.poll ∧ d.ord.repeatMark = c.ord.repeatMark ∧ d.ord.timer = c.ord.timer ∧
  d.ord.polls = c.ord.polls ∧ d.ord.taken = c.ord.taken ∧ d.ord.duplicates = c.ord.duplicates ∧
  d.ord.torn = c.ord.torn ∧ d.dlv = c.dlv ∧ d.freeUses = c.freeUses ∧ d.active = c.active

/-- The frame of `writeSlot`. -/
@[simp] theorem writeSlot_frame (slot : Nat) (seq : BitVec 8) (done : Bool) (r : SlotResult) (c : Chip) :
    Kept.byWriteSlot c (writeSlot slot seq done r c) := by
  and_intros
  all_goals first
    | (simp [writeSlot]; done)
    | (simp [writeSlot, Chip.active])

/-- The frame of `askOutsideRun`. -/
@[simp] theorem askOutsideRun_frame (c : Chip) : Kept.byAskProgress c (askOutsideRun c) := by
  and_intros <;> (unfold askOutsideRun; (repeat' split) <;> simp)

/-- What `writeDone` keeps. -/
abbrev Kept.byWriteDone (c d : Chip) : Prop :=
  d.rgp = c.rgp ∧ d.mpt.windows = c.mpt.windows ∧ d.mpt.records = c.mpt.records ∧ d.mpt.overflow = c.mpt.overflow ∧
  d.mpt.onBus = c.mpt.onBus ∧ d.mpt.lastGrant = c.mpt.lastGrant ∧ d.lki = c.lki ∧ d.chc = c.chc ∧ d.ccu = c.ccu ∧
  d.sce = c.sce ∧ d.tcu = c.tcu ∧ d.ord.expected = c.ord.expected ∧ d.ord.drainPending = c.ord.drainPending ∧
  d.ord.poll = c.ord.poll ∧ d.ord.repeatMark = c.ord.repeatMark ∧ d.ord.timer = c.ord.timer ∧
  d.ord.polls = c.ord.polls ∧ d.ord.taken = c.ord.taken ∧ d.ord.duplicates = c.ord.duplicates ∧
  d.ord.torn = c.ord.torn ∧ d.dlv.image = c.dlv.image ∧ d.dlv.pick = c.dlv.pick ∧ d.dlv.event = c.dlv.event ∧
  d.dlv.pendingEvents = c.dlv.pendingEvents ∧ d.dlv.returnRead = c.dlv.returnRead ∧ d.dlv.reread = c.dlv.reread ∧
  d.dlv.assembly = c.dlv.assembly ∧ d.dlv.outgoing = c.dlv.outgoing ∧ d.dlv.selector = c.dlv.selector ∧
  d.dlv.progress = c.dlv.progress ∧ d.dlv.updateCount = c.dlv.updateCount ∧ d.dlv.epochCount = c.dlv.epochCount ∧
  d.dlv.epochShown = c.dlv.epochShown ∧ d.dlv.faultUnshown = c.dlv.faultUnshown ∧ d.dlv.counters = c.dlv.counters ∧
  d.freeUses = c.freeUses ∧ d.active = c.active

/-- The frame of `writeDone`. -/
@[simp] theorem writeDone_frame (slot : Nat) (seq : BitVec 8) (r : SlotResult) (c : Chip) :
    Kept.byWriteDone c (writeDone slot seq r c) := by
  and_intros
  all_goals first
    | (simp [writeDone]; done)
    | (simp [writeDone, Chip.active])

/-- What `writeTaken` keeps. -/
abbrev Kept.byWriteTaken (c d : Chip) : Prop :=
  d.rgp = c.rgp ∧ d.mpt.windows = c.mpt.windows ∧
  d.mpt.records = c.mpt.records ∧ d.mpt.overflow = c.mpt.overflow ∧ d.mpt.onBus = c.mpt.onBus ∧
  d.mpt.lastGrant = c.mpt.lastGrant ∧ d.lki = c.lki ∧ d.chc = c.chc ∧ d.ccu = c.ccu ∧ d.sce = c.sce ∧ d.tcu = c.tcu ∧
  d.ord.expected = c.ord.expected ∧ d.ord.drainPending = c.ord.drainPending ∧ d.ord.poll = c.ord.poll ∧
  d.ord.repeatMark = c.ord.repeatMark ∧ d.ord.timer = c.ord.timer ∧ d.ord.polls = c.ord.polls ∧
  d.ord.taken = c.ord.taken ∧ d.ord.duplicates = c.ord.duplicates ∧ d.ord.torn = c.ord.torn ∧ d.dlv = c.dlv ∧
  d.freeUses = c.freeUses ∧ d.active = c.active

/-- The frame of `writeTaken`. -/
@[simp] theorem writeTaken_frame (slot : Nat) (seq : BitVec 8) (kind : OpenKind) (word1 : Nat) (c : Chip) :
    Kept.byWriteTaken c (writeTaken slot seq kind word1 c) := by
  and_intros
  all_goals first
    | (simp [writeTaken]; done)
    | (simp [writeTaken, Chip.active])

/-- The frame of `completeScan`. -/
@[simp] theorem completeScan_frame (order : Option (Nat × BitVec 8)) (number : Nat) (outcome : ScanOutcome) (seq : Option Word32) (c : Chip) :
    Kept.byWriteDone c (completeScan order number outcome seq c) := by
  and_intros <;> (unfold completeScan; (repeat' split) <;> simp)

/-- The frame of `completeCancels`. -/
@[simp] theorem completeCancels_frame (number : Nat) (cancelled : Bool) (x0 : List (Nat × BitVec 8)) (c : Chip) :
    Kept.byWriteDone c (completeCancels number cancelled x0 c) := by
  induction x0 generalizing number cancelled c with
  | nil => and_intros <;> simp [completeCancels]
  | cons x l ih => and_intros <;> simp [completeCancels, ih]

/-- What `readTable` keeps. -/
abbrev Kept.byReadTable (c d : Chip) : Prop :=
  d.rgp = c.rgp ∧ d.mpt.windows = c.mpt.windows ∧
  d.mpt.records = c.mpt.records ∧ d.mpt.overflow = c.mpt.overflow ∧ d.mpt.onBus = c.mpt.onBus ∧
  d.mpt.lastGrant = c.mpt.lastGrant ∧ d.lki = c.lki ∧ d.chc = c.chc ∧ d.ccu = c.ccu ∧ d.sce = c.sce ∧ d.tcu = c.tcu ∧
  d.ord.expected = c.ord.expected ∧ d.ord.drainPending = c.ord.drainPending ∧ d.ord.openOrders = c.ord.openOrders ∧
  d.ord.repeatMark = c.ord.repeatMark ∧ d.ord.timer = c.ord.timer ∧ d.ord.takeRun = c.ord.takeRun ∧
  d.ord.taken = c.ord.taken ∧ d.ord.duplicates = c.ord.duplicates ∧ d.ord.torn = c.ord.torn ∧ d.dlv = c.dlv ∧
  d.freeUses = c.freeUses ∧ d.active = c.active

/-- The frame of `readTable`. -/
@[simp] theorem readTable_frame (c : Chip) : Kept.byReadTable c (readTable c) := by
  and_intros
  all_goals first
    | (simp [readTable]; done)
    | (simp [readTable, Chip.active])

/-- What `beginPoll` keeps. -/
abbrev Kept.byBeginPoll (c d : Chip) : Prop :=
  d.rgp = c.rgp ∧ d.mpt.windows = c.mpt.windows ∧
  d.mpt.records = c.mpt.records ∧ d.mpt.overflow = c.mpt.overflow ∧ d.mpt.onBus = c.mpt.onBus ∧
  d.mpt.lastGrant = c.mpt.lastGrant ∧ d.lki = c.lki ∧ d.chc = c.chc ∧ d.ccu = c.ccu ∧ d.sce = c.sce ∧ d.tcu = c.tcu ∧
  d.ord.expected = c.ord.expected ∧ d.ord.drainPending = c.ord.drainPending ∧ d.ord.openOrders = c.ord.openOrders ∧
  d.ord.timer = c.ord.timer ∧ d.ord.takeRun = c.ord.takeRun ∧ d.ord.taken = c.ord.taken ∧
  d.ord.duplicates = c.ord.duplicates ∧ d.ord.torn = c.ord.torn ∧ d.dlv.image = c.dlv.image ∧ d.dlv.pick = c.dlv.pick ∧
  d.dlv.event = c.dlv.event ∧ d.dlv.pendingEvents = c.dlv.pendingEvents ∧ d.dlv.assembly = c.dlv.assembly ∧
  d.dlv.outgoing = c.dlv.outgoing ∧ d.dlv.selector = c.dlv.selector ∧ d.dlv.progress = c.dlv.progress ∧
  d.dlv.progressAsked = c.dlv.progressAsked ∧ d.dlv.rewrite = c.dlv.rewrite ∧ d.dlv.updateCount = c.dlv.updateCount ∧
  d.dlv.epochCount = c.dlv.epochCount ∧ d.dlv.epochShown = c.dlv.epochShown ∧
  d.dlv.faultUnshown = c.dlv.faultUnshown ∧ d.dlv.counters = c.dlv.counters ∧ d.freeUses = c.freeUses ∧
  d.active = c.active

/-- The frame of `beginPoll`. -/
@[simp] theorem beginPoll_frame (c : Chip) : Kept.byBeginPoll c (beginPoll c) := by
  and_intros
  all_goals first
    | (unfold beginPoll; (try dsimp only); (repeat' split) <;> simp)
    | (unfold beginPoll; (try dsimp only); (repeat' split) <;> simp [Chip.active])

/-- What `reportInval` keeps. -/
abbrev Kept.byReportInval (c d : Chip) : Prop :=
  d.rgp = c.rgp ∧ d.mpt.windows = c.mpt.windows ∧
  d.mpt.records = c.mpt.records ∧ d.mpt.overflow = c.mpt.overflow ∧ d.mpt.onBus = c.mpt.onBus ∧
  d.mpt.lastGrant = c.mpt.lastGrant ∧ d.lki = c.lki ∧ d.chc = c.chc ∧ d.ccu = c.ccu ∧ d.sce = c.sce ∧ d.tcu = c.tcu ∧
  d.ord.expected = c.ord.expected ∧ d.ord.timer = c.ord.timer ∧ d.ord.taken = c.ord.taken ∧
  d.ord.duplicates = c.ord.duplicates ∧ d.ord.torn = c.ord.torn ∧ d.dlv.image = c.dlv.image ∧ d.dlv.pick = c.dlv.pick ∧
  d.dlv.event = c.dlv.event ∧ d.dlv.pendingEvents = c.dlv.pendingEvents ∧ d.dlv.assembly = c.dlv.assembly ∧
  d.dlv.outgoing = c.dlv.outgoing ∧ d.dlv.selector = c.dlv.selector ∧ d.dlv.progress = c.dlv.progress ∧
  d.dlv.updateCount = c.dlv.updateCount ∧ d.dlv.epochCount = c.dlv.epochCount ∧ d.dlv.epochShown = c.dlv.epochShown ∧
  d.dlv.faultUnshown = c.dlv.faultUnshown ∧ d.dlv.counters = c.dlv.counters ∧ d.freeUses = c.freeUses ∧
  d.active = c.active

/-- The frame of `reportInval`. -/
@[simp] theorem reportInval_frame (slot : Nat) (seq : BitVec 8) (r : SlotResult) (c : Chip) :
    Kept.byReportInval c (reportInval slot seq r c) := by
  and_intros
  all_goals first
    | (unfold reportInval; (repeat' split) <;> simp; done)
    | (unfold reportInval; (repeat' split) <;> simp [Chip.active])

/-- The frame of `slotWriteAnswered`. -/
@[simp] theorem slotWriteAnswered_frame (a : Access) (_result : Option (List Byte)) (c : Chip) :
    Kept.bySetCause c (slotWriteAnswered a _result c) := by
  and_intros <;> (unfold slotWriteAnswered; (repeat' split) <;> simp)

end Sys2Proof.Machine
end

