-- ==== Sys2Proof/Laws/TablesFrame.lean ====
section
/-! SUPPORT. The frames of the operations of TCU: for each, the parts of the state it keeps. A relation
`Kept.by…` names the blocks and fields kept, and is cited for every operation that keeps exactly those. -/

namespace Sys2Proof.Machine

/-- What `hitRow` keeps. -/
abbrev Kept.byHitRow (c d : Chip) : Prop :=
  d.rgp = c.rgp ∧ d.mpt = c.mpt ∧ d.lki = c.lki ∧ d.chc = c.chc ∧
  d.ccu = c.ccu ∧ d.sce = c.sce ∧ d.tcu.settings = c.tcu.settings ∧ d.tcu.grids = c.tcu.grids ∧
  d.tcu.hubEntries = c.tcu.hubEntries ∧ d.tcu.stationEntries = c.tcu.stationEntries ∧ d.tcu.fetch = c.tcu.fetch ∧
  d.tcu.reload = c.tcu.reload ∧ d.tcu.waiting = c.tcu.waiting ∧ d.tcu.drain = c.tcu.drain ∧
  d.tcu.misses = c.tcu.misses ∧ d.tcu.evictions = c.tcu.evictions ∧ d.tcu.dropped = c.tcu.dropped ∧
  d.tcu.invalidations = c.tcu.invalidations ∧ d.ord = c.ord ∧ d.dlv = c.dlv ∧ d.freeUses = c.freeUses ∧
  d.active = c.active

/-- The frame of `hitRow`. -/
@[simp] theorem hitRow_frame (e : CacheEntry) (c : Chip) : Kept.byHitRow c (hitRow e c) := by
  and_intros
  all_goals first
    | (simp [hitRow]; done)
    | (simp [hitRow, Chip.active])

/-- What `missRow` keeps. -/
abbrev Kept.byMissRow (c d : Chip) : Prop :=
  d.rgp.partState = c.rgp.partState ∧ d.rgp.bindResult = c.rgp.bindResult ∧ d.rgp.haltSource = c.rgp.haltSource ∧
  d.rgp.autoStrap = c.rgp.autoStrap ∧ d.rgp.dirselStrap = c.rgp.dirselStrap ∧ d.rgp.lastCode = c.rgp.lastCode ∧
  d.rgp.acceptance = c.rgp.acceptance ∧ d.rgp.dirbase = c.rgp.dirbase ∧ d.rgp.mask = c.rgp.mask ∧
  d.rgp.resetHeld = c.rgp.resetHeld ∧ d.rgp.binding = c.rgp.binding ∧ d.rgp.layout = c.rgp.layout ∧
  d.mpt.windows = c.mpt.windows ∧ d.mpt.onBus = c.mpt.onBus ∧ d.mpt.lastGrant = c.mpt.lastGrant ∧ d.lki = c.lki ∧
  d.chc = c.chc ∧ d.ccu = c.ccu ∧ d.sce = c.sce ∧ d.tcu.settings = c.tcu.settings ∧ d.tcu.grids = c.tcu.grids ∧
  d.tcu.hubEntries = c.tcu.hubEntries ∧ d.tcu.stationEntries = c.tcu.stationEntries ∧ d.tcu.cache = c.tcu.cache ∧
  d.tcu.reload = c.tcu.reload ∧ d.tcu.waiting = c.tcu.waiting ∧ d.tcu.drain = c.tcu.drain ∧ d.tcu.hits = c.tcu.hits ∧
  d.tcu.evictions = c.tcu.evictions ∧ d.tcu.dropped = c.tcu.dropped ∧ d.tcu.invalidations = c.tcu.invalidations ∧
  d.ord = c.ord ∧ d.dlv.image = c.dlv.image ∧ d.dlv.pick = c.dlv.pick ∧ d.dlv.event = c.dlv.event ∧
  d.dlv.pendingEvents = c.dlv.pendingEvents ∧ d.dlv.returnRead = c.dlv.returnRead ∧ d.dlv.reread = c.dlv.reread ∧
  d.dlv.assembly = c.dlv.assembly ∧ d.dlv.outgoing = c.dlv.outgoing ∧ d.dlv.selector = c.dlv.selector ∧
  d.dlv.progress = c.dlv.progress ∧ d.dlv.updateCount = c.dlv.updateCount ∧ d.dlv.epochCount = c.dlv.epochCount ∧
  d.dlv.epochShown = c.dlv.epochShown ∧ d.dlv.counters = c.dlv.counters ∧ d.freeUses = c.freeUses ∧ d.active = c.active

/-- The frame of `missRow`. -/
@[simp] theorem missRow_frame (g : GridDef) (grid node : Nat) (c : Chip) :
    Kept.byMissRow c (missRow g grid node c).1 := by
  and_intros
  all_goals first
    | (unfold missRow; (try dsimp only); (repeat' split) <;> simp; done)
    | (unfold missRow; (try dsimp only); (repeat' split) <;> simp [Chip.active])

/-- What `requestRow` keeps. -/
abbrev Kept.byRequestRow (c d : Chip) : Prop :=
  d.rgp.partState = c.rgp.partState ∧ d.rgp.bindResult = c.rgp.bindResult ∧ d.rgp.haltSource = c.rgp.haltSource ∧
  d.rgp.autoStrap = c.rgp.autoStrap ∧ d.rgp.dirselStrap = c.rgp.dirselStrap ∧ d.rgp.lastCode = c.rgp.lastCode ∧
  d.rgp.acceptance = c.rgp.acceptance ∧ d.rgp.dirbase = c.rgp.dirbase ∧ d.rgp.mask = c.rgp.mask ∧
  d.rgp.resetHeld = c.rgp.resetHeld ∧ d.rgp.binding = c.rgp.binding ∧ d.rgp.layout = c.rgp.layout ∧
  d.mpt.windows = c.mpt.windows ∧ d.mpt.onBus = c.mpt.onBus ∧ d.mpt.lastGrant = c.mpt.lastGrant ∧ d.lki = c.lki ∧
  d.chc = c.chc ∧ d.ccu = c.ccu ∧ d.sce = c.sce ∧ d.tcu.settings = c.tcu.settings ∧ d.tcu.grids = c.tcu.grids ∧
  d.tcu.hubEntries = c.tcu.hubEntries ∧ d.tcu.stationEntries = c.tcu.stationEntries ∧ d.tcu.reload = c.tcu.reload ∧
  d.tcu.waiting = c.tcu.waiting ∧ d.tcu.drain = c.tcu.drain ∧ d.tcu.evictions = c.tcu.evictions ∧
  d.tcu.dropped = c.tcu.dropped ∧ d.tcu.invalidations = c.tcu.invalidations ∧ d.ord = c.ord ∧
  d.dlv.image = c.dlv.image ∧ d.dlv.pick = c.dlv.pick ∧ d.dlv.event = c.dlv.event ∧
  d.dlv.pendingEvents = c.dlv.pendingEvents ∧ d.dlv.returnRead = c.dlv.returnRead ∧ d.dlv.reread = c.dlv.reread ∧
  d.dlv.assembly = c.dlv.assembly ∧ d.dlv.outgoing = c.dlv.outgoing ∧ d.dlv.selector = c.dlv.selector ∧
  d.dlv.progress = c.dlv.progress ∧ d.dlv.updateCount = c.dlv.updateCount ∧ d.dlv.epochCount = c.dlv.epochCount ∧
  d.dlv.epochShown = c.dlv.epochShown ∧ d.dlv.counters = c.dlv.counters ∧ d.freeUses = c.freeUses ∧ d.active = c.active

/-- The frame of `requestRow`. -/
@[simp] theorem requestRow_frame (grid node : Nat) (c : Chip) : Kept.byRequestRow c (requestRow grid node c).1 := by
  and_intros <;> (unfold requestRow; (repeat' split) <;> simp)

/-- What `requestRefine` keeps. -/
abbrev Kept.byRequestRefine (c d : Chip) : Prop :=
  d.rgp.partState = c.rgp.partState ∧ d.rgp.bindResult = c.rgp.bindResult ∧ d.rgp.haltSource = c.rgp.haltSource ∧
  d.rgp.autoStrap = c.rgp.autoStrap ∧ d.rgp.dirselStrap = c.rgp.dirselStrap ∧ d.rgp.lastCode = c.rgp.lastCode ∧
  d.rgp.acceptance = c.rgp.acceptance ∧ d.rgp.dirbase = c.rgp.dirbase ∧ d.rgp.mask = c.rgp.mask ∧
  d.rgp.resetHeld = c.rgp.resetHeld ∧ d.rgp.binding = c.rgp.binding ∧ d.rgp.layout = c.rgp.layout ∧
  d.mpt.windows = c.mpt.windows ∧ d.mpt.onBus = c.mpt.onBus ∧ d.mpt.lastGrant = c.mpt.lastGrant ∧ d.lki = c.lki ∧
  d.chc = c.chc ∧ d.ccu = c.ccu ∧ d.sce = c.sce ∧ d.tcu = c.tcu ∧ d.ord = c.ord ∧ d.dlv.image = c.dlv.image ∧
  d.dlv.pick = c.dlv.pick ∧ d.dlv.event = c.dlv.event ∧ d.dlv.pendingEvents = c.dlv.pendingEvents ∧
  d.dlv.returnRead = c.dlv.returnRead ∧ d.dlv.reread = c.dlv.reread ∧ d.dlv.assembly = c.dlv.assembly ∧
  d.dlv.outgoing = c.dlv.outgoing ∧ d.dlv.selector = c.dlv.selector ∧ d.dlv.progress = c.dlv.progress ∧
  d.dlv.updateCount = c.dlv.updateCount ∧ d.dlv.epochCount = c.dlv.epochCount ∧ d.dlv.epochShown = c.dlv.epochShown ∧
  d.dlv.counters = c.dlv.counters ∧ d.freeUses = c.freeUses ∧ d.active = c.active

/-- The frame of `requestRefine`. -/
@[simp] theorem requestRefine_frame (grid node : Nat) (c : Chip) :
    Kept.byRequestRefine c (requestRefine grid node c).1 := by
  and_intros <;> (unfold requestRefine; (try dsimp only); (repeat' split) <;> simp)

/-- What `performRowScope` keeps. -/
abbrev Kept.byPerformRowScope (c d : Chip) : Prop :=
  d.rgp = c.rgp ∧ d.mpt = c.mpt ∧ d.lki = c.lki ∧ d.chc = c.chc ∧
  d.ccu = c.ccu ∧ d.sce.parks = c.sce.parks ∧ d.sce.resumes = c.sce.resumes ∧ d.sce.stage2Runs = c.sce.stage2Runs ∧
  d.tcu.settings = c.tcu.settings ∧ d.tcu.grids = c.tcu.grids ∧ d.tcu.hubEntries = c.tcu.hubEntries ∧
  d.tcu.stationEntries = c.tcu.stationEntries ∧ d.tcu.reload = c.tcu.reload ∧ d.tcu.waiting = c.tcu.waiting ∧
  d.tcu.drain = c.tcu.drain ∧ d.tcu.hits = c.tcu.hits ∧ d.tcu.misses = c.tcu.misses ∧
  d.tcu.evictions = c.tcu.evictions ∧ d.tcu.invalidations = c.tcu.invalidations ∧ d.ord = c.ord ∧ d.dlv = c.dlv ∧
  d.freeUses = c.freeUses ∧ d.active = c.active

/-- The frame of `performRowScope`. -/
@[simp] theorem performRowScope_frame (scope : RowScope) (c : Chip) :
    Kept.byPerformRowScope c (performRowScope scope c) := by
  and_intros
  all_goals first
    | (simp [performRowScope]; done)
    | (simp [performRowScope, Chip.active])

/-- What `countInvalidation` keeps. -/
abbrev Kept.byCountInvalidation (c d : Chip) : Prop :=
  d.rgp = c.rgp ∧ d.mpt = c.mpt ∧ d.lki = c.lki ∧
  d.chc = c.chc ∧ d.ccu = c.ccu ∧ d.sce = c.sce ∧ d.tcu.settings = c.tcu.settings ∧ d.tcu.grids = c.tcu.grids ∧
  d.tcu.hubEntries = c.tcu.hubEntries ∧ d.tcu.stationEntries = c.tcu.stationEntries ∧ d.tcu.cache = c.tcu.cache ∧
  d.tcu.fetch = c.tcu.fetch ∧ d.tcu.reload = c.tcu.reload ∧ d.tcu.waiting = c.tcu.waiting ∧
  d.tcu.drain = c.tcu.drain ∧ d.tcu.hits = c.tcu.hits ∧ d.tcu.misses = c.tcu.misses ∧
  d.tcu.evictions = c.tcu.evictions ∧ d.tcu.dropped = c.tcu.dropped ∧ d.ord = c.ord ∧ d.dlv = c.dlv ∧
  d.freeUses = c.freeUses ∧ d.active = c.active

/-- The frame of `countInvalidation`. -/
@[simp] theorem countInvalidation_frame (c : Chip) : Kept.byCountInvalidation c (countInvalidation c) := by
  and_intros
  all_goals first
    | (simp [countInvalidation]; done)
    | (simp [countInvalidation, Chip.active])

/-- What `settleRowScope` keeps. -/
abbrev Kept.bySettleRowScope (c d : Chip) : Prop :=
  d.rgp = c.rgp ∧ d.mpt = c.mpt ∧ d.lki = c.lki ∧ d.chc = c.chc ∧
  d.ccu = c.ccu ∧ d.sce = c.sce ∧ d.tcu.settings = c.tcu.settings ∧ d.tcu.grids = c.tcu.grids ∧
  d.tcu.hubEntries = c.tcu.hubEntries ∧ d.tcu.stationEntries = c.tcu.stationEntries ∧ d.tcu.cache = c.tcu.cache ∧
  d.tcu.fetch = c.tcu.fetch ∧ d.tcu.reload = c.tcu.reload ∧ d.tcu.waiting = c.tcu.waiting ∧ d.tcu.hits = c.tcu.hits ∧
  d.tcu.misses = c.tcu.misses ∧ d.tcu.evictions = c.tcu.evictions ∧ d.tcu.dropped = c.tcu.dropped ∧
  d.tcu.invalidations = c.tcu.invalidations ∧ d.ord = c.ord ∧ d.dlv = c.dlv ∧ d.freeUses = c.freeUses ∧
  d.active = c.active

/-- The frame of `settleRowScope`. -/
@[simp] theorem settleRowScope_frame (o : InvalOrder) (numbers : List Nat) (r : SlotResult) (c : Chip) :
    Kept.bySettleRowScope c (settleRowScope o numbers r c).1 := by
  and_intros
  all_goals first
    | (unfold settleRowScope; (repeat' split) <;> simp; done)
    | (unfold settleRowScope; (repeat' split) <;> simp [Chip.active])

/-- What `runRowScope` keeps. -/
abbrev Kept.byRunRowScope (c d : Chip) : Prop :=
  d.rgp = c.rgp ∧ d.mpt = c.mpt ∧ d.lki = c.lki ∧ d.chc = c.chc ∧
  d.ccu = c.ccu ∧ d.sce.parks = c.sce.parks ∧ d.sce.resumes = c.sce.resumes ∧ d.sce.stage2Runs = c.sce.stage2Runs ∧
  d.tcu.settings = c.tcu.settings ∧ d.tcu.grids = c.tcu.grids ∧ d.tcu.hubEntries = c.tcu.hubEntries ∧
  d.tcu.stationEntries = c.tcu.stationEntries ∧ d.tcu.reload = c.tcu.reload ∧ d.tcu.waiting = c.tcu.waiting ∧
  d.tcu.hits = c.tcu.hits ∧ d.tcu.misses = c.tcu.misses ∧ d.tcu.evictions = c.tcu.evictions ∧ d.ord = c.ord ∧
  d.dlv = c.dlv ∧ d.freeUses = c.freeUses ∧ d.active = c.active

/-- The frame of `runRowScope`. -/
@[simp] theorem runRowScope_frame (o : InvalOrder) (scope : RowScope) (word : Nat) (c : Chip) :
    Kept.byRunRowScope c (runRowScope o scope word c).1 := by
  and_intros <;> simp [runRowScope]

/-- What `startReload` keeps. -/
abbrev Kept.byStartReload (c d : Chip) : Prop :=
  d.rgp = c.rgp ∧ d.mpt.windows = c.mpt.windows ∧
  d.mpt.records = c.mpt.records ∧ d.mpt.overflow = c.mpt.overflow ∧ d.mpt.onBus = c.mpt.onBus ∧
  d.mpt.lastGrant = c.mpt.lastGrant ∧ d.lki = c.lki ∧ d.chc = c.chc ∧ d.ccu = c.ccu ∧ d.sce = c.sce ∧
  d.tcu.settings = c.tcu.settings ∧ d.tcu.grids = c.tcu.grids ∧ d.tcu.hubEntries = c.tcu.hubEntries ∧
  d.tcu.stationEntries = c.tcu.stationEntries ∧ d.tcu.cache = c.tcu.cache ∧ d.tcu.fetch = c.tcu.fetch ∧
  d.tcu.waiting = c.tcu.waiting ∧ d.tcu.drain = c.tcu.drain ∧ d.tcu.hits = c.tcu.hits ∧ d.tcu.misses = c.tcu.misses ∧
  d.tcu.evictions = c.tcu.evictions ∧ d.tcu.dropped = c.tcu.dropped ∧ d.tcu.invalidations = c.tcu.invalidations ∧
  d.ord = c.ord ∧ d.dlv = c.dlv ∧ d.freeUses = c.freeUses ∧ d.active = c.active

/-- The frame of `startReload`. -/
@[simp] theorem startReload_frame (o : InvalOrder) (reads : List Access) (c : Chip) :
    Kept.byStartReload c (startReload o reads c) := by
  and_intros
  all_goals first
    | (simp [startReload]; done)
    | (simp [startReload, Chip.active])

/-- What `takeInval` keeps. -/
abbrev Kept.byTakeInval (c d : Chip) : Prop :=
  d.rgp = c.rgp ∧ d.mpt.windows = c.mpt.windows ∧
  d.mpt.records = c.mpt.records ∧ d.mpt.overflow = c.mpt.overflow ∧ d.mpt.onBus = c.mpt.onBus ∧
  d.mpt.lastGrant = c.mpt.lastGrant ∧ d.lki = c.lki ∧ d.chc = c.chc ∧ d.ccu = c.ccu ∧ d.sce.parks = c.sce.parks ∧
  d.sce.resumes = c.sce.resumes ∧ d.sce.stage2Runs = c.sce.stage2Runs ∧ d.tcu.settings = c.tcu.settings ∧
  d.tcu.grids = c.tcu.grids ∧ d.tcu.hubEntries = c.tcu.hubEntries ∧ d.tcu.stationEntries = c.tcu.stationEntries ∧
  d.tcu.waiting = c.tcu.waiting ∧ d.tcu.hits = c.tcu.hits ∧ d.tcu.misses = c.tcu.misses ∧
  d.tcu.evictions = c.tcu.evictions ∧ d.ord = c.ord ∧ d.dlv = c.dlv ∧ d.freeUses = c.freeUses ∧ d.active = c.active

/-- The frame of `takeInval`. -/
@[simp] theorem takeInval_frame (o : InvalOrder) (c : Chip) : Kept.byTakeInval c (takeInval o c).1 := by
  and_intros <;> (unfold takeInval; (repeat' split) <;> simp)

/-- What `handInval` keeps. -/
abbrev Kept.byHandInval (c d : Chip) : Prop :=
  d.rgp = c.rgp ∧ d.mpt.windows = c.mpt.windows ∧
  d.mpt.records = c.mpt.records ∧ d.mpt.overflow = c.mpt.overflow ∧ d.mpt.onBus = c.mpt.onBus ∧
  d.mpt.lastGrant = c.mpt.lastGrant ∧ d.lki = c.lki ∧ d.chc = c.chc ∧ d.ccu = c.ccu ∧ d.sce.parks = c.sce.parks ∧
  d.sce.resumes = c.sce.resumes ∧ d.sce.stage2Runs = c.sce.stage2Runs ∧ d.tcu.settings = c.tcu.settings ∧
  d.tcu.grids = c.tcu.grids ∧ d.tcu.hubEntries = c.tcu.hubEntries ∧ d.tcu.stationEntries = c.tcu.stationEntries ∧
  d.tcu.hits = c.tcu.hits ∧ d.tcu.misses = c.tcu.misses ∧ d.tcu.evictions = c.tcu.evictions ∧ d.ord = c.ord ∧
  d.dlv = c.dlv ∧ d.freeUses = c.freeUses ∧ d.active = c.active

/-- The frame of `handInval`. -/
@[simp] theorem handInval_frame (o : InvalOrder) (c : Chip) : Kept.byHandInval c (handInval o c).1 := by
  and_intros
  all_goals first
    | (unfold handInval; (repeat' split) <;> simp; done)
    | (unfold handInval; (repeat' split) <;> simp [Chip.active])

/-- What `takeWaiting` keeps. -/
abbrev Kept.byTakeWaiting (c d : Chip) : Prop :=
  d.rgp = c.rgp ∧ d.mpt.windows = c.mpt.windows ∧
  d.mpt.records = c.mpt.records ∧ d.mpt.overflow = c.mpt.overflow ∧ d.mpt.onBus = c.mpt.onBus ∧
  d.mpt.lastGrant = c.mpt.lastGrant ∧ d.lki = c.lki ∧ d.chc = c.chc ∧ d.ccu = c.ccu ∧ d.sce.parks = c.sce.parks ∧
  d.sce.resumes = c.sce.resumes ∧ d.sce.stage2Runs = c.sce.stage2Runs ∧ d.tcu.settings = c.tcu.settings ∧
  d.tcu.grids = c.tcu.grids ∧ d.tcu.hubEntries = c.tcu.hubEntries ∧ d.tcu.stationEntries = c.tcu.stationEntries ∧
  d.tcu.hits = c.tcu.hits ∧ d.tcu.misses = c.tcu.misses ∧ d.tcu.evictions = c.tcu.evictions ∧
  d.ord.expected = c.ord.expected ∧ d.ord.timer = c.ord.timer ∧ d.ord.taken = c.ord.taken ∧
  d.ord.duplicates = c.ord.duplicates ∧ d.ord.torn = c.ord.torn ∧ d.dlv.image = c.dlv.image ∧ d.dlv.pick = c.dlv.pick ∧
  d.dlv.event = c.dlv.event ∧ d.dlv.pendingEvents = c.dlv.pendingEvents ∧ d.dlv.assembly = c.dlv.assembly ∧
  d.dlv.outgoing = c.dlv.outgoing ∧ d.dlv.selector = c.dlv.selector ∧ d.dlv.progress = c.dlv.progress ∧
  d.dlv.updateCount = c.dlv.updateCount ∧ d.dlv.epochCount = c.dlv.epochCount ∧ d.dlv.epochShown = c.dlv.epochShown ∧
  d.dlv.faultUnshown = c.dlv.faultUnshown ∧ d.dlv.counters = c.dlv.counters ∧ d.freeUses = c.freeUses

/-- The frame of `takeWaiting`. -/
@[simp] theorem takeWaiting_frame (x0 : List InvalOrder) (c : Chip) : Kept.byTakeWaiting c (takeWaiting x0 c) := by
  induction x0 generalizing c with
  | nil => and_intros <;> simp [takeWaiting]
  | cons x l ih =>
    unfold takeWaiting
    and_intros <;>
      ((repeat' split) <;> (try (rename_i h; obtain ⟨rfl, -⟩ := Prod.ext_iff.1 h)) <;>
        simp [ih])

/-- What `endReload` keeps. -/
abbrev Kept.byEndReload (c d : Chip) : Prop :=
  d.rgp = c.rgp ∧ d.mpt.windows = c.mpt.windows ∧
  d.mpt.records = c.mpt.records ∧ d.mpt.overflow = c.mpt.overflow ∧ d.mpt.onBus = c.mpt.onBus ∧
  d.mpt.lastGrant = c.mpt.lastGrant ∧ d.lki = c.lki ∧ d.chc = c.chc ∧ d.ccu = c.ccu ∧ d.sce.parks = c.sce.parks ∧
  d.sce.resumes = c.sce.resumes ∧ d.sce.stage2Runs = c.sce.stage2Runs ∧ d.tcu.settings = c.tcu.settings ∧
  d.tcu.grids = c.tcu.grids ∧ d.tcu.hubEntries = c.tcu.hubEntries ∧ d.tcu.stationEntries = c.tcu.stationEntries ∧
  d.tcu.hits = c.tcu.hits ∧ d.tcu.misses = c.tcu.misses ∧ d.tcu.evictions = c.tcu.evictions ∧
  d.ord.expected = c.ord.expected ∧ d.ord.timer = c.ord.timer ∧ d.ord.taken = c.ord.taken ∧
  d.ord.duplicates = c.ord.duplicates ∧ d.ord.torn = c.ord.torn ∧ d.dlv.image = c.dlv.image ∧ d.dlv.pick = c.dlv.pick ∧
  d.dlv.event = c.dlv.event ∧ d.dlv.pendingEvents = c.dlv.pendingEvents ∧ d.dlv.assembly = c.dlv.assembly ∧
  d.dlv.outgoing = c.dlv.outgoing ∧ d.dlv.selector = c.dlv.selector ∧ d.dlv.progress = c.dlv.progress ∧
  d.dlv.updateCount = c.dlv.updateCount ∧ d.dlv.epochCount = c.dlv.epochCount ∧ d.dlv.epochShown = c.dlv.epochShown ∧
  d.dlv.faultUnshown = c.dlv.faultUnshown ∧ d.dlv.counters = c.dlv.counters ∧ d.freeUses = c.freeUses ∧
  d.active = c.active

/-- The frame of `endReload`. -/
@[simp] theorem endReload_frame (o : InvalOrder) (r : Option SlotResult) (c : Chip) :
    Kept.byEndReload c (endReload o r c) := by
  and_intros
  all_goals first
    | (unfold endReload; (try dsimp only); (repeat' split) <;> simp)
    | (unfold endReload; (try dsimp only); (repeat' split) <;> simp [Chip.active])

/-- What `drainFinished` keeps. -/
abbrev Kept.byDrainFinished (c d : Chip) : Prop :=
  d.rgp = c.rgp ∧ d.mpt.windows = c.mpt.windows ∧ d.mpt.records = c.mpt.records ∧ d.mpt.overflow = c.mpt.overflow ∧
  d.mpt.onBus = c.mpt.onBus ∧ d.mpt.lastGrant = c.mpt.lastGrant ∧ d.lki = c.lki ∧ d.chc = c.chc ∧ d.ccu = c.ccu ∧
  d.sce = c.sce ∧ d.tcu.settings = c.tcu.settings ∧ d.tcu.grids = c.tcu.grids ∧ d.tcu.hubEntries = c.tcu.hubEntries ∧
  d.tcu.stationEntries = c.tcu.stationEntries ∧ d.tcu.cache = c.tcu.cache ∧ d.tcu.fetch = c.tcu.fetch ∧
  d.tcu.reload = c.tcu.reload ∧ d.tcu.waiting = c.tcu.waiting ∧ d.tcu.hits = c.tcu.hits ∧ d.tcu.misses = c.tcu.misses ∧
  d.tcu.evictions = c.tcu.evictions ∧ d.tcu.dropped = c.tcu.dropped ∧ d.tcu.invalidations = c.tcu.invalidations ∧
  d.ord.expected = c.ord.expected ∧ d.ord.timer = c.ord.timer ∧ d.ord.taken = c.ord.taken ∧
  d.ord.duplicates = c.ord.duplicates ∧ d.ord.torn = c.ord.torn ∧ d.dlv.image = c.dlv.image ∧ d.dlv.pick = c.dlv.pick ∧
  d.dlv.event = c.dlv.event ∧ d.dlv.pendingEvents = c.dlv.pendingEvents ∧ d.dlv.assembly = c.dlv.assembly ∧
  d.dlv.outgoing = c.dlv.outgoing ∧ d.dlv.selector = c.dlv.selector ∧ d.dlv.progress = c.dlv.progress ∧
  d.dlv.updateCount = c.dlv.updateCount ∧ d.dlv.epochCount = c.dlv.epochCount ∧ d.dlv.epochShown = c.dlv.epochShown ∧
  d.dlv.faultUnshown = c.dlv.faultUnshown ∧ d.dlv.counters = c.dlv.counters ∧ d.freeUses = c.freeUses ∧
  d.active = c.active

/-- The frame of `drainFinished`. -/
@[simp] theorem drainFinished_frame (number : Nat) (c : Chip) : Kept.byDrainFinished c (drainFinished number c) := by
  and_intros
  all_goals first
    | (unfold drainFinished; (try dsimp only); (repeat' split) <;> simp)
    | (unfold drainFinished; (try dsimp only); (repeat' split) <;> simp [Chip.active])

/-- What `noteReloadRead` keeps. -/
abbrev Kept.byNoteReloadRead (c d : Chip) : Prop :=
  d.rgp = c.rgp ∧ d.mpt = c.mpt ∧ d.lki = c.lki ∧ d.chc = c.chc ∧
  d.ccu = c.ccu ∧ d.sce = c.sce ∧ d.tcu.settings = c.tcu.settings ∧ d.tcu.grids = c.tcu.grids ∧
  d.tcu.hubEntries = c.tcu.hubEntries ∧ d.tcu.stationEntries = c.tcu.stationEntries ∧ d.tcu.cache = c.tcu.cache ∧
  d.tcu.fetch = c.tcu.fetch ∧ d.tcu.waiting = c.tcu.waiting ∧ d.tcu.drain = c.tcu.drain ∧ d.tcu.hits = c.tcu.hits ∧
  d.tcu.misses = c.tcu.misses ∧ d.tcu.evictions = c.tcu.evictions ∧ d.tcu.dropped = c.tcu.dropped ∧
  d.tcu.invalidations = c.tcu.invalidations ∧ d.ord = c.ord ∧ d.dlv = c.dlv ∧ d.freeUses = c.freeUses ∧
  d.active = c.active

/-- The frame of `noteReloadRead`. -/
@[simp] theorem noteReloadRead_frame (result : Option (List Byte)) (c : Chip) :
    Kept.byNoteReloadRead c (noteReloadRead result c) := by
  and_intros
  all_goals first
    | (simp [noteReloadRead]; done)
    | (simp [noteReloadRead, Chip.active])

/-- What `performGriddefs` keeps. -/
abbrev Kept.byPerformGriddefs (c d : Chip) : Prop :=
  d.rgp = c.rgp ∧ d.mpt.windows = c.mpt.windows ∧
  d.mpt.records = c.mpt.records ∧ d.mpt.overflow = c.mpt.overflow ∧ d.mpt.onBus = c.mpt.onBus ∧
  d.mpt.lastGrant = c.mpt.lastGrant ∧ d.lki = c.lki ∧ d.chc = c.chc ∧ d.ccu = c.ccu ∧ d.sce.parks = c.sce.parks ∧
  d.sce.resumes = c.sce.resumes ∧ d.sce.stage2Runs = c.sce.stage2Runs ∧ d.tcu.settings = c.tcu.settings ∧
  d.tcu.hubEntries = c.tcu.hubEntries ∧ d.tcu.stationEntries = c.tcu.stationEntries ∧ d.tcu.hits = c.tcu.hits ∧
  d.tcu.misses = c.tcu.misses ∧ d.tcu.evictions = c.tcu.evictions ∧ d.ord.expected = c.ord.expected ∧
  d.ord.timer = c.ord.timer ∧ d.ord.taken = c.ord.taken ∧ d.ord.duplicates = c.ord.duplicates ∧
  d.ord.torn = c.ord.torn ∧ d.dlv.image = c.dlv.image ∧ d.dlv.pick = c.dlv.pick ∧ d.dlv.event = c.dlv.event ∧
  d.dlv.pendingEvents = c.dlv.pendingEvents ∧ d.dlv.assembly = c.dlv.assembly ∧ d.dlv.outgoing = c.dlv.outgoing ∧
  d.dlv.selector = c.dlv.selector ∧ d.dlv.progress = c.dlv.progress ∧ d.dlv.updateCount = c.dlv.updateCount ∧
  d.dlv.epochCount = c.dlv.epochCount ∧ d.dlv.epochShown = c.dlv.epochShown ∧
  d.dlv.faultUnshown = c.dlv.faultUnshown ∧ d.dlv.counters = c.dlv.counters ∧ d.freeUses = c.freeUses ∧
  d.active = c.active

/-- The frame of `performGriddefs`. -/
@[simp] theorem performGriddefs_frame (r : Reload) (c : Chip) : Kept.byPerformGriddefs c (performGriddefs r c) := by
  and_intros
  all_goals first
    | (simp [performGriddefs]; done)
    | (simp [performGriddefs, Chip.active])

/-- The frame of `griddefsAnswered`. -/
@[simp] theorem griddefsAnswered_frame (_a : Access) (result : Option (List Byte)) (c : Chip) :
    Kept.byPerformGriddefs c (griddefsAnswered _a result c) := by
  and_intros <;> (unfold griddefsAnswered; (try dsimp only); (repeat' split) <;> simp)

/-- The frame of `reloadReadAnswered`. -/
@[simp] theorem reloadReadAnswered_frame (_a : Access) (result : Option (List Byte)) (c : Chip) :
    Kept.byNoteReloadRead c (reloadReadAnswered _a result c) := by
  and_intros <;> simp [reloadReadAnswered]

end Sys2Proof.Machine
end

