-- ==== Sys2Proof/Laws/ScanEngineFrame.lean ====
section
/-! SUPPORT. The frames of the operations of SCE: for each, the parts of the state it keeps. A relation
`Kept.by…` names the blocks and fields kept, and is cited for every operation that keeps exactly those. -/

namespace Sys2Proof.Machine

/-- What `onScan` keeps. -/
abbrev Kept.byOnScan (c d : Chip) : Prop :=
  d.rgp = c.rgp ∧ d.mpt = c.mpt ∧ d.lki = c.lki ∧ d.chc = c.chc ∧
  d.ccu = c.ccu ∧ d.sce.parks = c.sce.parks ∧ d.sce.resumes = c.sce.resumes ∧ d.sce.stage2Runs = c.sce.stage2Runs ∧
  d.tcu = c.tcu ∧ d.ord = c.ord ∧ d.dlv = c.dlv ∧ d.freeUses = c.freeUses ∧ d.active = c.active

/-- The frame of `onScan`. -/
@[simp] theorem onScan_frame (bank : Nat) (f : Scan → Scan) (c : Chip) : Kept.byOnScan c (onScan bank f c) := by
  and_intros
  all_goals first
    | (simp [onScan]; done)
    | (simp [onScan, Chip.active])

/-- The frame of `setBank`. -/
@[simp] theorem setBank_frame (bank : Nat) (b : Option Scan) (c : Chip) : Kept.byOnScan c (setBank bank b c) := by
  and_intros
  all_goals first
    | (simp [setBank]; done)
    | (simp [setBank, Chip.active])

/-- What `clearTarget` keeps. -/
abbrev Kept.byClearTarget (c d : Chip) : Prop :=
  d.rgp = c.rgp ∧ d.mpt = c.mpt ∧ d.lki = c.lki ∧ d.chc = c.chc ∧
  d.sce = c.sce ∧ d.tcu = c.tcu ∧ d.ord = c.ord ∧ d.dlv = c.dlv ∧ d.freeUses = c.freeUses ∧ d.active = c.active

/-- The frame of `clearTarget`. -/
@[simp] theorem clearTarget_frame (number : Nat) (c : Chip) : Kept.byClearTarget c (clearTarget number c) := by
  and_intros
  all_goals first
    | (simp [clearTarget]; done)
    | (simp [clearTarget, Chip.active])

/-- What `stoppingToBound` keeps. -/
abbrev Kept.byStoppingToBound (c d : Chip) : Prop :=
  d.rgp.bindResult = c.rgp.bindResult ∧
  d.rgp.haltSource = c.rgp.haltSource ∧ d.rgp.autoStrap = c.rgp.autoStrap ∧ d.rgp.dirselStrap = c.rgp.dirselStrap ∧
  d.rgp.lastCode = c.rgp.lastCode ∧ d.rgp.acceptance = c.rgp.acceptance ∧ d.rgp.dirbase = c.rgp.dirbase ∧
  d.rgp.mask = c.rgp.mask ∧ d.rgp.resetHeld = c.rgp.resetHeld ∧ d.rgp.binding = c.rgp.binding ∧
  d.rgp.layout = c.rgp.layout ∧ d.mpt = c.mpt ∧ d.lki = c.lki ∧ d.chc = c.chc ∧ d.ccu = c.ccu ∧ d.sce = c.sce ∧
  d.tcu = c.tcu ∧ d.ord = c.ord ∧ d.dlv.image = c.dlv.image ∧ d.dlv.pick = c.dlv.pick ∧ d.dlv.event = c.dlv.event ∧
  d.dlv.pendingEvents = c.dlv.pendingEvents ∧ d.dlv.returnRead = c.dlv.returnRead ∧ d.dlv.reread = c.dlv.reread ∧
  d.dlv.assembly = c.dlv.assembly ∧ d.dlv.outgoing = c.dlv.outgoing ∧ d.dlv.selector = c.dlv.selector ∧
  d.dlv.progress = c.dlv.progress ∧ d.dlv.updateCount = c.dlv.updateCount ∧ d.dlv.epochCount = c.dlv.epochCount ∧
  d.dlv.epochShown = c.dlv.epochShown ∧ d.dlv.faultUnshown = c.dlv.faultUnshown ∧ d.dlv.counters = c.dlv.counters ∧
  d.freeUses = c.freeUses ∧ d.active = c.active

/-- The frame of `stoppingToBound`. -/
@[simp] theorem stoppingToBound_frame (c : Chip) :
    Kept.byStoppingToBound c (stoppingToBound c) := by
  unfold stoppingToBound
  split
  · rename_i h
    and_intros
    all_goals first
      | simp
      | (simp [Chip.active, enterState, changeState, h.1, PartState.active])
  · and_intros <;> rfl

/-- What `finishScan` keeps. -/
abbrev Kept.byFinishScan (c d : Chip) : Prop :=
  d.rgp.bindResult = c.rgp.bindResult ∧ d.rgp.haltSource = c.rgp.haltSource ∧ d.rgp.autoStrap = c.rgp.autoStrap ∧
  d.rgp.dirselStrap = c.rgp.dirselStrap ∧ d.rgp.lastCode = c.rgp.lastCode ∧ d.rgp.acceptance = c.rgp.acceptance ∧
  d.rgp.dirbase = c.rgp.dirbase ∧ d.rgp.mask = c.rgp.mask ∧ d.rgp.resetHeld = c.rgp.resetHeld ∧
  d.rgp.binding = c.rgp.binding ∧ d.rgp.layout = c.rgp.layout ∧ d.mpt.windows = c.mpt.windows ∧
  d.mpt.records = c.mpt.records ∧ d.mpt.overflow = c.mpt.overflow ∧ d.mpt.onBus = c.mpt.onBus ∧
  d.mpt.lastGrant = c.mpt.lastGrant ∧ d.lki = c.lki ∧ d.chc = c.chc ∧ d.sce.parks = c.sce.parks ∧
  d.sce.resumes = c.sce.resumes ∧ d.sce.stage2Runs = c.sce.stage2Runs ∧ d.tcu.settings = c.tcu.settings ∧
  d.tcu.grids = c.tcu.grids ∧ d.tcu.hubEntries = c.tcu.hubEntries ∧ d.tcu.stationEntries = c.tcu.stationEntries ∧
  d.tcu.cache = c.tcu.cache ∧ d.tcu.fetch = c.tcu.fetch ∧ d.tcu.reload = c.tcu.reload ∧ d.tcu.waiting = c.tcu.waiting ∧
  d.tcu.hits = c.tcu.hits ∧ d.tcu.misses = c.tcu.misses ∧ d.tcu.evictions = c.tcu.evictions ∧
  d.tcu.dropped = c.tcu.dropped ∧ d.tcu.invalidations = c.tcu.invalidations ∧ d.ord.expected = c.ord.expected ∧
  d.ord.timer = c.ord.timer ∧ d.ord.taken = c.ord.taken ∧ d.ord.duplicates = c.ord.duplicates ∧
  d.ord.torn = c.ord.torn ∧ d.dlv.image = c.dlv.image ∧ d.dlv.assembly = c.dlv.assembly ∧
  d.dlv.outgoing = c.dlv.outgoing ∧ d.dlv.selector = c.dlv.selector ∧ d.dlv.progress = c.dlv.progress ∧
  d.dlv.updateCount = c.dlv.updateCount ∧ d.dlv.epochCount = c.dlv.epochCount ∧ d.dlv.epochShown = c.dlv.epochShown ∧
  d.dlv.faultUnshown = c.dlv.faultUnshown ∧ d.freeUses = c.freeUses

/-- The frame of `finishScan`. -/
@[simp] theorem finishScan_frame (bank : Nat) (sc : Scan) (o : ScanOutcome) (arrivals : List Arrival) (c : Chip) :
    Kept.byFinishScan c (finishScan bank sc o arrivals c) := by
  and_intros <;> simp [finishScan]

/-- What `takeRequest` keeps. -/
abbrev Kept.byTakeRequest (c d : Chip) : Prop :=
  d.rgp = c.rgp ∧ d.mpt = c.mpt ∧ d.lki = c.lki ∧ d.chc = c.chc ∧
  d.ccu.prevCount = c.ccu.prevCount ∧ d.ccu.target = c.ccu.target ∧ d.ccu.requestCounter = c.ccu.requestCounter ∧
  d.ccu.declarations = c.ccu.declarations ∧ d.ccu.merges = c.ccu.merges ∧ d.ccu.lost = c.ccu.lost ∧
  d.ccu.displaced = c.ccu.displaced ∧ d.sce = c.sce ∧ d.tcu = c.tcu ∧ d.ord = c.ord ∧ d.dlv = c.dlv ∧
  d.freeUses = c.freeUses ∧ d.active = c.active

/-- The frame of `takeRequest`. -/
@[simp] theorem takeRequest_frame (number : Nat) (c : Chip) : Kept.byTakeRequest c (takeRequest number c) := by
  and_intros
  all_goals first
    | (simp [takeRequest]; done)
    | (simp [takeRequest, Chip.active])

/-- The frame of `finishAtOnce`. -/
@[simp] theorem finishAtOnce_frame (bank : Nat) (sc : Scan) (o : ScanOutcome) (c : Chip) :
    Kept.byFinishScan c (finishAtOnce bank sc o c).1 := by
  and_intros <;> simp [finishAtOnce]

/-- The frame of `startScan`. -/
@[simp] theorem startScan_frame (r : Request) (c : Chip) : Kept.byFinishScan c (startScan r c).1 := by
  and_intros <;> (unfold startScan; (try dsimp only); (repeat' split) <;> simp)

/-- What `resumeScan` keeps. -/
abbrev Kept.byResumeScan (c d : Chip) : Prop :=
  d.rgp.bindResult = c.rgp.bindResult ∧ d.rgp.haltSource = c.rgp.haltSource ∧ d.rgp.autoStrap = c.rgp.autoStrap ∧
  d.rgp.dirselStrap = c.rgp.dirselStrap ∧ d.rgp.lastCode = c.rgp.lastCode ∧ d.rgp.acceptance = c.rgp.acceptance ∧
  d.rgp.dirbase = c.rgp.dirbase ∧ d.rgp.mask = c.rgp.mask ∧ d.rgp.resetHeld = c.rgp.resetHeld ∧
  d.rgp.binding = c.rgp.binding ∧ d.rgp.layout = c.rgp.layout ∧ d.mpt.windows = c.mpt.windows ∧
  d.mpt.records = c.mpt.records ∧ d.mpt.overflow = c.mpt.overflow ∧ d.mpt.onBus = c.mpt.onBus ∧
  d.mpt.lastGrant = c.mpt.lastGrant ∧ d.lki = c.lki ∧ d.chc = c.chc ∧ d.sce.parks = c.sce.parks ∧
  d.sce.stage2Runs = c.sce.stage2Runs ∧ d.tcu.settings = c.tcu.settings ∧ d.tcu.grids = c.tcu.grids ∧
  d.tcu.hubEntries = c.tcu.hubEntries ∧ d.tcu.stationEntries = c.tcu.stationEntries ∧ d.tcu.cache = c.tcu.cache ∧
  d.tcu.fetch = c.tcu.fetch ∧ d.tcu.reload = c.tcu.reload ∧ d.tcu.waiting = c.tcu.waiting ∧ d.tcu.hits = c.tcu.hits ∧
  d.tcu.misses = c.tcu.misses ∧ d.tcu.evictions = c.tcu.evictions ∧ d.tcu.dropped = c.tcu.dropped ∧
  d.tcu.invalidations = c.tcu.invalidations ∧ d.ord.expected = c.ord.expected ∧ d.ord.timer = c.ord.timer ∧
  d.ord.taken = c.ord.taken ∧ d.ord.duplicates = c.ord.duplicates ∧ d.ord.torn = c.ord.torn ∧
  d.dlv.image = c.dlv.image ∧ d.dlv.assembly = c.dlv.assembly ∧ d.dlv.outgoing = c.dlv.outgoing ∧
  d.dlv.selector = c.dlv.selector ∧ d.dlv.progress = c.dlv.progress ∧ d.dlv.updateCount = c.dlv.updateCount ∧
  d.dlv.epochCount = c.dlv.epochCount ∧ d.dlv.epochShown = c.dlv.epochShown ∧ d.dlv.faultUnshown = c.dlv.faultUnshown ∧
  d.freeUses = c.freeUses

/-- The frame of `resumeScan`. -/
@[simp] theorem resumeScan_frame (bank : Nat) (sc : Scan) (c : Chip) :
    Kept.byResumeScan c (resumeScan bank sc c).1 := by
  and_intros <;> (unfold resumeScan; (try dsimp only); (repeat' split) <;> simp)

/-- The frame of `selectAction`. -/
@[simp] theorem selectAction_frame (c : Chip) : Kept.byResumeScan c (selectAction c).1 := by
  and_intros <;> (unfold selectAction; (repeat' split) <;> simp)

/-- What `requestScanRow` keeps. -/
abbrev Kept.byRequestScanRow (c d : Chip) : Prop :=
  d.rgp.partState = c.rgp.partState ∧ d.rgp.bindResult = c.rgp.bindResult ∧ d.rgp.haltSource = c.rgp.haltSource ∧
  d.rgp.autoStrap = c.rgp.autoStrap ∧ d.rgp.dirselStrap = c.rgp.dirselStrap ∧ d.rgp.lastCode = c.rgp.lastCode ∧
  d.rgp.acceptance = c.rgp.acceptance ∧ d.rgp.dirbase = c.rgp.dirbase ∧ d.rgp.mask = c.rgp.mask ∧
  d.rgp.resetHeld = c.rgp.resetHeld ∧ d.rgp.binding = c.rgp.binding ∧ d.rgp.layout = c.rgp.layout ∧
  d.mpt.windows = c.mpt.windows ∧ d.mpt.onBus = c.mpt.onBus ∧ d.mpt.lastGrant = c.mpt.lastGrant ∧ d.lki = c.lki ∧
  d.chc = c.chc ∧ d.ccu = c.ccu ∧ d.sce.parks = c.sce.parks ∧ d.sce.resumes = c.sce.resumes ∧
  d.sce.stage2Runs = c.sce.stage2Runs ∧ d.tcu.settings = c.tcu.settings ∧ d.tcu.grids = c.tcu.grids ∧
  d.tcu.hubEntries = c.tcu.hubEntries ∧ d.tcu.stationEntries = c.tcu.stationEntries ∧ d.tcu.reload = c.tcu.reload ∧
  d.tcu.waiting = c.tcu.waiting ∧ d.tcu.drain = c.tcu.drain ∧ d.tcu.evictions = c.tcu.evictions ∧
  d.tcu.dropped = c.tcu.dropped ∧ d.tcu.invalidations = c.tcu.invalidations ∧ d.ord = c.ord ∧
  d.dlv.image = c.dlv.image ∧ d.dlv.pick = c.dlv.pick ∧ d.dlv.event = c.dlv.event ∧
  d.dlv.pendingEvents = c.dlv.pendingEvents ∧ d.dlv.returnRead = c.dlv.returnRead ∧ d.dlv.reread = c.dlv.reread ∧
  d.dlv.assembly = c.dlv.assembly ∧ d.dlv.outgoing = c.dlv.outgoing ∧ d.dlv.selector = c.dlv.selector ∧
  d.dlv.progress = c.dlv.progress ∧ d.dlv.updateCount = c.dlv.updateCount ∧ d.dlv.epochCount = c.dlv.epochCount ∧
  d.dlv.epochShown = c.dlv.epochShown ∧ d.dlv.counters = c.dlv.counters ∧ d.freeUses = c.freeUses ∧ d.active = c.active

/-- The frame of `requestScanRow`. -/
@[simp] theorem requestScanRow_frame (bank grid node : Nat) (phase : ScanPhase) (next : List (BitVec 16) → EngineTask) (c : Chip) :
    Kept.byRequestScanRow c (requestScanRow bank grid node phase next c).1 := by
  and_intros <;> (unfold requestScanRow; (try dsimp only); (repeat' split) <;> (try (rename_i h; obtain ⟨rfl, -⟩ := Prod.ext_iff.1 h)) <;> simp)

/-- The frame of `rowAction`. -/
@[simp] theorem rowAction_frame (bank : Nat) (sc : Scan) (row : List (BitVec 16)) (c : Chip) :
    Kept.byOnScan c (rowAction bank sc row c).1 := by
  and_intros <;> (unfold rowAction; (try dsimp only); (repeat' split) <;> simp)

/-- The frame of `nodeEndAction`. -/
@[simp] theorem nodeEndAction_frame (bank : Nat) (sc : Scan) (c : Chip) :
    Kept.byOnScan c (nodeEndAction bank sc c).1 := by
  and_intros <;> simp [nodeEndAction]

/-- What `parkScan` keeps. -/
abbrev Kept.byParkScan (c d : Chip) : Prop :=
  d.rgp = c.rgp ∧ d.mpt = c.mpt ∧ d.lki = c.lki ∧ d.chc = c.chc ∧
  d.ccu = c.ccu ∧ d.sce.resumes = c.sce.resumes ∧ d.sce.stage2Runs = c.sce.stage2Runs ∧ d.tcu = c.tcu ∧
  d.ord = c.ord ∧ d.dlv = c.dlv ∧ d.freeUses = c.freeUses ∧ d.active = c.active

/-- The frame of `parkScan`. -/
@[simp] theorem parkScan_frame (bank : Nat) (c : Chip) : Kept.byParkScan c (parkScan bank c) := by
  and_intros
  all_goals first
    | (simp [parkScan]; done)
    | (simp [parkScan, Chip.active])

/-- What `boundaryAction` keeps. -/
abbrev Kept.byBoundaryAction (c d : Chip) : Prop :=
  d.rgp.bindResult = c.rgp.bindResult ∧ d.rgp.haltSource = c.rgp.haltSource ∧ d.rgp.autoStrap = c.rgp.autoStrap ∧
  d.rgp.dirselStrap = c.rgp.dirselStrap ∧ d.rgp.lastCode = c.rgp.lastCode ∧ d.rgp.acceptance = c.rgp.acceptance ∧
  d.rgp.dirbase = c.rgp.dirbase ∧ d.rgp.mask = c.rgp.mask ∧ d.rgp.resetHeld = c.rgp.resetHeld ∧
  d.rgp.binding = c.rgp.binding ∧ d.rgp.layout = c.rgp.layout ∧ d.mpt.windows = c.mpt.windows ∧
  d.mpt.records = c.mpt.records ∧ d.mpt.overflow = c.mpt.overflow ∧ d.mpt.onBus = c.mpt.onBus ∧
  d.mpt.lastGrant = c.mpt.lastGrant ∧ d.lki = c.lki ∧ d.chc = c.chc ∧ d.sce.resumes = c.sce.resumes ∧
  d.sce.stage2Runs = c.sce.stage2Runs ∧ d.tcu.settings = c.tcu.settings ∧ d.tcu.grids = c.tcu.grids ∧
  d.tcu.hubEntries = c.tcu.hubEntries ∧ d.tcu.stationEntries = c.tcu.stationEntries ∧ d.tcu.cache = c.tcu.cache ∧
  d.tcu.fetch = c.tcu.fetch ∧ d.tcu.reload = c.tcu.reload ∧ d.tcu.waiting = c.tcu.waiting ∧ d.tcu.hits = c.tcu.hits ∧
  d.tcu.misses = c.tcu.misses ∧ d.tcu.evictions = c.tcu.evictions ∧ d.tcu.dropped = c.tcu.dropped ∧
  d.tcu.invalidations = c.tcu.invalidations ∧ d.ord.expected = c.ord.expected ∧ d.ord.timer = c.ord.timer ∧
  d.ord.taken = c.ord.taken ∧ d.ord.duplicates = c.ord.duplicates ∧ d.ord.torn = c.ord.torn ∧
  d.dlv.image = c.dlv.image ∧ d.dlv.assembly = c.dlv.assembly ∧ d.dlv.outgoing = c.dlv.outgoing ∧
  d.dlv.selector = c.dlv.selector ∧ d.dlv.progress = c.dlv.progress ∧ d.dlv.updateCount = c.dlv.updateCount ∧
  d.dlv.epochCount = c.dlv.epochCount ∧ d.dlv.epochShown = c.dlv.epochShown ∧ d.dlv.faultUnshown = c.dlv.faultUnshown ∧
  d.freeUses = c.freeUses

/-- The frame of `boundaryAction`. -/
@[simp] theorem boundaryAction_frame (bank : Nat) (sc : Scan) (c : Chip) :
    Kept.byBoundaryAction c (boundaryAction bank sc c).1 := by
  and_intros <;> (unfold boundaryAction; (repeat' split) <;> simp)

/-- What `requestScanRefine` keeps. -/
abbrev Kept.byRequestScanRefine (c d : Chip) : Prop :=
  d.rgp.partState = c.rgp.partState ∧ d.rgp.bindResult = c.rgp.bindResult ∧ d.rgp.haltSource = c.rgp.haltSource ∧
  d.rgp.autoStrap = c.rgp.autoStrap ∧ d.rgp.dirselStrap = c.rgp.dirselStrap ∧ d.rgp.lastCode = c.rgp.lastCode ∧
  d.rgp.acceptance = c.rgp.acceptance ∧ d.rgp.dirbase = c.rgp.dirbase ∧ d.rgp.mask = c.rgp.mask ∧
  d.rgp.resetHeld = c.rgp.resetHeld ∧ d.rgp.binding = c.rgp.binding ∧ d.rgp.layout = c.rgp.layout ∧
  d.mpt.windows = c.mpt.windows ∧ d.mpt.onBus = c.mpt.onBus ∧ d.mpt.lastGrant = c.mpt.lastGrant ∧ d.lki = c.lki ∧
  d.chc = c.chc ∧ d.ccu = c.ccu ∧ d.sce.parks = c.sce.parks ∧ d.sce.resumes = c.sce.resumes ∧
  d.sce.stage2Runs = c.sce.stage2Runs ∧ d.tcu = c.tcu ∧ d.ord = c.ord ∧ d.dlv.image = c.dlv.image ∧
  d.dlv.pick = c.dlv.pick ∧ d.dlv.event = c.dlv.event ∧ d.dlv.pendingEvents = c.dlv.pendingEvents ∧
  d.dlv.returnRead = c.dlv.returnRead ∧ d.dlv.reread = c.dlv.reread ∧ d.dlv.assembly = c.dlv.assembly ∧
  d.dlv.outgoing = c.dlv.outgoing ∧ d.dlv.selector = c.dlv.selector ∧ d.dlv.progress = c.dlv.progress ∧
  d.dlv.updateCount = c.dlv.updateCount ∧ d.dlv.epochCount = c.dlv.epochCount ∧ d.dlv.epochShown = c.dlv.epochShown ∧
  d.dlv.counters = c.dlv.counters ∧ d.freeUses = c.freeUses ∧ d.active = c.active

/-- The frame of `requestScanRefine`. -/
@[simp] theorem requestScanRefine_frame (bank : Nat) (p : Peak) (c : Chip) :
    Kept.byRequestScanRefine c (requestScanRefine bank p c).1 := by
  and_intros <;> (unfold requestScanRefine; (repeat' split) <;> (try (rename_i h; obtain ⟨rfl, -⟩ := Prod.ext_iff.1 h)) <;> simp)

/-- The frame of `stage1End`. -/
@[simp] theorem stage1End_frame (bank : Nat) (sc : Scan) (c : Chip) :
    Kept.byRequestScanRefine c (stage1End bank sc c).1 := by
  and_intros <;> (unfold stage1End; (try dsimp only); (repeat' split) <;> simp)

/-- The frame of `stage2End`. -/
@[simp] theorem stage2End_frame (bank : Nat) (sc : Scan) (c : Chip) : Kept.byOnScan c (stage2End bank sc c).1 := by
  and_intros <;> (unfold stage2End; (try dsimp only); (repeat' split) <;> simp)

/-- The frame of `stageEndAction`. -/
@[simp] theorem stageEndAction_frame (bank : Nat) (sc : Scan) (c : Chip) :
    Kept.byRequestScanRefine c (stageEndAction bank sc c).1 := by
  and_intros <;> (unfold stageEndAction; (repeat' split) <;> simp)

/-- What `refinedAction` keeps. -/
abbrev Kept.byRefinedAction (c d : Chip) : Prop :=
  d.rgp = c.rgp ∧ d.mpt = c.mpt ∧ d.lki = c.lki ∧ d.chc = c.chc ∧
  d.ccu = c.ccu ∧ d.sce.parks = c.sce.parks ∧ d.sce.resumes = c.sce.resumes ∧ d.tcu = c.tcu ∧ d.ord = c.ord ∧
  d.dlv = c.dlv ∧ d.freeUses = c.freeUses ∧ d.active = c.active

/-- The frame of `refinedAction`. -/
@[simp] theorem refinedAction_frame (bank : Nat) (sc : Scan) (e : Option RefineEntry) (c : Chip) :
    Kept.byRefinedAction c (refinedAction bank sc e c).1 := by
  and_intros
  all_goals first
    | (unfold refinedAction; (repeat' split) <;> simp; done)
    | (unfold refinedAction; (repeat' split) <;> simp [Chip.active])

/-- The frame of `arrivalAction`. -/
@[simp] theorem arrivalAction_frame (bank : Nat) (sc : Scan) (o : ScanOutcome) (c : Chip) :
    Kept.byRequestScanRow c (arrivalAction bank sc o c).1 := by
  and_intros <;> (unfold arrivalAction; (repeat' split) <;> simp)

/-- The frame of `listAction`. -/
@[simp] theorem listAction_frame (bank : Nat) (sc : Scan) (o : ScanOutcome) (row : List (BitVec 16)) (ch : Nat) (found : List Arrival) (c : Chip) :
    Kept.byOnScan c (listAction bank sc o row ch found c).1 := by
  and_intros <;> (unfold listAction; (try dsimp only); (repeat' split) <;> simp)

/-- The frame of `concludeAction`. -/
@[simp] theorem concludeAction_frame (bank : Nat) (sc : Scan) (o : ScanOutcome) (arrivals : List Arrival) (c : Chip) :
    Kept.byFinishScan c (concludeAction bank sc o arrivals c).1 := by
  and_intros <;> (unfold concludeAction; (repeat' split) <;> simp)

/-- What `scanAction` keeps. -/
abbrev Kept.byScanAction (c d : Chip) : Prop :=
  d.rgp.bindResult = c.rgp.bindResult ∧ d.rgp.haltSource = c.rgp.haltSource ∧ d.rgp.autoStrap = c.rgp.autoStrap ∧
  d.rgp.dirselStrap = c.rgp.dirselStrap ∧ d.rgp.lastCode = c.rgp.lastCode ∧ d.rgp.acceptance = c.rgp.acceptance ∧
  d.rgp.dirbase = c.rgp.dirbase ∧ d.rgp.mask = c.rgp.mask ∧ d.rgp.resetHeld = c.rgp.resetHeld ∧
  d.rgp.binding = c.rgp.binding ∧ d.rgp.layout = c.rgp.layout ∧ d.mpt.windows = c.mpt.windows ∧
  d.mpt.onBus = c.mpt.onBus ∧ d.mpt.lastGrant = c.mpt.lastGrant ∧ d.lki = c.lki ∧ d.chc = c.chc ∧
  d.sce.resumes = c.sce.resumes ∧ d.tcu.settings = c.tcu.settings ∧ d.tcu.grids = c.tcu.grids ∧
  d.tcu.hubEntries = c.tcu.hubEntries ∧ d.tcu.stationEntries = c.tcu.stationEntries ∧ d.tcu.reload = c.tcu.reload ∧
  d.tcu.waiting = c.tcu.waiting ∧ d.tcu.evictions = c.tcu.evictions ∧ d.tcu.dropped = c.tcu.dropped ∧
  d.tcu.invalidations = c.tcu.invalidations ∧ d.ord.expected = c.ord.expected ∧ d.ord.timer = c.ord.timer ∧
  d.ord.taken = c.ord.taken ∧ d.ord.duplicates = c.ord.duplicates ∧ d.ord.torn = c.ord.torn ∧
  d.dlv.image = c.dlv.image ∧ d.dlv.assembly = c.dlv.assembly ∧ d.dlv.outgoing = c.dlv.outgoing ∧
  d.dlv.selector = c.dlv.selector ∧ d.dlv.progress = c.dlv.progress ∧ d.dlv.updateCount = c.dlv.updateCount ∧
  d.dlv.epochCount = c.dlv.epochCount ∧ d.dlv.epochShown = c.dlv.epochShown ∧ d.freeUses = c.freeUses

/-- The frame of `scanAction`. -/
@[simp] theorem scanAction_frame (task : EngineTask) (bank : Nat) (sc : Scan) (c : Chip) :
    Kept.byScanAction c (scanAction task bank sc c).1 := by
  and_intros <;> (unfold scanAction; (repeat' split) <;> simp)

/-- What `engineAction` keeps. -/
abbrev Kept.byEngineAction (c d : Chip) : Prop :=
  d.rgp.bindResult = c.rgp.bindResult ∧ d.rgp.haltSource = c.rgp.haltSource ∧ d.rgp.autoStrap = c.rgp.autoStrap ∧
  d.rgp.dirselStrap = c.rgp.dirselStrap ∧ d.rgp.lastCode = c.rgp.lastCode ∧ d.rgp.acceptance = c.rgp.acceptance ∧
  d.rgp.dirbase = c.rgp.dirbase ∧ d.rgp.mask = c.rgp.mask ∧ d.rgp.resetHeld = c.rgp.resetHeld ∧
  d.rgp.binding = c.rgp.binding ∧ d.rgp.layout = c.rgp.layout ∧ d.mpt.windows = c.mpt.windows ∧
  d.mpt.onBus = c.mpt.onBus ∧ d.mpt.lastGrant = c.mpt.lastGrant ∧ d.lki = c.lki ∧ d.chc = c.chc ∧
  d.tcu.settings = c.tcu.settings ∧ d.tcu.grids = c.tcu.grids ∧ d.tcu.hubEntries = c.tcu.hubEntries ∧
  d.tcu.stationEntries = c.tcu.stationEntries ∧ d.tcu.reload = c.tcu.reload ∧ d.tcu.waiting = c.tcu.waiting ∧
  d.tcu.evictions = c.tcu.evictions ∧ d.tcu.dropped = c.tcu.dropped ∧ d.tcu.invalidations = c.tcu.invalidations ∧
  d.ord.expected = c.ord.expected ∧ d.ord.timer = c.ord.timer ∧ d.ord.taken = c.ord.taken ∧
  d.ord.duplicates = c.ord.duplicates ∧ d.ord.torn = c.ord.torn ∧ d.dlv.image = c.dlv.image ∧
  d.dlv.assembly = c.dlv.assembly ∧ d.dlv.outgoing = c.dlv.outgoing ∧ d.dlv.selector = c.dlv.selector ∧
  d.dlv.progress = c.dlv.progress ∧ d.dlv.updateCount = c.dlv.updateCount ∧ d.dlv.epochCount = c.dlv.epochCount ∧
  d.dlv.epochShown = c.dlv.epochShown ∧ d.freeUses = c.freeUses

/-- The frame of `engineAction`. -/
@[simp] theorem engineAction_frame (task : EngineTask) (c : Chip) :
    Kept.byEngineAction c (engineAction task c).1 := by
  and_intros <;> (unfold engineAction; (repeat' split) <;> simp)

/-- The frame of `runEngine`. -/
@[simp] theorem runEngine_frame (x0 : Nat) (x1 : EngineTask) (c : Chip) :
    Kept.byEngineAction c (runEngine x0 x1 c) := by
  induction x0 generalizing x1 c with
  | zero => and_intros <;> simp [runEngine]
  | succ n ih =>
    unfold runEngine
    and_intros <;>
      ((repeat' split) <;> (try (rename_i h; obtain ⟨rfl, -⟩ := Prod.ext_iff.1 h)) <;>
        simp [ih])

/-- The frame of `engine`. -/
@[simp] theorem engine_frame (task : EngineTask) (c : Chip) : Kept.byEngineAction c (engine task c) := by
  and_intros <;> simp [engine]

/-- The frame of `offerRipe`. -/
@[simp] theorem offerRipe_frame (c : Chip) : Kept.byEngineAction c (offerRipe c) := by
  and_intros <;> (unfold offerRipe; (repeat' split) <;> simp)

/-- The frame of `endPair`. -/
@[simp] theorem endPair_frame (bank : Nat) (sc : Scan) (row : List (BitVec 16)) (t0 sum wsum contributors : Nat) (c : Chip) :
    Kept.byOnScan c (endPair bank sc row t0 sum wsum contributors c).1 := by
  and_intros <;> (unfold endPair; (try dsimp only); (repeat' split) <;> simp)

/-- The frame of `stackRead`. -/
@[simp] theorem stackRead_frame (bank : Nat) (sc : Scan) (row : List (BitVec 16)) (t0 ch sum wsum n : Nat) (c : Chip) :
    Kept.byOnScan c (stackRead bank sc row t0 ch sum wsum n c).1 := by
  and_intros <;> (unfold stackRead; (try dsimp only); (repeat' split) <;> simp)

/-- The frame of `listRead`. -/
@[simp] theorem listRead_frame (bank : Nat) (sc : Scan) (o : ScanOutcome) (row : List (BitVec 16)) (ch : Nat) (found : List Arrival) (c : Chip) :
    Kept.byOnScan c (listRead bank sc o row ch found c).1 := by
  and_intros <;> simp [listRead]

/-- The frame of `cfAnswered`. -/
@[simp] theorem cfAnswered_frame (c : Chip) : Kept.byOnScan c (cfAnswered c).1 := by
  and_intros <;> (unfold cfAnswered; (repeat' split) <;> simp)

/-- The frame of `rowArrived`. -/
@[simp] theorem rowArrived_frame (row : List (BitVec 16)) (c : Chip) : Kept.byEngineAction c (rowArrived row c) := by
  and_intros <;> (unfold rowArrived; (repeat' split) <;> simp)

/-- The frame of `faultRunning`. -/
@[simp] theorem faultRunning_frame (c : Chip) : Kept.byOnScan c (faultRunning c) := by
  and_intros <;> (unfold faultRunning; (repeat' split) <;> simp)

/-- What `rowFetchAnswered` keeps. -/
abbrev Kept.byRowFetchAnswered (c d : Chip) : Prop :=
  d.rgp.bindResult = c.rgp.bindResult ∧ d.rgp.haltSource = c.rgp.haltSource ∧ d.rgp.autoStrap = c.rgp.autoStrap ∧
  d.rgp.dirselStrap = c.rgp.dirselStrap ∧ d.rgp.lastCode = c.rgp.lastCode ∧ d.rgp.acceptance = c.rgp.acceptance ∧
  d.rgp.dirbase = c.rgp.dirbase ∧ d.rgp.mask = c.rgp.mask ∧ d.rgp.resetHeld = c.rgp.resetHeld ∧
  d.rgp.binding = c.rgp.binding ∧ d.rgp.layout = c.rgp.layout ∧ d.mpt.windows = c.mpt.windows ∧
  d.mpt.onBus = c.mpt.onBus ∧ d.mpt.lastGrant = c.mpt.lastGrant ∧ d.lki = c.lki ∧ d.chc = c.chc ∧
  d.tcu.settings = c.tcu.settings ∧ d.tcu.grids = c.tcu.grids ∧ d.tcu.hubEntries = c.tcu.hubEntries ∧
  d.tcu.stationEntries = c.tcu.stationEntries ∧ d.tcu.reload = c.tcu.reload ∧ d.tcu.waiting = c.tcu.waiting ∧
  d.tcu.dropped = c.tcu.dropped ∧ d.tcu.invalidations = c.tcu.invalidations ∧ d.ord.expected = c.ord.expected ∧
  d.ord.timer = c.ord.timer ∧ d.ord.taken = c.ord.taken ∧ d.ord.duplicates = c.ord.duplicates ∧
  d.ord.torn = c.ord.torn ∧ d.dlv.image = c.dlv.image ∧ d.dlv.assembly = c.dlv.assembly ∧
  d.dlv.outgoing = c.dlv.outgoing ∧ d.dlv.selector = c.dlv.selector ∧ d.dlv.progress = c.dlv.progress ∧
  d.dlv.updateCount = c.dlv.updateCount ∧ d.dlv.epochCount = c.dlv.epochCount ∧ d.dlv.epochShown = c.dlv.epochShown ∧
  d.freeUses = c.freeUses

/-- The frame of `rowFetchAnswered`. -/
@[simp] theorem rowFetchAnswered_frame (_a : Access) (result : Option (List Byte)) (c : Chip) :
    Kept.byRowFetchAnswered c (rowFetchAnswered _a result c) := by
  and_intros <;> (unfold rowFetchAnswered; (repeat' split) <;> simp)

/-- The frame of `refineAnswered`. -/
@[simp] theorem refineAnswered_frame (_a : Access) (result : Option (List Byte)) (c : Chip) :
    Kept.byEngineAction c (refineAnswered _a result c) := by
  and_intros <;> (unfold refineAnswered; (repeat' split) <;> simp)

end Sys2Proof.Machine
end

