-- ==== Sys2Proof/Laws/CoincidenceFrame.lean ====
section
/-! SUPPORT. The frames of the operations of CCU: for each, the parts of the state it keeps. A relation
`Kept.by…` names the blocks and fields kept, and is cited for every operation that keeps exactly those. -/

namespace Sys2Proof.Machine

/-- What `enqueue` keeps. -/
abbrev Kept.byEnqueue (c d : Chip) : Prop :=
  d.rgp = c.rgp ∧ d.mpt = c.mpt ∧ d.lki = c.lki ∧ d.chc = c.chc ∧
  d.ccu.prevCount = c.ccu.prevCount ∧ d.ccu.target = c.ccu.target ∧ d.ccu.declarations = c.ccu.declarations ∧
  d.ccu.merges = c.ccu.merges ∧ d.ccu.lost = c.ccu.lost ∧ d.ccu.displaced = c.ccu.displaced ∧ d.sce = c.sce ∧
  d.tcu = c.tcu ∧ d.ord = c.ord ∧ d.dlv = c.dlv ∧ d.freeUses = c.freeUses ∧ d.active = c.active

/-- The frame of `enqueue`. -/
@[simp] theorem enqueue_frame (r : Request) (c : Chip) : Kept.byEnqueue c (enqueue r c) := by
  and_intros
  all_goals first
    | (simp [enqueue]; done)
    | (simp [enqueue, Chip.active])

/-- What `finishWaiting` keeps. -/
abbrev Kept.byFinishWaiting (c d : Chip) : Prop :=
  d.rgp.partState = c.rgp.partState ∧ d.rgp.bindResult = c.rgp.bindResult ∧ d.rgp.haltSource = c.rgp.haltSource ∧
  d.rgp.autoStrap = c.rgp.autoStrap ∧ d.rgp.dirselStrap = c.rgp.dirselStrap ∧ d.rgp.lastCode = c.rgp.lastCode ∧
  d.rgp.acceptance = c.rgp.acceptance ∧ d.rgp.dirbase = c.rgp.dirbase ∧ d.rgp.mask = c.rgp.mask ∧
  d.rgp.resetHeld = c.rgp.resetHeld ∧ d.rgp.binding = c.rgp.binding ∧ d.rgp.layout = c.rgp.layout ∧
  d.mpt.windows = c.mpt.windows ∧ d.mpt.records = c.mpt.records ∧ d.mpt.overflow = c.mpt.overflow ∧
  d.mpt.onBus = c.mpt.onBus ∧ d.mpt.lastGrant = c.mpt.lastGrant ∧ d.lki = c.lki ∧ d.chc = c.chc ∧ d.sce = c.sce ∧
  d.tcu = c.tcu ∧ d.ord.expected = c.ord.expected ∧ d.ord.drainPending = c.ord.drainPending ∧ d.ord.poll = c.ord.poll ∧
  d.ord.repeatMark = c.ord.repeatMark ∧ d.ord.timer = c.ord.timer ∧ d.ord.polls = c.ord.polls ∧
  d.ord.taken = c.ord.taken ∧ d.ord.duplicates = c.ord.duplicates ∧ d.ord.torn = c.ord.torn ∧
  d.dlv.image = c.dlv.image ∧ d.dlv.assembly = c.dlv.assembly ∧ d.dlv.outgoing = c.dlv.outgoing ∧
  d.dlv.selector = c.dlv.selector ∧ d.dlv.progress = c.dlv.progress ∧ d.dlv.updateCount = c.dlv.updateCount ∧
  d.dlv.epochCount = c.dlv.epochCount ∧ d.dlv.epochShown = c.dlv.epochShown ∧ d.dlv.faultUnshown = c.dlv.faultUnshown ∧
  d.freeUses = c.freeUses ∧ d.active = c.active

/-- The frame of `finishWaiting`. -/
@[simp] theorem finishWaiting_frame (o : ScanOutcome) (r : Request) (c : Chip) :
    Kept.byFinishWaiting c (finishWaiting o r c) := by
  and_intros <;> simp [finishWaiting]

/-- The frame of `finishWaitingAll`. -/
@[simp] theorem finishWaitingAll_frame (o : ScanOutcome) (x0 : List Request) (c : Chip) :
    Kept.byFinishWaiting c (finishWaitingAll o x0 c) := by
  induction x0 generalizing o c with
  | nil => and_intros <;> simp [finishWaitingAll]
  | cons x l ih => and_intros <;> simp [finishWaitingAll, ih]

/-- What `mergeCrossing` keeps. -/
abbrev Kept.byMergeCrossing (c d : Chip) : Prop :=
  d.rgp = c.rgp ∧ d.mpt = c.mpt ∧ d.lki = c.lki ∧ d.chc = c.chc ∧
  d.ccu.prevCount = c.ccu.prevCount ∧ d.ccu.target = c.ccu.target ∧ d.ccu.requestCounter = c.ccu.requestCounter ∧
  d.ccu.declarations = c.ccu.declarations ∧ d.ccu.lost = c.ccu.lost ∧ d.ccu.displaced = c.ccu.displaced ∧
  d.sce.parks = c.sce.parks ∧ d.sce.resumes = c.sce.resumes ∧ d.sce.stage2Runs = c.sce.stage2Runs ∧ d.tcu = c.tcu ∧
  d.ord = c.ord ∧ d.dlv = c.dlv ∧ d.freeUses = c.freeUses ∧ d.active = c.active

/-- The frame of `mergeCrossing`. -/
@[simp] theorem mergeCrossing_frame (g : CollapseTarget) (v level : Nat) (c : Chip) :
    Kept.byMergeCrossing c (mergeCrossing g v level c) := by
  and_intros
  all_goals first
    | (simp [mergeCrossing]; done)
    | (simp [mergeCrossing, Chip.active])

/-- The frame of `declare`. -/
@[simp] theorem declare_frame (s : Settings) (t v level : Nat) (c : Chip) :
    Kept.byEngineAction c (declare s t v level c) := by
  and_intros <;> simp [declare]

/-- The frame of `declareFull`. -/
@[simp] theorem declareFull_frame (s : Settings) (t v level : Nat) (c : Chip) :
    Kept.byEngineAction c (declareFull s t v level c) := by
  and_intros <;> (unfold declareFull; (repeat' split) <;> simp)

/-- The frame of `declareCrossing`. -/
@[simp] theorem declareCrossing_frame (s : Settings) (t v level : Nat) (c : Chip) :
    Kept.byEngineAction c (declareCrossing s t v level c) := by
  and_intros <;> (unfold declareCrossing; (repeat' split) <;> simp)

/-- The frame of `crossing`. -/
@[simp] theorem crossing_frame (s : Settings) (t v : Nat) (c : Chip) : Kept.byEngineAction c (crossing s t v c) := by
  and_intros <;> (unfold crossing; (repeat' split) <;> simp)

/-- The frame of `takeTickNotice`. -/
@[simp] theorem takeTickNotice_frame (n : TickNotice) (c : Chip) : Kept.byEngineAction c (takeTickNotice n c) := by
  and_intros <;> (unfold takeTickNotice; (try dsimp only); (repeat' split) <;> simp)

/-- The frame of `takeScanOrder`. -/
@[simp] theorem takeScanOrder_frame (slot : Nat) (seq : BitVec 8) (o : ScanOrder) (c : Chip) :
    Kept.byEnqueue c (takeScanOrder slot seq o c).1 := by
  and_intros <;> (unfold takeScanOrder; (try dsimp only); (repeat' split) <;> simp)

end Sys2Proof.Machine
end

