-- ==== Sys2Proof/Laws/ConditioningFrame.lean ====
section
/-! SUPPORT. The frames of the operations of CHC: for each, the parts of the state it keeps. A relation
`Kept.by…` names the blocks and fields kept, and is cited for every operation that keeps exactly those. -/

namespace Sys2Proof.Machine

/-- What `onChcCounters` keeps. -/
abbrev Kept.byOnChcCounters (c d : Chip) : Prop :=
  d.rgp = c.rgp ∧ d.mpt = c.mpt ∧ d.lki = c.lki ∧
  d.chc.channels = c.chc.channels ∧ d.ccu = c.ccu ∧ d.sce = c.sce ∧ d.tcu = c.tcu ∧ d.ord = c.ord ∧ d.dlv = c.dlv ∧
  d.freeUses = c.freeUses ∧ d.active = c.active

/-- The frame of `onChcCounters`. -/
@[simp] theorem onChcCounters_frame (f : ChcCounters → ChcCounters) (c : Chip) :
    Kept.byOnChcCounters c (onChcCounters f c) := by
  and_intros
  all_goals first
    | (simp [onChcCounters]; done)
    | (simp [onChcCounters, Chip.active])

/-- What `formPick` keeps. -/
abbrev Kept.byFormPick (c d : Chip) : Prop :=
  d.rgp.partState = c.rgp.partState ∧ d.rgp.bindResult = c.rgp.bindResult ∧ d.rgp.haltSource = c.rgp.haltSource ∧
  d.rgp.autoStrap = c.rgp.autoStrap ∧ d.rgp.dirselStrap = c.rgp.dirselStrap ∧ d.rgp.lastCode = c.rgp.lastCode ∧
  d.rgp.acceptance = c.rgp.acceptance ∧ d.rgp.dirbase = c.rgp.dirbase ∧ d.rgp.mask = c.rgp.mask ∧
  d.rgp.resetHeld = c.rgp.resetHeld ∧ d.rgp.binding = c.rgp.binding ∧ d.rgp.layout = c.rgp.layout ∧
  d.mpt.windows = c.mpt.windows ∧ d.mpt.records = c.mpt.records ∧ d.mpt.overflow = c.mpt.overflow ∧
  d.mpt.onBus = c.mpt.onBus ∧ d.mpt.lastGrant = c.mpt.lastGrant ∧ d.lki = c.lki ∧ d.chc.channels = c.chc.channels ∧
  d.ccu = c.ccu ∧ d.sce = c.sce ∧ d.tcu = c.tcu ∧ d.ord = c.ord ∧ d.dlv.image = c.dlv.image ∧
  d.dlv.pendingEvents = c.dlv.pendingEvents ∧ d.dlv.assembly = c.dlv.assembly ∧ d.dlv.outgoing = c.dlv.outgoing ∧
  d.dlv.selector = c.dlv.selector ∧ d.dlv.progress = c.dlv.progress ∧ d.dlv.progressAsked = c.dlv.progressAsked ∧
  d.dlv.rewrite = c.dlv.rewrite ∧ d.dlv.updateCount = c.dlv.updateCount ∧ d.dlv.epochCount = c.dlv.epochCount ∧
  d.dlv.epochShown = c.dlv.epochShown ∧ d.dlv.faultUnshown = c.dlv.faultUnshown ∧ d.freeUses = c.freeUses ∧
  d.active = c.active

/-- The frame of `formPick`. -/
@[simp] theorem formPick_frame (f : FormedPick) (c : Chip) : Kept.byFormPick c (formPick f c) := by
  and_intros <;> (unfold formPick; (try dsimp only); (repeat' split) <;> simp)

/-- The frame of `formPicks`. -/
@[simp] theorem formPicks_frame (x0 : List FormedPick) (c : Chip) : Kept.byFormPick c (formPicks x0 c) := by
  induction x0 generalizing c with
  | nil => and_intros <;> simp [formPicks]
  | cons x l ih => and_intros <;> simp [formPicks, ih]

/-- What `conditionTick` keeps. -/
abbrev Kept.byConditionTick (c d : Chip) : Prop :=
  d.rgp.partState = c.rgp.partState ∧ d.rgp.bindResult = c.rgp.bindResult ∧ d.rgp.haltSource = c.rgp.haltSource ∧
  d.rgp.autoStrap = c.rgp.autoStrap ∧ d.rgp.dirselStrap = c.rgp.dirselStrap ∧ d.rgp.lastCode = c.rgp.lastCode ∧
  d.rgp.acceptance = c.rgp.acceptance ∧ d.rgp.dirbase = c.rgp.dirbase ∧ d.rgp.mask = c.rgp.mask ∧
  d.rgp.resetHeld = c.rgp.resetHeld ∧ d.rgp.binding = c.rgp.binding ∧ d.rgp.layout = c.rgp.layout ∧
  d.mpt.windows = c.mpt.windows ∧ d.mpt.records = c.mpt.records ∧ d.mpt.overflow = c.mpt.overflow ∧
  d.mpt.onBus = c.mpt.onBus ∧ d.mpt.lastGrant = c.mpt.lastGrant ∧ d.lki = c.lki ∧ d.ccu = c.ccu ∧ d.sce = c.sce ∧
  d.tcu = c.tcu ∧ d.ord = c.ord ∧ d.dlv.image = c.dlv.image ∧ d.dlv.pendingEvents = c.dlv.pendingEvents ∧
  d.dlv.assembly = c.dlv.assembly ∧ d.dlv.outgoing = c.dlv.outgoing ∧ d.dlv.selector = c.dlv.selector ∧
  d.dlv.progress = c.dlv.progress ∧ d.dlv.progressAsked = c.dlv.progressAsked ∧ d.dlv.rewrite = c.dlv.rewrite ∧
  d.dlv.updateCount = c.dlv.updateCount ∧ d.dlv.epochCount = c.dlv.epochCount ∧ d.dlv.epochShown = c.dlv.epochShown ∧
  d.dlv.faultUnshown = c.dlv.faultUnshown ∧ d.freeUses = c.freeUses ∧ d.active = c.active

/-- The frame of `conditionTick`. -/
@[simp] theorem conditionTick_frame (t : Nat) (samples : List (Option (BitVec 24))) (c : Chip) :
    Kept.byConditionTick c (conditionTick t samples c) := by
  and_intros
  all_goals first
    | (simp [conditionTick]; done)
    | (simp [conditionTick, Chip.active])

/-- The frame of `handTickNotice`. -/
@[simp] theorem handTickNotice_frame (t : Nat) (c : Chip) : Kept.byEngineAction c (handTickNotice t c) := by
  and_intros <;> simp [handTickNotice]

/-- What `onChannel` keeps. -/
abbrev Kept.byOnChannel (c d : Chip) : Prop :=
  d.rgp = c.rgp ∧ d.mpt = c.mpt ∧ d.lki = c.lki ∧
  d.chc.counters = c.chc.counters ∧ d.ccu = c.ccu ∧ d.sce = c.sce ∧ d.tcu = c.tcu ∧ d.ord = c.ord ∧ d.dlv = c.dlv ∧
  d.freeUses = c.freeUses ∧ d.active = c.active

/-- The frame of `onChannel`. -/
@[simp] theorem onChannel_frame (n : Nat) (f : Channel → Channel) (c : Chip) :
    Kept.byOnChannel c (onChannel n f c) := by
  and_intros
  all_goals first
    | (simp [onChannel]; done)
    | (simp [onChannel, Chip.active])

/-- The frame of `reloadChannel`. -/
@[simp] theorem reloadChannel_frame (n : Nat) (e : StationEntry) (c : Chip) :
    Kept.byConditionTick c (reloadChannel n e c) := by
  and_intros <;> (unfold reloadChannel; (try dsimp only); (repeat' split) <;> simp)

end Sys2Proof.Machine
end

