-- ==== Sys2Proof/Laws/LinksFrame.lean ====
section
/-! SUPPORT. The frames of the operations of LKI: for each, the parts of the state it keeps. A relation
`Kept.by…` names the blocks and fields kept, and is cited for every operation that keeps exactly those. -/

namespace Sys2Proof.Machine

/-- What `settleTick` keeps. -/
abbrev Kept.bySettleTick (c d : Chip) : Prop :=
  d.rgp.bindResult = c.rgp.bindResult ∧ d.rgp.haltSource = c.rgp.haltSource ∧ d.rgp.autoStrap = c.rgp.autoStrap ∧
  d.rgp.dirselStrap = c.rgp.dirselStrap ∧ d.rgp.lastCode = c.rgp.lastCode ∧ d.rgp.acceptance = c.rgp.acceptance ∧
  d.rgp.dirbase = c.rgp.dirbase ∧ d.rgp.mask = c.rgp.mask ∧ d.rgp.resetHeld = c.rgp.resetHeld ∧
  d.rgp.binding = c.rgp.binding ∧ d.rgp.layout = c.rgp.layout ∧ d.mpt.windows = c.mpt.windows ∧
  d.mpt.onBus = c.mpt.onBus ∧ d.mpt.lastGrant = c.mpt.lastGrant ∧ d.lki = c.lki ∧ d.tcu.settings = c.tcu.settings ∧
  d.tcu.grids = c.tcu.grids ∧ d.tcu.hubEntries = c.tcu.hubEntries ∧ d.tcu.stationEntries = c.tcu.stationEntries ∧
  d.tcu.reload = c.tcu.reload ∧ d.tcu.waiting = c.tcu.waiting ∧ d.tcu.evictions = c.tcu.evictions ∧
  d.tcu.dropped = c.tcu.dropped ∧ d.tcu.invalidations = c.tcu.invalidations ∧ d.ord.expected = c.ord.expected ∧
  d.ord.timer = c.ord.timer ∧ d.ord.taken = c.ord.taken ∧ d.ord.duplicates = c.ord.duplicates ∧
  d.ord.torn = c.ord.torn ∧ d.dlv.image = c.dlv.image ∧ d.dlv.selector = c.dlv.selector ∧
  d.dlv.progress = c.dlv.progress ∧ d.dlv.updateCount = c.dlv.updateCount ∧ d.dlv.epochShown = c.dlv.epochShown

/-- The frame of `settleTick`. -/
@[simp] theorem settleTick_frame (t : Nat) (c : Chip) : Kept.bySettleTick c (settleTick t c) := by
  and_intros <;> simp [settleTick]

/-- The frame of `settleTicks`. -/
@[simp] theorem settleTicks_frame (t : Nat) (x0 : Nat) (c : Chip) : Kept.bySettleTick c (settleTicks t x0 c) := by
  induction x0 generalizing t c with
  | zero => and_intros <;> simp [settleTicks]
  | succ n ih => and_intros <;> simp [settleTicks, ih]

@[simp] theorem Hub.release_seeking (h1 : Nat) (h : Hub) (hs : h.state = .seeking) : h.release h1 = h := if_pos hs

/-- A release changes the buffer alone, and only drops frames wholly below H from it. -/
theorem Hub.release_spec (h1 : Nat) (h : Hub) :
    h.release h1 = { h with buffer := (h.release h1).buffer } ∧ (h.release h1).buffer.Sublist h.buffer ∧
      ∀ f ∈ h.buffer, f.below h1 = false → f ∈ (h.release h1).buffer := by
  unfold Hub.release
  split
  · exact ⟨rfl, List.Sublist.refl _, fun _ hf _ => hf⟩
  · exact ⟨rfl, List.filter_sublist, fun f hf hb => List.mem_filter.2 ⟨hf, by simp [hb]⟩⟩

@[simp] theorem Hub.release_state (h1 : Nat) (h : Hub) : (h.release h1).state = h.state := by
  unfold Hub.release; split <;> rfl
@[simp] theorem Hub.release_nextTick (h1 : Nat) (h : Hub) : (h.release h1).nextTick = h.nextTick := by
  unfold Hub.release; split <;> rfl
@[simp] theorem Hub.release_counters (h1 : Nat) (h : Hub) : (h.release h1).counters = h.counters := by
  unfold Hub.release; split <;> rfl
@[simp] theorem releaseFrames_horizon (h1 : Nat) (c : Chip) : (releaseFrames h1 c).lki.horizon = some h1 := rfl
@[simp] theorem releaseFrames_hubs (h1 : Nat) (c : Chip) :
    (releaseFrames h1 c).lki.hubs = c.lki.hubs.map (Hub.release h1) := rfl

/-- What `releaseFrames` keeps. -/
abbrev Kept.byReleaseFrames (c d : Chip) : Prop :=
  d.rgp = c.rgp ∧ d.mpt = c.mpt ∧ d.chc = c.chc ∧ d.ccu = c.ccu ∧
  d.sce = c.sce ∧ d.tcu = c.tcu ∧ d.ord = c.ord ∧ d.dlv = c.dlv ∧ d.freeUses = c.freeUses ∧ d.active = c.active

/-- The frame of `releaseFrames`. -/
@[simp] theorem releaseFrames_frame (h1 : Nat) (c : Chip) : Kept.byReleaseFrames c (releaseFrames h1 c) := by
  and_intros
  all_goals first
    | (simp [releaseFrames]; done)
    | (simp [releaseFrames, Chip.active])

/-- The frame of `askForEpoch`. -/
@[simp] theorem askForEpoch_frame (h0 h1 : Nat) (c : Chip) : Kept.byAskProgress c (askForEpoch h0 h1 c) := by
  and_intros <;> (unfold askForEpoch; (repeat' split) <;> simp)

/-- What `settle` keeps. -/
abbrev Kept.bySettle (c d : Chip) : Prop :=
  d.rgp.bindResult = c.rgp.bindResult ∧ d.rgp.haltSource = c.rgp.haltSource ∧ d.rgp.autoStrap = c.rgp.autoStrap ∧
  d.rgp.dirselStrap = c.rgp.dirselStrap ∧ d.rgp.lastCode = c.rgp.lastCode ∧ d.rgp.acceptance = c.rgp.acceptance ∧
  d.rgp.dirbase = c.rgp.dirbase ∧ d.rgp.mask = c.rgp.mask ∧ d.rgp.resetHeld = c.rgp.resetHeld ∧
  d.rgp.binding = c.rgp.binding ∧ d.rgp.layout = c.rgp.layout ∧ d.mpt.windows = c.mpt.windows ∧
  d.mpt.onBus = c.mpt.onBus ∧ d.mpt.lastGrant = c.mpt.lastGrant ∧ d.tcu.settings = c.tcu.settings ∧
  d.tcu.grids = c.tcu.grids ∧ d.tcu.hubEntries = c.tcu.hubEntries ∧ d.tcu.stationEntries = c.tcu.stationEntries ∧
  d.tcu.reload = c.tcu.reload ∧ d.tcu.waiting = c.tcu.waiting ∧ d.tcu.evictions = c.tcu.evictions ∧
  d.tcu.dropped = c.tcu.dropped ∧ d.tcu.invalidations = c.tcu.invalidations ∧ d.ord.expected = c.ord.expected ∧
  d.ord.timer = c.ord.timer ∧ d.ord.taken = c.ord.taken ∧ d.ord.duplicates = c.ord.duplicates ∧
  d.ord.torn = c.ord.torn ∧ d.dlv.image = c.dlv.image ∧ d.dlv.selector = c.dlv.selector ∧
  d.dlv.progress = c.dlv.progress ∧ d.dlv.updateCount = c.dlv.updateCount ∧ d.dlv.epochShown = c.dlv.epochShown

/-- The frame of `settle`. -/
@[simp] theorem settle_frame (h0 h1 : Nat) (c : Chip) : Kept.bySettle c (settle h0 h1 c) := by
  and_intros <;> simp [settle]

/-- The frame of `updateHorizon`. -/
@[simp] theorem updateHorizon_frame (c : Chip) : Kept.bySettle c (updateHorizon c) := by
  and_intros <;> (unfold updateHorizon; (repeat' split) <;> simp)

/-- The frame of `stallCheck`. -/
@[simp] theorem stallCheck_frame (c : Chip) : Kept.bySettle c (stallCheck c) := by
  and_intros <;> simp [stallCheck]

/-- What `noteLinkChange` keeps. -/
abbrev Kept.byNoteLinkChange (c d : Chip) : Prop :=
  d.rgp.partState = c.rgp.partState ∧
  d.rgp.bindResult = c.rgp.bindResult ∧ d.rgp.haltSource = c.rgp.haltSource ∧ d.rgp.autoStrap = c.rgp.autoStrap ∧
  d.rgp.dirselStrap = c.rgp.dirselStrap ∧ d.rgp.lastCode = c.rgp.lastCode ∧ d.rgp.acceptance = c.rgp.acceptance ∧
  d.rgp.dirbase = c.rgp.dirbase ∧ d.rgp.mask = c.rgp.mask ∧ d.rgp.resetHeld = c.rgp.resetHeld ∧
  d.rgp.binding = c.rgp.binding ∧ d.rgp.layout = c.rgp.layout ∧ d.mpt = c.mpt ∧ d.lki = c.lki ∧ d.chc = c.chc ∧
  d.ccu = c.ccu ∧ d.sce = c.sce ∧ d.tcu = c.tcu ∧ d.ord = c.ord ∧ d.dlv.image = c.dlv.image ∧ d.dlv.pick = c.dlv.pick ∧
  d.dlv.event = c.dlv.event ∧ d.dlv.pendingEvents = c.dlv.pendingEvents ∧ d.dlv.returnRead = c.dlv.returnRead ∧
  d.dlv.reread = c.dlv.reread ∧ d.dlv.assembly = c.dlv.assembly ∧ d.dlv.outgoing = c.dlv.outgoing ∧
  d.dlv.selector = c.dlv.selector ∧ d.dlv.progress = c.dlv.progress ∧ d.dlv.updateCount = c.dlv.updateCount ∧
  d.dlv.epochCount = c.dlv.epochCount ∧ d.dlv.epochShown = c.dlv.epochShown ∧
  d.dlv.faultUnshown = c.dlv.faultUnshown ∧ d.dlv.counters = c.dlv.counters ∧ d.freeUses = c.freeUses ∧
  d.active = c.active

/-- The frame of `noteLinkChange`. -/
@[simp] theorem noteLinkChange_frame (before : List HubState) (c : Chip) :
    Kept.byNoteLinkChange c (noteLinkChange before c) := by
  and_intros <;> (unfold noteLinkChange; (repeat' split) <;> simp)

/-- What `onHub` keeps. -/
abbrev Kept.byOnHub (c d : Chip) : Prop :=
  d.rgp = c.rgp ∧ d.mpt = c.mpt ∧ d.lki.horizon = c.lki.horizon ∧
  d.chc = c.chc ∧ d.ccu = c.ccu ∧ d.sce = c.sce ∧ d.tcu = c.tcu ∧ d.ord = c.ord ∧ d.dlv = c.dlv ∧
  d.freeUses = c.freeUses ∧ d.active = c.active

/-- The frame of `onHub`. -/
@[simp] theorem onHub_frame (n : Nat) (f : Hub → Hub) (c : Chip) : Kept.byOnHub c (onHub n f c) := by
  and_intros
  all_goals first
    | (simp [onHub]; done)
    | (simp [onHub, Chip.active])

/-- The frame of `takeGoodFrame`. -/
@[simp] theorem takeGoodFrame_frame (port : Nat) (b : List Byte) (c : Chip) :
    Kept.bySettle c (takeGoodFrame port b c) := by
  and_intros <;> (unfold takeGoodFrame; (try dsimp only); (repeat' split) <;> simp)

/-- The frame of `fallBackHub`. -/
@[simp] theorem fallBackHub_frame (n : Nat) (c : Chip) : Kept.bySettle c (fallBackHub n c) := by
  and_intros <;> simp [fallBackHub]

/-- The frame of `fallBackIfDue`. -/
@[simp] theorem fallBackIfDue_frame (n : Nat) (c : Chip) : Kept.bySettle c (fallBackIfDue n c) := by
  and_intros <;> (unfold fallBackIfDue; (repeat' split) <;> simp)

/-- The frame of `takeFrame`. -/
@[simp] theorem takeFrame_frame (port : Nat) (b : List Byte) (c : Chip) : Kept.bySettle c (takeFrame port b c) := by
  and_intros <;> (unfold takeFrame; (try dsimp only); (repeat' split) <;> simp)

/-- The frame of `seekHubs`. -/
@[simp] theorem seekHubs_frame (c : Chip) : Kept.byOnHub c (seekHubs c) := by
  and_intros
  all_goals first
    | (simp [seekHubs]; done)
    | (simp [seekHubs, Chip.active])

/-- The frame of `linkEvent`. -/
@[simp] theorem linkEvent_frame (f : Chip → Chip) (c : Chip) :
    Kept.byNoteLinkChange (f c) (linkEvent f c) := noteLinkChange_frame (hubStates c) (f c)

/-- The frame of `burstEnds`. -/
@[simp] theorem burstEnds_frame (port : Nat) (line : List Bool) (c : Chip) :
    Kept.bySettle c (burstEnds port line c) := by
  and_intros <;> (unfold burstEnds; (repeat' split) <;> simp)

end Sys2Proof.Machine
end

