-- ==== Sys2Proof/Laws/ReloadsFrame.lean ====
section
/-! SUPPORT. The frames of the reloads: for each, the parts of the state it keeps. A relation
`Kept.by…` names the blocks and fields kept, and is cited for every operation that keeps exactly those. -/

namespace Sys2Proof.Machine

/-- What `presentStations` keeps. -/
abbrev Kept.byPresentStations (c d : Chip) : Prop :=
  d.rgp.partState = c.rgp.partState ∧ d.rgp.bindResult = c.rgp.bindResult ∧ d.rgp.haltSource = c.rgp.haltSource ∧
  d.rgp.autoStrap = c.rgp.autoStrap ∧ d.rgp.dirselStrap = c.rgp.dirselStrap ∧ d.rgp.lastCode = c.rgp.lastCode ∧
  d.rgp.acceptance = c.rgp.acceptance ∧ d.rgp.dirbase = c.rgp.dirbase ∧ d.rgp.mask = c.rgp.mask ∧
  d.rgp.resetHeld = c.rgp.resetHeld ∧ d.rgp.binding = c.rgp.binding ∧ d.rgp.layout = c.rgp.layout ∧
  d.mpt.windows = c.mpt.windows ∧ d.mpt.records = c.mpt.records ∧ d.mpt.overflow = c.mpt.overflow ∧
  d.mpt.onBus = c.mpt.onBus ∧ d.mpt.lastGrant = c.mpt.lastGrant ∧ d.lki = c.lki ∧ d.ccu = c.ccu ∧ d.sce = c.sce ∧
  d.tcu.settings = c.tcu.settings ∧ d.tcu.grids = c.tcu.grids ∧ d.tcu.hubEntries = c.tcu.hubEntries ∧
  d.tcu.cache = c.tcu.cache ∧ d.tcu.fetch = c.tcu.fetch ∧ d.tcu.reload = c.tcu.reload ∧ d.tcu.waiting = c.tcu.waiting ∧
  d.tcu.drain = c.tcu.drain ∧ d.tcu.hits = c.tcu.hits ∧ d.tcu.misses = c.tcu.misses ∧
  d.tcu.evictions = c.tcu.evictions ∧ d.tcu.dropped = c.tcu.dropped ∧ d.tcu.invalidations = c.tcu.invalidations ∧
  d.ord = c.ord ∧ d.dlv.image = c.dlv.image ∧ d.dlv.pendingEvents = c.dlv.pendingEvents ∧
  d.dlv.assembly = c.dlv.assembly ∧ d.dlv.outgoing = c.dlv.outgoing ∧ d.dlv.selector = c.dlv.selector ∧
  d.dlv.progress = c.dlv.progress ∧ d.dlv.progressAsked = c.dlv.progressAsked ∧ d.dlv.rewrite = c.dlv.rewrite ∧
  d.dlv.updateCount = c.dlv.updateCount ∧ d.dlv.epochCount = c.dlv.epochCount ∧ d.dlv.epochShown = c.dlv.epochShown ∧
  d.dlv.faultUnshown = c.dlv.faultUnshown ∧ d.freeUses = c.freeUses

/-- The frame of `presentStations`. -/
@[simp] theorem presentStations_frame (x0 : Nat) (x1 : List (Option (List Byte))) (c : Chip) :
    Kept.byPresentStations c (presentStations x0 x1 c) := by
  induction x1 generalizing x0 c with
  | nil => and_intros <;> simp [presentStations]
  | cons x l ih => and_intros <;> (cases x <;> simp [presentStations, ih])

/-- What `performStations` keeps. -/
abbrev Kept.byPerformStations (c d : Chip) : Prop :=
  d.rgp.partState = c.rgp.partState ∧ d.rgp.bindResult = c.rgp.bindResult ∧ d.rgp.haltSource = c.rgp.haltSource ∧
  d.rgp.autoStrap = c.rgp.autoStrap ∧ d.rgp.dirselStrap = c.rgp.dirselStrap ∧ d.rgp.lastCode = c.rgp.lastCode ∧
  d.rgp.acceptance = c.rgp.acceptance ∧ d.rgp.dirbase = c.rgp.dirbase ∧ d.rgp.mask = c.rgp.mask ∧
  d.rgp.resetHeld = c.rgp.resetHeld ∧ d.rgp.binding = c.rgp.binding ∧ d.rgp.layout = c.rgp.layout ∧
  d.mpt.windows = c.mpt.windows ∧ d.mpt.records = c.mpt.records ∧ d.mpt.overflow = c.mpt.overflow ∧
  d.mpt.onBus = c.mpt.onBus ∧ d.mpt.lastGrant = c.mpt.lastGrant ∧ d.lki = c.lki ∧ d.ccu = c.ccu ∧
  d.sce.parks = c.sce.parks ∧ d.sce.resumes = c.sce.resumes ∧ d.sce.stage2Runs = c.sce.stage2Runs ∧
  d.tcu.settings = c.tcu.settings ∧ d.tcu.grids = c.tcu.grids ∧ d.tcu.hubEntries = c.tcu.hubEntries ∧
  d.tcu.hits = c.tcu.hits ∧ d.tcu.misses = c.tcu.misses ∧ d.tcu.evictions = c.tcu.evictions ∧
  d.ord.expected = c.ord.expected ∧ d.ord.timer = c.ord.timer ∧ d.ord.taken = c.ord.taken ∧
  d.ord.duplicates = c.ord.duplicates ∧ d.ord.torn = c.ord.torn ∧ d.dlv.image = c.dlv.image ∧
  d.dlv.pendingEvents = c.dlv.pendingEvents ∧ d.dlv.assembly = c.dlv.assembly ∧ d.dlv.outgoing = c.dlv.outgoing ∧
  d.dlv.selector = c.dlv.selector ∧ d.dlv.progress = c.dlv.progress ∧ d.dlv.updateCount = c.dlv.updateCount ∧
  d.dlv.epochCount = c.dlv.epochCount ∧ d.dlv.epochShown = c.dlv.epochShown ∧ d.dlv.faultUnshown = c.dlv.faultUnshown ∧
  d.freeUses = c.freeUses ∧ d.active = c.active

/-- The frame of `performStations`. -/
@[simp] theorem performStations_frame (r : Reload) (c : Chip) : Kept.byPerformStations c (performStations r c) := by
  and_intros
  all_goals first
    | (simp [performStations]; done)
    | (simp [performStations, Chip.active])

/-- The frame of `stationsAnswered`. -/
@[simp] theorem stationsAnswered_frame (_a : Access) (result : Option (List Byte)) (c : Chip) :
    Kept.byPerformStations c (stationsAnswered _a result c) := by
  and_intros <;> (unfold stationsAnswered; (try dsimp only); (repeat' split) <;> simp)

/-- What `adoptHubs` keeps. -/
abbrev Kept.byAdoptHubs (c d : Chip) : Prop :=
  d.rgp.bindResult = c.rgp.bindResult ∧ d.rgp.haltSource = c.rgp.haltSource ∧ d.rgp.autoStrap = c.rgp.autoStrap ∧
  d.rgp.dirselStrap = c.rgp.dirselStrap ∧ d.rgp.lastCode = c.rgp.lastCode ∧ d.rgp.acceptance = c.rgp.acceptance ∧
  d.rgp.dirbase = c.rgp.dirbase ∧ d.rgp.mask = c.rgp.mask ∧ d.rgp.resetHeld = c.rgp.resetHeld ∧
  d.rgp.binding = c.rgp.binding ∧ d.rgp.layout = c.rgp.layout ∧ d.mpt.windows = c.mpt.windows ∧
  d.mpt.onBus = c.mpt.onBus ∧ d.mpt.lastGrant = c.mpt.lastGrant ∧ d.tcu.settings = c.tcu.settings ∧
  d.tcu.grids = c.tcu.grids ∧ d.tcu.stationEntries = c.tcu.stationEntries ∧ d.tcu.reload = c.tcu.reload ∧
  d.tcu.waiting = c.tcu.waiting ∧ d.tcu.evictions = c.tcu.evictions ∧ d.tcu.dropped = c.tcu.dropped ∧
  d.tcu.invalidations = c.tcu.invalidations ∧ d.ord.expected = c.ord.expected ∧ d.ord.timer = c.ord.timer ∧
  d.ord.taken = c.ord.taken ∧ d.ord.duplicates = c.ord.duplicates ∧ d.ord.torn = c.ord.torn ∧
  d.dlv.image = c.dlv.image ∧ d.dlv.selector = c.dlv.selector ∧ d.dlv.progress = c.dlv.progress ∧
  d.dlv.updateCount = c.dlv.updateCount ∧ d.dlv.epochShown = c.dlv.epochShown

/-- The frame of `adoptHubs`. -/
@[simp] theorem adoptHubs_frame (new : List (Option HubEntry)) (c : Chip) : Kept.byAdoptHubs c (adoptHubs new c) := by
  and_intros <;> simp [adoptHubs]

/-- What `adoptSettings` keeps. -/
abbrev Kept.byAdoptSettings (c d : Chip) : Prop :=
  d.rgp.bindResult = c.rgp.bindResult ∧ d.rgp.haltSource = c.rgp.haltSource ∧ d.rgp.autoStrap = c.rgp.autoStrap ∧
  d.rgp.dirselStrap = c.rgp.dirselStrap ∧ d.rgp.lastCode = c.rgp.lastCode ∧ d.rgp.acceptance = c.rgp.acceptance ∧
  d.rgp.dirbase = c.rgp.dirbase ∧ d.rgp.mask = c.rgp.mask ∧ d.rgp.resetHeld = c.rgp.resetHeld ∧
  d.rgp.binding = c.rgp.binding ∧ d.rgp.layout = c.rgp.layout ∧ d.mpt.windows = c.mpt.windows ∧
  d.mpt.onBus = c.mpt.onBus ∧ d.mpt.lastGrant = c.mpt.lastGrant ∧ d.tcu.grids = c.tcu.grids ∧
  d.tcu.hubEntries = c.tcu.hubEntries ∧ d.tcu.stationEntries = c.tcu.stationEntries ∧ d.tcu.reload = c.tcu.reload ∧
  d.tcu.waiting = c.tcu.waiting ∧ d.tcu.evictions = c.tcu.evictions ∧ d.tcu.dropped = c.tcu.dropped ∧
  d.tcu.invalidations = c.tcu.invalidations ∧ d.ord.expected = c.ord.expected ∧ d.ord.timer = c.ord.timer ∧
  d.ord.taken = c.ord.taken ∧ d.ord.duplicates = c.ord.duplicates ∧ d.ord.torn = c.ord.torn ∧
  d.dlv.image = c.dlv.image ∧ d.dlv.selector = c.dlv.selector ∧ d.dlv.progress = c.dlv.progress ∧
  d.dlv.updateCount = c.dlv.updateCount ∧ d.dlv.epochShown = c.dlv.epochShown

/-- The frame of `adoptSettings`. -/
@[simp] theorem adoptSettings_frame (s : Settings) (c : Chip) : Kept.byAdoptSettings c (adoptSettings s c) := by
  and_intros <;> simp [adoptSettings]

/-- What `performHubs` keeps. -/
abbrev Kept.byPerformHubs (c d : Chip) : Prop :=
  d.rgp.bindResult = c.rgp.bindResult ∧ d.rgp.haltSource = c.rgp.haltSource ∧ d.rgp.autoStrap = c.rgp.autoStrap ∧
  d.rgp.dirselStrap = c.rgp.dirselStrap ∧ d.rgp.lastCode = c.rgp.lastCode ∧ d.rgp.acceptance = c.rgp.acceptance ∧
  d.rgp.dirbase = c.rgp.dirbase ∧ d.rgp.mask = c.rgp.mask ∧ d.rgp.resetHeld = c.rgp.resetHeld ∧
  d.rgp.binding = c.rgp.binding ∧ d.rgp.layout = c.rgp.layout ∧ d.mpt.windows = c.mpt.windows ∧
  d.mpt.onBus = c.mpt.onBus ∧ d.mpt.lastGrant = c.mpt.lastGrant ∧ d.tcu.settings = c.tcu.settings ∧
  d.tcu.grids = c.tcu.grids ∧ d.tcu.stationEntries = c.tcu.stationEntries ∧ d.tcu.evictions = c.tcu.evictions ∧
  d.ord.expected = c.ord.expected ∧ d.ord.timer = c.ord.timer ∧ d.ord.taken = c.ord.taken ∧
  d.ord.duplicates = c.ord.duplicates ∧ d.ord.torn = c.ord.torn ∧ d.dlv.image = c.dlv.image ∧
  d.dlv.selector = c.dlv.selector ∧ d.dlv.progress = c.dlv.progress ∧ d.dlv.updateCount = c.dlv.updateCount ∧
  d.dlv.epochShown = c.dlv.epochShown

/-- The frame of `performHubs`. -/
@[simp] theorem performHubs_frame (r : Reload) (c : Chip) : Kept.byPerformHubs c (performHubs r c) := by
  and_intros <;> simp [performHubs]

/-- The frame of `hubsAnswered`. -/
@[simp] theorem hubsAnswered_frame (_a : Access) (result : Option (List Byte)) (c : Chip) :
    Kept.byPerformHubs c (hubsAnswered _a result c) := by
  and_intros <;> (unfold hubsAnswered; (try dsimp only); (repeat' split) <;> simp)

/-- The frame of `applyConfig`. -/
@[simp] theorem applyConfig_frame (result : Option (List Byte)) (c : Chip) :
    Kept.byAdoptSettings c (applyConfig result c).1 := by
  and_intros <;> (unfold applyConfig; (repeat' split) <;> simp)

/-- What `configAnswered` keeps. -/
abbrev Kept.byConfigAnswered (c d : Chip) : Prop :=
  d.rgp.bindResult = c.rgp.bindResult ∧ d.rgp.haltSource = c.rgp.haltSource ∧ d.rgp.autoStrap = c.rgp.autoStrap ∧
  d.rgp.dirselStrap = c.rgp.dirselStrap ∧ d.rgp.lastCode = c.rgp.lastCode ∧ d.rgp.acceptance = c.rgp.acceptance ∧
  d.rgp.dirbase = c.rgp.dirbase ∧ d.rgp.mask = c.rgp.mask ∧ d.rgp.resetHeld = c.rgp.resetHeld ∧
  d.rgp.binding = c.rgp.binding ∧ d.rgp.layout = c.rgp.layout ∧ d.mpt.windows = c.mpt.windows ∧
  d.mpt.onBus = c.mpt.onBus ∧ d.mpt.lastGrant = c.mpt.lastGrant ∧ d.tcu.grids = c.tcu.grids ∧
  d.tcu.hubEntries = c.tcu.hubEntries ∧ d.tcu.stationEntries = c.tcu.stationEntries ∧
  d.tcu.evictions = c.tcu.evictions ∧ d.ord.expected = c.ord.expected ∧ d.ord.timer = c.ord.timer ∧
  d.ord.taken = c.ord.taken ∧ d.ord.duplicates = c.ord.duplicates ∧ d.ord.torn = c.ord.torn ∧
  d.dlv.image = c.dlv.image ∧ d.dlv.selector = c.dlv.selector ∧ d.dlv.progress = c.dlv.progress ∧
  d.dlv.updateCount = c.dlv.updateCount ∧ d.dlv.epochShown = c.dlv.epochShown

/-- The frame of `configAnswered`. -/
@[simp] theorem configAnswered_frame (_a : Access) (result : Option (List Byte)) (c : Chip) :
    Kept.byConfigAnswered c (configAnswered _a result c) := by
  and_intros <;> (unfold configAnswered; (try dsimp only); (repeat' split) <;> simp)

end Sys2Proof.Machine
end

