-- ==== Sys2Proof/Laws/TakeRunFrame.lean ====
section
/-! SUPPORT. The frames of the take run and the orders: for each, the parts of the state it keeps. A relation
`Kept.by…` names the blocks and fields kept, and is cited for every operation that keeps exactly those. -/

namespace Sys2Proof.Machine

/-- The frame of `dispatchScan`. -/
@[simp] theorem dispatchScan_frame (slot : Nat) (seq : BitVec 8) (o : ScanOrder) (c : Chip) :
    Kept.byEngineAction c (dispatchScan slot seq o c) := by
  and_intros <;> (unfold dispatchScan; (repeat' split) <;> (try (rename_i h; obtain ⟨rfl, -⟩ := Prod.ext_iff.1 h)) <;> simp)

/-- The frame of `selectIfIdle`. -/
@[simp] theorem selectIfIdle_frame (c : Chip) : Kept.byEngineAction c (selectIfIdle c) := by
  and_intros <;> (unfold selectIfIdle; (repeat' split) <;> simp)

/-- The frame of `cancelInService`. -/
@[simp] theorem cancelInService_frame (slot : Nat) (seq : BitVec 8) (number bank : Nat) (sc : Scan) (c : Chip) :
    Kept.byEngineAction c (cancelInService slot seq number bank sc c) := by
  and_intros <;> (unfold cancelInService; (repeat' split) <;> simp)

/-- The frame of `cancelRequest`. -/
@[simp] theorem cancelRequest_frame (slot : Nat) (seq : BitVec 8) (number : Nat) (c : Chip) :
    Kept.byEngineAction c (cancelRequest slot seq number c) := by
  and_intros <;> (unfold cancelRequest; (repeat' split) <;> simp)

/-- The frame of `dispatchCancel`. -/
@[simp] theorem dispatchCancel_frame (slot : Nat) (seq : BitVec 8) (number : Nat) (c : Chip) :
    Kept.byEngineAction c (dispatchCancel slot seq number c) := by
  and_intros <;> (unfold dispatchCancel; (repeat' split) <;> simp)

/-- What `dispatchMark` keeps. -/
abbrev Kept.byDispatchMark (c d : Chip) : Prop :=
  d.rgp.partState = c.rgp.partState ∧ d.rgp.bindResult = c.rgp.bindResult ∧ d.rgp.haltSource = c.rgp.haltSource ∧
  d.rgp.autoStrap = c.rgp.autoStrap ∧ d.rgp.dirselStrap = c.rgp.dirselStrap ∧ d.rgp.lastCode = c.rgp.lastCode ∧
  d.rgp.acceptance = c.rgp.acceptance ∧ d.rgp.dirbase = c.rgp.dirbase ∧ d.rgp.mask = c.rgp.mask ∧
  d.rgp.resetHeld = c.rgp.resetHeld ∧ d.rgp.binding = c.rgp.binding ∧ d.rgp.layout = c.rgp.layout ∧
  d.mpt.windows = c.mpt.windows ∧ d.mpt.records = c.mpt.records ∧ d.mpt.overflow = c.mpt.overflow ∧
  d.mpt.onBus = c.mpt.onBus ∧ d.mpt.lastGrant = c.mpt.lastGrant ∧ d.lki = c.lki ∧ d.chc = c.chc ∧ d.ccu = c.ccu ∧
  d.sce = c.sce ∧ d.tcu = c.tcu ∧ d.ord.expected = c.ord.expected ∧ d.ord.drainPending = c.ord.drainPending ∧
  d.ord.poll = c.ord.poll ∧ d.ord.repeatMark = c.ord.repeatMark ∧ d.ord.timer = c.ord.timer ∧
  d.ord.polls = c.ord.polls ∧ d.ord.taken = c.ord.taken ∧ d.ord.duplicates = c.ord.duplicates ∧
  d.ord.torn = c.ord.torn ∧ d.dlv.image = c.dlv.image ∧ d.dlv.assembly = c.dlv.assembly ∧
  d.dlv.outgoing = c.dlv.outgoing ∧ d.dlv.selector = c.dlv.selector ∧ d.dlv.progress = c.dlv.progress ∧
  d.dlv.updateCount = c.dlv.updateCount ∧ d.dlv.epochCount = c.dlv.epochCount ∧ d.dlv.epochShown = c.dlv.epochShown ∧
  d.dlv.faultUnshown = c.dlv.faultUnshown ∧ d.freeUses = c.freeUses ∧ d.active = c.active

/-- The frame of `dispatchMark`. -/
@[simp] theorem dispatchMark_frame (slot : Nat) (seq : BitVec 8) (tag : Word32) (c : Chip) :
    Kept.byDispatchMark c (dispatchMark slot seq tag c) := by
  and_intros <;> (unfold dispatchMark; (repeat' split) <;> (try (rename_i h; obtain ⟨rfl, -⟩ := Prod.ext_iff.1 h)) <;> simp)

/-- What `dispatchFaultClear` keeps. -/
abbrev Kept.byDispatchFaultClear (c d : Chip) : Prop :=
  d.rgp = c.rgp ∧ d.lki = c.lki ∧ d.chc = c.chc ∧
  d.ccu = c.ccu ∧ d.sce = c.sce ∧ d.tcu = c.tcu ∧ d.ord.expected = c.ord.expected ∧
  d.ord.drainPending = c.ord.drainPending ∧ d.ord.poll = c.ord.poll ∧ d.ord.repeatMark = c.ord.repeatMark ∧
  d.ord.timer = c.ord.timer ∧ d.ord.polls = c.ord.polls ∧ d.ord.taken = c.ord.taken ∧
  d.ord.duplicates = c.ord.duplicates ∧ d.ord.torn = c.ord.torn ∧ d.dlv.image = c.dlv.image ∧ d.dlv.pick = c.dlv.pick ∧
  d.dlv.event = c.dlv.event ∧ d.dlv.pendingEvents = c.dlv.pendingEvents ∧ d.dlv.returnRead = c.dlv.returnRead ∧
  d.dlv.reread = c.dlv.reread ∧ d.dlv.assembly = c.dlv.assembly ∧ d.dlv.outgoing = c.dlv.outgoing ∧
  d.dlv.selector = c.dlv.selector ∧ d.dlv.progress = c.dlv.progress ∧ d.dlv.updateCount = c.dlv.updateCount ∧
  d.dlv.epochCount = c.dlv.epochCount ∧ d.dlv.epochShown = c.dlv.epochShown ∧
  d.dlv.faultUnshown = c.dlv.faultUnshown ∧ d.dlv.counters = c.dlv.counters ∧ d.freeUses = c.freeUses ∧
  d.active = c.active

/-- The frame of `dispatchFaultClear`. -/
@[simp] theorem dispatchFaultClear_frame (slot : Nat) (seq : BitVec 8) (index : Nat) (c : Chip) :
    Kept.byDispatchFaultClear c (dispatchFaultClear slot seq index c) := by
  and_intros
  all_goals first
    | (unfold dispatchFaultClear; (repeat' split) <;> simp; done)
    | (unfold dispatchFaultClear; (repeat' split) <;> simp [Chip.active])

/-- What `writeDuplicates` keeps. -/
abbrev Kept.byWriteDuplicates (c d : Chip) : Prop :=
  d.rgp = c.rgp ∧ d.mpt.windows = c.mpt.windows ∧ d.mpt.records = c.mpt.records ∧ d.mpt.overflow = c.mpt.overflow ∧
  d.mpt.onBus = c.mpt.onBus ∧ d.mpt.lastGrant = c.mpt.lastGrant ∧ d.lki = c.lki ∧ d.chc = c.chc ∧ d.ccu = c.ccu ∧
  d.sce = c.sce ∧ d.tcu = c.tcu ∧ d.ord.expected = c.ord.expected ∧ d.ord.drainPending = c.ord.drainPending ∧
  d.ord.poll = c.ord.poll ∧ d.ord.repeatMark = c.ord.repeatMark ∧ d.ord.timer = c.ord.timer ∧
  d.ord.polls = c.ord.polls ∧ d.ord.taken = c.ord.taken ∧ d.ord.torn = c.ord.torn ∧ d.dlv.image = c.dlv.image ∧
  d.dlv.pick = c.dlv.pick ∧ d.dlv.event = c.dlv.event ∧ d.dlv.pendingEvents = c.dlv.pendingEvents ∧
  d.dlv.returnRead = c.dlv.returnRead ∧ d.dlv.reread = c.dlv.reread ∧ d.dlv.assembly = c.dlv.assembly ∧
  d.dlv.outgoing = c.dlv.outgoing ∧ d.dlv.selector = c.dlv.selector ∧ d.dlv.progress = c.dlv.progress ∧
  d.dlv.updateCount = c.dlv.updateCount ∧ d.dlv.epochCount = c.dlv.epochCount ∧ d.dlv.epochShown = c.dlv.epochShown ∧
  d.dlv.faultUnshown = c.dlv.faultUnshown ∧ d.dlv.counters = c.dlv.counters ∧ d.freeUses = c.freeUses

/-- The frame of `writeDuplicates`. -/
@[simp] theorem writeDuplicates_frame (x0 : List (Nat × List Byte)) (c : Chip) :
    Kept.byWriteDuplicates c (writeDuplicates x0 c) := by
  induction x0 generalizing c with
  | nil => and_intros <;> simp [writeDuplicates]
  | cons x l ih => and_intros <;> simp [writeDuplicates, ih]

/-- What `endPoll` keeps. -/
abbrev Kept.byEndPoll (c d : Chip) : Prop :=
  d.rgp = c.rgp ∧ d.mpt.windows = c.mpt.windows ∧
  d.mpt.records = c.mpt.records ∧ d.mpt.overflow = c.mpt.overflow ∧ d.mpt.onBus = c.mpt.onBus ∧
  d.mpt.lastGrant = c.mpt.lastGrant ∧ d.lki = c.lki ∧ d.chc = c.chc ∧ d.ccu = c.ccu ∧ d.sce = c.sce ∧ d.tcu = c.tcu ∧
  d.ord.expected = c.ord.expected ∧ d.ord.drainPending = c.ord.drainPending ∧ d.ord.openOrders = c.ord.openOrders ∧
  d.ord.timer = c.ord.timer ∧ d.ord.taken = c.ord.taken ∧ d.ord.duplicates = c.ord.duplicates ∧
  d.ord.torn = c.ord.torn ∧ d.dlv.image = c.dlv.image ∧ d.dlv.pick = c.dlv.pick ∧ d.dlv.event = c.dlv.event ∧
  d.dlv.pendingEvents = c.dlv.pendingEvents ∧ d.dlv.assembly = c.dlv.assembly ∧ d.dlv.outgoing = c.dlv.outgoing ∧
  d.dlv.selector = c.dlv.selector ∧ d.dlv.progress = c.dlv.progress ∧ d.dlv.updateCount = c.dlv.updateCount ∧
  d.dlv.epochCount = c.dlv.epochCount ∧ d.dlv.epochShown = c.dlv.epochShown ∧
  d.dlv.faultUnshown = c.dlv.faultUnshown ∧ d.dlv.counters = c.dlv.counters ∧ d.freeUses = c.freeUses ∧
  d.active = c.active

/-- The frame of `endPoll`. -/
@[simp] theorem endPoll_frame (taken : Bool) (c : Chip) : Kept.byEndPoll c (endPoll taken c) := by
  and_intros
  all_goals first
    | (unfold endPoll; (try dsimp only); (repeat' split) <;> simp)
    | (unfold endPoll; (try dsimp only); (repeat' split) <;> simp [Chip.active])

/-- The frame of `dispatchInval`. -/
@[simp] theorem dispatchInval_frame (o : InvalOrder) (c : Chip) : Kept.byTakeWaiting c (dispatchInval o c) := by
  unfold dispatchInval
  and_intros <;>
    (split <;> dsimp only <;> split <;> (rename_i h; obtain ⟨rfl, -⟩ := Prod.ext_iff.1 h; simp))

/-- What `dispatchOrder` keeps. -/
abbrev Kept.byDispatchOrder (c d : Chip) : Prop :=
  d.rgp.bindResult = c.rgp.bindResult ∧ d.rgp.haltSource = c.rgp.haltSource ∧ d.rgp.autoStrap = c.rgp.autoStrap ∧
  d.rgp.dirselStrap = c.rgp.dirselStrap ∧ d.rgp.lastCode = c.rgp.lastCode ∧ d.rgp.acceptance = c.rgp.acceptance ∧
  d.rgp.dirbase = c.rgp.dirbase ∧ d.rgp.mask = c.rgp.mask ∧ d.rgp.resetHeld = c.rgp.resetHeld ∧
  d.rgp.binding = c.rgp.binding ∧ d.rgp.layout = c.rgp.layout ∧ d.lki = c.lki ∧ d.chc = c.chc ∧
  d.tcu.settings = c.tcu.settings ∧ d.tcu.grids = c.tcu.grids ∧ d.tcu.hubEntries = c.tcu.hubEntries ∧
  d.tcu.stationEntries = c.tcu.stationEntries ∧ d.tcu.evictions = c.tcu.evictions ∧ d.ord.expected = c.ord.expected ∧
  d.ord.timer = c.ord.timer ∧ d.ord.taken = c.ord.taken ∧ d.ord.duplicates = c.ord.duplicates ∧
  d.ord.torn = c.ord.torn ∧ d.dlv.image = c.dlv.image ∧ d.dlv.assembly = c.dlv.assembly ∧
  d.dlv.outgoing = c.dlv.outgoing ∧ d.dlv.selector = c.dlv.selector ∧ d.dlv.progress = c.dlv.progress ∧
  d.dlv.updateCount = c.dlv.updateCount ∧ d.dlv.epochCount = c.dlv.epochCount ∧ d.dlv.epochShown = c.dlv.epochShown ∧
  d.freeUses = c.freeUses

/-- The frame of `dispatchOrder`. -/
@[simp] theorem dispatchOrder_frame (slot : Nat) (b : List Byte) (c : Chip) :
    Kept.byDispatchOrder c (dispatchOrder slot b c) := by
  and_intros <;> (unfold dispatchOrder; (try dsimp only); (repeat' split) <;> simp)

/-- What `judgeSlot` keeps. -/
abbrev Kept.byJudgeSlot (c d : Chip) : Prop :=
  d.rgp.bindResult = c.rgp.bindResult ∧ d.rgp.haltSource = c.rgp.haltSource ∧ d.rgp.autoStrap = c.rgp.autoStrap ∧
  d.rgp.dirselStrap = c.rgp.dirselStrap ∧ d.rgp.lastCode = c.rgp.lastCode ∧ d.rgp.acceptance = c.rgp.acceptance ∧
  d.rgp.dirbase = c.rgp.dirbase ∧ d.rgp.mask = c.rgp.mask ∧ d.rgp.resetHeld = c.rgp.resetHeld ∧
  d.rgp.binding = c.rgp.binding ∧ d.rgp.layout = c.rgp.layout ∧ d.lki = c.lki ∧ d.chc = c.chc ∧
  d.tcu.settings = c.tcu.settings ∧ d.tcu.grids = c.tcu.grids ∧ d.tcu.hubEntries = c.tcu.hubEntries ∧
  d.tcu.stationEntries = c.tcu.stationEntries ∧ d.tcu.evictions = c.tcu.evictions ∧ d.ord.expected = c.ord.expected ∧
  d.ord.timer = c.ord.timer ∧ d.ord.taken = c.ord.taken ∧ d.ord.duplicates = c.ord.duplicates ∧
  d.dlv.image = c.dlv.image ∧ d.dlv.assembly = c.dlv.assembly ∧ d.dlv.outgoing = c.dlv.outgoing ∧
  d.dlv.selector = c.dlv.selector ∧ d.dlv.progress = c.dlv.progress ∧ d.dlv.updateCount = c.dlv.updateCount ∧
  d.dlv.epochCount = c.dlv.epochCount ∧ d.dlv.epochShown = c.dlv.epochShown ∧ d.freeUses = c.freeUses

/-- The frame of `judgeSlot`. -/
@[simp] theorem judgeSlot_frame (slot : Nat) (b : List Byte) (c : Chip) :
    Kept.byJudgeSlot c (judgeSlot slot b c) := by
  and_intros <;> (unfold judgeSlot; (repeat' split) <;> simp)

/-- What `takeSlot` keeps. -/
abbrev Kept.byTakeSlot (c d : Chip) : Prop :=
  d.rgp.bindResult = c.rgp.bindResult ∧ d.rgp.haltSource = c.rgp.haltSource ∧ d.rgp.autoStrap = c.rgp.autoStrap ∧
  d.rgp.dirselStrap = c.rgp.dirselStrap ∧ d.rgp.lastCode = c.rgp.lastCode ∧ d.rgp.acceptance = c.rgp.acceptance ∧
  d.rgp.dirbase = c.rgp.dirbase ∧ d.rgp.mask = c.rgp.mask ∧ d.rgp.resetHeld = c.rgp.resetHeld ∧
  d.rgp.binding = c.rgp.binding ∧ d.rgp.layout = c.rgp.layout ∧ d.lki = c.lki ∧ d.chc = c.chc ∧
  d.tcu.settings = c.tcu.settings ∧ d.tcu.grids = c.tcu.grids ∧ d.tcu.hubEntries = c.tcu.hubEntries ∧
  d.tcu.stationEntries = c.tcu.stationEntries ∧ d.tcu.evictions = c.tcu.evictions ∧ d.ord.timer = c.ord.timer ∧
  d.dlv.image = c.dlv.image ∧ d.dlv.assembly = c.dlv.assembly ∧ d.dlv.outgoing = c.dlv.outgoing ∧
  d.dlv.selector = c.dlv.selector ∧ d.dlv.progress = c.dlv.progress ∧ d.dlv.updateCount = c.dlv.updateCount ∧
  d.dlv.epochCount = c.dlv.epochCount ∧ d.dlv.epochShown = c.dlv.epochShown ∧ d.freeUses = c.freeUses

/-- The frame of `takeSlot`. -/
@[simp] theorem takeSlot_frame (slot : Nat) (b : List Byte) (others : List (Nat × List Byte)) (c : Chip) :
    Kept.byTakeSlot c (takeSlot slot b others c) := by
  and_intros <;> simp [takeSlot]

/-- The frame of `takeRun`. -/
@[simp] theorem takeRun_frame (x0 : Nat) (x1 : List (Option (List Byte))) (c : Chip) :
    Kept.byTakeSlot c (takeRun x0 x1 c) := by
  induction x0 generalizing x1 c with
  | zero => and_intros <;> simp [takeRun]
  | succ n ih =>
    unfold takeRun
    (try dsimp only)
    and_intros <;>
      ((repeat' split) <;> simp [ih])

/-- The frame of `runPoll`. -/
@[simp] theorem runPoll_frame (slots : List (Option (List Byte))) (c : Chip) :
    Kept.byTakeSlot c (runPoll slots c) := by
  and_intros <;> simp [runPoll]

/-- The frame of `slotReadAnswered`. -/
@[simp] theorem slotReadAnswered_frame (_a : Access) (result : Option (List Byte)) (c : Chip) :
    Kept.byTakeSlot c (slotReadAnswered _a result c) := by
  and_intros <;> (unfold slotReadAnswered; (try dsimp only); (repeat' split) <;> simp)

end Sys2Proof.Machine
end

