-- ==== Sys2Proof/Laws/BindingFrame.lean ====
section
/-! SUPPORT. The frames of the binding: for each, the parts of the state it keeps. A relation
`Kept.by…` names the blocks and fields kept, and is cited for every operation that keeps exactly those. -/

namespace Sys2Proof.Machine

/-- What `bindState` keeps. -/
abbrev Kept.byBindState (c d : Chip) : Prop :=
  d.rgp.autoStrap = c.rgp.autoStrap ∧
  d.rgp.dirselStrap = c.rgp.dirselStrap ∧ d.rgp.lastCode = c.rgp.lastCode ∧ d.rgp.acceptance = c.rgp.acceptance ∧
  d.rgp.dirbase = c.rgp.dirbase ∧ d.rgp.cause = c.rgp.cause ∧ d.rgp.mask = c.rgp.mask ∧
  d.rgp.resetHeld = c.rgp.resetHeld ∧ d.freeUses = c.freeUses

/-- The frame of `bindState`. -/
@[simp] theorem bindState_frame (auto : Bool) (c : Chip) : Kept.byBindState c (bindState auto c) := by
  and_intros <;> simp [bindState]

/-- The frame of `startBinding`. -/
@[simp] theorem startBinding_frame (auto : Bool) (c : Chip) : Kept.byBindState c (startBinding auto c) := by
  and_intros <;> simp [startBinding]

/-- What `releasedState` keeps. -/
abbrev Kept.byReleasedState (c d : Chip) : Prop :=
  d.freeUses = c.freeUses

/-- The frame of `releasedState`. -/
@[simp] theorem releasedState_frame (auto : Bool) (dirsel : BitVec 2) (c : Chip) :
    Kept.byReleasedState c (releasedState auto dirsel c) := by simp [releasedState]

/-- What `holdReset` keeps. -/
abbrev Kept.byHoldReset (c d : Chip) : Prop :=
  d.rgp.autoStrap = c.rgp.autoStrap ∧
  d.rgp.dirselStrap = c.rgp.dirselStrap ∧ d.freeUses = c.freeUses

/-- The frame of `holdReset`. -/
@[simp] theorem holdReset_frame (c : Chip) : Kept.byHoldReset c (holdReset c) := by
  and_intros <;> simp [holdReset]

/-- What `failBinding` keeps. -/
abbrev Kept.byFailBinding (c d : Chip) : Prop :=
  d.rgp.haltSource = c.rgp.haltSource ∧ d.rgp.autoStrap = c.rgp.autoStrap ∧ d.rgp.dirselStrap = c.rgp.dirselStrap ∧
  d.rgp.lastCode = c.rgp.lastCode ∧ d.rgp.acceptance = c.rgp.acceptance ∧ d.rgp.dirbase = c.rgp.dirbase ∧
  d.rgp.mask = c.rgp.mask ∧ d.rgp.resetHeld = c.rgp.resetHeld ∧ d.mpt.records = c.mpt.records ∧
  d.mpt.overflow = c.mpt.overflow ∧ d.mpt.waitRgp = c.mpt.waitRgp ∧ d.mpt.waitTcu = c.mpt.waitTcu ∧
  d.mpt.waitOrd = c.mpt.waitOrd ∧ d.mpt.waitDlv = c.mpt.waitDlv ∧ d.mpt.onBus = c.mpt.onBus ∧
  d.mpt.lastGrant = c.mpt.lastGrant ∧ d.lki = c.lki ∧ d.ccu = c.ccu ∧ d.sce = c.sce ∧ d.ord = c.ord ∧
  d.dlv.image = c.dlv.image ∧ d.dlv.pendingEvents = c.dlv.pendingEvents ∧ d.dlv.returnRead = c.dlv.returnRead ∧
  d.dlv.reread = c.dlv.reread ∧ d.dlv.assembly = c.dlv.assembly ∧ d.dlv.outgoing = c.dlv.outgoing ∧
  d.dlv.selector = c.dlv.selector ∧ d.dlv.progress = c.dlv.progress ∧ d.dlv.progressAsked = c.dlv.progressAsked ∧
  d.dlv.rewrite = c.dlv.rewrite ∧ d.dlv.updateCount = c.dlv.updateCount ∧ d.dlv.epochCount = c.dlv.epochCount ∧
  d.dlv.epochShown = c.dlv.epochShown ∧ d.dlv.faultUnshown = c.dlv.faultUnshown ∧ d.dlv.counters = c.dlv.counters ∧
  d.freeUses = c.freeUses

/-- The frame of `failBinding`. -/
@[simp] theorem failBinding_frame (result : BindResult) (c : Chip) : Kept.byFailBinding c (failBinding result c) := by
  and_intros <;> simp [failBinding]

/-- What `setStage` keeps. -/
abbrev Kept.bySetStage (c d : Chip) : Prop :=
  d.rgp.partState = c.rgp.partState ∧
  d.rgp.bindResult = c.rgp.bindResult ∧ d.rgp.haltSource = c.rgp.haltSource ∧ d.rgp.autoStrap = c.rgp.autoStrap ∧
  d.rgp.dirselStrap = c.rgp.dirselStrap ∧ d.rgp.lastCode = c.rgp.lastCode ∧ d.rgp.acceptance = c.rgp.acceptance ∧
  d.rgp.dirbase = c.rgp.dirbase ∧ d.rgp.cause = c.rgp.cause ∧ d.rgp.mask = c.rgp.mask ∧
  d.rgp.resetHeld = c.rgp.resetHeld ∧ d.rgp.layout = c.rgp.layout ∧ d.mpt = c.mpt ∧ d.lki = c.lki ∧ d.chc = c.chc ∧
  d.ccu = c.ccu ∧ d.sce = c.sce ∧ d.tcu = c.tcu ∧ d.ord = c.ord ∧ d.dlv = c.dlv ∧ d.freeUses = c.freeUses ∧
  d.active = c.active

/-- The frame of `setStage`. -/
@[simp] theorem setStage_frame (st : BindStage) (c : Chip) : Kept.bySetStage c (setStage st c) := by
  and_intros
  all_goals first
    | (simp [setStage]; done)
    | (simp [setStage, Chip.active])

/-- What `bindRead` keeps. -/
abbrev Kept.byBindRead (c d : Chip) : Prop :=
  d.rgp.partState = c.rgp.partState ∧
  d.rgp.bindResult = c.rgp.bindResult ∧ d.rgp.haltSource = c.rgp.haltSource ∧ d.rgp.autoStrap = c.rgp.autoStrap ∧
  d.rgp.dirselStrap = c.rgp.dirselStrap ∧ d.rgp.lastCode = c.rgp.lastCode ∧ d.rgp.acceptance = c.rgp.acceptance ∧
  d.rgp.dirbase = c.rgp.dirbase ∧ d.rgp.cause = c.rgp.cause ∧ d.rgp.mask = c.rgp.mask ∧
  d.rgp.resetHeld = c.rgp.resetHeld ∧ d.rgp.layout = c.rgp.layout ∧ d.mpt.windows = c.mpt.windows ∧
  d.mpt.records = c.mpt.records ∧ d.mpt.overflow = c.mpt.overflow ∧ d.mpt.onBus = c.mpt.onBus ∧
  d.mpt.lastGrant = c.mpt.lastGrant ∧ d.lki = c.lki ∧ d.chc = c.chc ∧ d.ccu = c.ccu ∧ d.sce = c.sce ∧ d.tcu = c.tcu ∧
  d.ord = c.ord ∧ d.dlv = c.dlv ∧ d.freeUses = c.freeUses ∧ d.active = c.active

/-- The frame of `bindRead`. -/
@[simp] theorem bindRead_frame (st : BindStage) (a : Access) (c : Chip) : Kept.byBindRead c (bindRead st a c) := by
  and_intros <;> simp [bindRead]

/-- What `copyWindows` keeps. -/
abbrev Kept.byCopyWindows (c d : Chip) : Prop :=
  d.rgp = c.rgp ∧ d.mpt.records = c.mpt.records ∧
  d.mpt.overflow = c.mpt.overflow ∧ d.mpt.waitRgp = c.mpt.waitRgp ∧ d.mpt.waitTcu = c.mpt.waitTcu ∧
  d.mpt.waitOrd = c.mpt.waitOrd ∧ d.mpt.waitDlv = c.mpt.waitDlv ∧ d.mpt.onBus = c.mpt.onBus ∧
  d.mpt.lastGrant = c.mpt.lastGrant ∧ d.lki = c.lki ∧ d.chc = c.chc ∧ d.ccu = c.ccu ∧ d.sce = c.sce ∧ d.tcu = c.tcu ∧
  d.ord = c.ord ∧ d.dlv = c.dlv ∧ d.freeUses = c.freeUses ∧ d.active = c.active

/-- The frame of `copyWindows`. -/
@[simp] theorem copyWindows_frame (b : List Byte) (c : Chip) : Kept.byCopyWindows c (copyWindows b c) := by
  and_intros
  all_goals first
    | (simp [copyWindows]; done)
    | (simp [copyWindows, Chip.active])

/-- What `adoptDirectory` keeps. -/
abbrev Kept.byAdoptDirectory (c d : Chip) : Prop :=
  d.rgp.partState = c.rgp.partState ∧ d.rgp.bindResult = c.rgp.bindResult ∧ d.rgp.haltSource = c.rgp.haltSource ∧
  d.rgp.autoStrap = c.rgp.autoStrap ∧ d.rgp.dirselStrap = c.rgp.dirselStrap ∧ d.rgp.lastCode = c.rgp.lastCode ∧
  d.rgp.acceptance = c.rgp.acceptance ∧ d.rgp.dirbase = c.rgp.dirbase ∧ d.rgp.cause = c.rgp.cause ∧
  d.rgp.mask = c.rgp.mask ∧ d.rgp.resetHeld = c.rgp.resetHeld ∧ d.rgp.binding = c.rgp.binding ∧ d.mpt = c.mpt ∧
  d.lki = c.lki ∧ d.chc = c.chc ∧ d.ccu = c.ccu ∧ d.sce = c.sce ∧ d.tcu = c.tcu ∧ d.ord = c.ord ∧
  d.dlv.image = c.dlv.image ∧ d.dlv.pendingEvents = c.dlv.pendingEvents ∧ d.dlv.returnRead = c.dlv.returnRead ∧
  d.dlv.reread = c.dlv.reread ∧ d.dlv.assembly = c.dlv.assembly ∧ d.dlv.outgoing = c.dlv.outgoing ∧
  d.dlv.selector = c.dlv.selector ∧ d.dlv.progress = c.dlv.progress ∧ d.dlv.progressAsked = c.dlv.progressAsked ∧
  d.dlv.rewrite = c.dlv.rewrite ∧ d.dlv.updateCount = c.dlv.updateCount ∧ d.dlv.epochCount = c.dlv.epochCount ∧
  d.dlv.epochShown = c.dlv.epochShown ∧ d.dlv.faultUnshown = c.dlv.faultUnshown ∧ d.dlv.counters = c.dlv.counters ∧
  d.freeUses = c.freeUses ∧ d.active = c.active

/-- The frame of `adoptDirectory`. -/
@[simp] theorem adoptDirectory_frame (b : List Byte) (c : Chip) : Kept.byAdoptDirectory c (adoptDirectory b c) := by
  and_intros
  all_goals first
    | (simp [adoptDirectory]; done)
    | (simp [adoptDirectory, Chip.active])

/-- The frame of `loadSettingsBlock`. -/
@[simp] theorem loadSettingsBlock_frame (b : List Byte) (c : Chip) : Kept.byBindRead c (loadSettingsBlock b c) := by
  and_intros
  all_goals first
    | (simp [loadSettingsBlock]; done)
    | (simp [loadSettingsBlock, Chip.active])

/-- What `loadGrid` keeps. -/
abbrev Kept.byLoadGrid (c d : Chip) : Prop :=
  d.rgp.haltSource = c.rgp.haltSource ∧ d.rgp.autoStrap = c.rgp.autoStrap ∧ d.rgp.dirselStrap = c.rgp.dirselStrap ∧
  d.rgp.lastCode = c.rgp.lastCode ∧ d.rgp.acceptance = c.rgp.acceptance ∧ d.rgp.dirbase = c.rgp.dirbase ∧
  d.rgp.mask = c.rgp.mask ∧ d.rgp.resetHeld = c.rgp.resetHeld ∧ d.mpt.records = c.mpt.records ∧
  d.mpt.overflow = c.mpt.overflow ∧ d.mpt.onBus = c.mpt.onBus ∧ d.mpt.lastGrant = c.mpt.lastGrant ∧ d.lki = c.lki ∧
  d.ccu = c.ccu ∧ d.sce = c.sce ∧ d.ord = c.ord ∧ d.dlv.image = c.dlv.image ∧
  d.dlv.pendingEvents = c.dlv.pendingEvents ∧ d.dlv.returnRead = c.dlv.returnRead ∧ d.dlv.reread = c.dlv.reread ∧
  d.dlv.assembly = c.dlv.assembly ∧ d.dlv.outgoing = c.dlv.outgoing ∧ d.dlv.selector = c.dlv.selector ∧
  d.dlv.progress = c.dlv.progress ∧ d.dlv.progressAsked = c.dlv.progressAsked ∧ d.dlv.rewrite = c.dlv.rewrite ∧
  d.dlv.updateCount = c.dlv.updateCount ∧ d.dlv.epochCount = c.dlv.epochCount ∧ d.dlv.epochShown = c.dlv.epochShown ∧
  d.dlv.faultUnshown = c.dlv.faultUnshown ∧ d.dlv.counters = c.dlv.counters ∧ d.freeUses = c.freeUses

/-- The frame of `loadGrid`. -/
@[simp] theorem loadGrid_frame (g : Nat) (b : List Byte) (c : Chip) : Kept.byLoadGrid c (loadGrid g b c) := by
  and_intros <;> (unfold loadGrid; (try dsimp only); (repeat' split) <;> simp)

/-- What `loadHub` keeps. -/
abbrev Kept.byLoadHub (c d : Chip) : Prop :=
  d.rgp.partState = c.rgp.partState ∧
  d.rgp.bindResult = c.rgp.bindResult ∧ d.rgp.haltSource = c.rgp.haltSource ∧ d.rgp.autoStrap = c.rgp.autoStrap ∧
  d.rgp.dirselStrap = c.rgp.dirselStrap ∧ d.rgp.lastCode = c.rgp.lastCode ∧ d.rgp.acceptance = c.rgp.acceptance ∧
  d.rgp.dirbase = c.rgp.dirbase ∧ d.rgp.cause = c.rgp.cause ∧ d.rgp.mask = c.rgp.mask ∧
  d.rgp.resetHeld = c.rgp.resetHeld ∧ d.rgp.layout = c.rgp.layout ∧ d.mpt.windows = c.mpt.windows ∧
  d.mpt.records = c.mpt.records ∧ d.mpt.overflow = c.mpt.overflow ∧ d.mpt.onBus = c.mpt.onBus ∧
  d.mpt.lastGrant = c.mpt.lastGrant ∧ d.lki = c.lki ∧ d.chc = c.chc ∧ d.ccu = c.ccu ∧ d.sce = c.sce ∧
  d.tcu.settings = c.tcu.settings ∧ d.tcu.grids = c.tcu.grids ∧ d.tcu.stationEntries = c.tcu.stationEntries ∧
  d.tcu.cache = c.tcu.cache ∧ d.tcu.fetch = c.tcu.fetch ∧ d.tcu.reload = c.tcu.reload ∧
  d.tcu.waiting = c.tcu.waiting ∧ d.tcu.drain = c.tcu.drain ∧ d.tcu.hits = c.tcu.hits ∧ d.tcu.misses = c.tcu.misses ∧
  d.tcu.evictions = c.tcu.evictions ∧ d.tcu.dropped = c.tcu.dropped ∧ d.tcu.invalidations = c.tcu.invalidations ∧
  d.ord = c.ord ∧ d.dlv = c.dlv ∧ d.freeUses = c.freeUses ∧ d.active = c.active

/-- The frame of `loadHub`. -/
@[simp] theorem loadHub_frame (h : Nat) (b : List Byte) (c : Chip) : Kept.byLoadHub c (loadHub h b c) := by
  and_intros
  all_goals first
    | (unfold loadHub; (try dsimp only); (repeat' split) <;> simp; done)
    | (unfold loadHub; (try dsimp only); (repeat' split) <;> simp [Chip.active])

/-- What `buildImage` keeps. -/
abbrev Kept.byBuildImage (c d : Chip) : Prop :=
  d.rgp = c.rgp ∧ d.mpt = c.mpt ∧ d.lki = c.lki ∧ d.chc = c.chc ∧ d.ccu = c.ccu ∧ d.sce = c.sce ∧ d.tcu = c.tcu ∧
  d.ord = c.ord ∧ d.dlv.pick = c.dlv.pick ∧ d.dlv.event = c.dlv.event ∧ d.dlv.pendingEvents = c.dlv.pendingEvents ∧
  d.dlv.returnRead = c.dlv.returnRead ∧ d.dlv.reread = c.dlv.reread ∧ d.dlv.assembly = c.dlv.assembly ∧
  d.dlv.outgoing = c.dlv.outgoing ∧ d.dlv.selector = c.dlv.selector ∧ d.dlv.progress = c.dlv.progress ∧
  d.dlv.progressAsked = c.dlv.progressAsked ∧ d.dlv.rewrite = c.dlv.rewrite ∧ d.dlv.updateCount = c.dlv.updateCount ∧
  d.dlv.epochCount = c.dlv.epochCount ∧ d.dlv.epochShown = c.dlv.epochShown ∧
  d.dlv.faultUnshown = c.dlv.faultUnshown ∧ d.dlv.counters = c.dlv.counters ∧ d.freeUses = c.freeUses ∧
  d.active = c.active

/-- The frame of `buildImage`. -/
@[simp] theorem buildImage_frame (c : Chip) : Kept.byBuildImage c (buildImage c) := by
  and_intros <;> rfl

/-- What `writeFirstImage` keeps. -/
abbrev Kept.byWriteFirstImage (c d : Chip) : Prop :=
  d.rgp.partState = c.rgp.partState ∧
  d.rgp.bindResult = c.rgp.bindResult ∧ d.rgp.haltSource = c.rgp.haltSource ∧ d.rgp.autoStrap = c.rgp.autoStrap ∧
  d.rgp.dirselStrap = c.rgp.dirselStrap ∧ d.rgp.lastCode = c.rgp.lastCode ∧ d.rgp.acceptance = c.rgp.acceptance ∧
  d.rgp.dirbase = c.rgp.dirbase ∧ d.rgp.cause = c.rgp.cause ∧ d.rgp.mask = c.rgp.mask ∧
  d.rgp.resetHeld = c.rgp.resetHeld ∧ d.rgp.layout = c.rgp.layout ∧ d.mpt.windows = c.mpt.windows ∧
  d.mpt.records = c.mpt.records ∧ d.mpt.overflow = c.mpt.overflow ∧ d.mpt.onBus = c.mpt.onBus ∧
  d.mpt.lastGrant = c.mpt.lastGrant ∧ d.lki = c.lki ∧ d.chc.counters = c.chc.counters ∧ d.ccu = c.ccu ∧
  d.sce = c.sce ∧ d.tcu = c.tcu ∧ d.ord = c.ord ∧ d.dlv.pick = c.dlv.pick ∧ d.dlv.event = c.dlv.event ∧
  d.dlv.pendingEvents = c.dlv.pendingEvents ∧ d.dlv.returnRead = c.dlv.returnRead ∧ d.dlv.reread = c.dlv.reread ∧
  d.dlv.assembly = c.dlv.assembly ∧ d.dlv.outgoing = c.dlv.outgoing ∧ d.dlv.selector = c.dlv.selector ∧
  d.dlv.progressAsked = c.dlv.progressAsked ∧ d.dlv.rewrite = c.dlv.rewrite ∧ d.dlv.epochCount = c.dlv.epochCount ∧
  d.dlv.epochShown = c.dlv.epochShown ∧ d.dlv.counters = c.dlv.counters ∧ d.active = c.active

/-- The frame of `writeFirstImage`. -/
@[simp] theorem writeFirstImage_frame (c : Chip) : Kept.byWriteFirstImage c (writeFirstImage c) := by
  and_intros
  all_goals first
    | (simp [writeFirstImage]; done)
    | (simp [writeFirstImage, Chip.active])

/-- What `loadStation` keeps. -/
abbrev Kept.byLoadStation (c d : Chip) : Prop :=
  d.rgp.partState = c.rgp.partState ∧
  d.rgp.bindResult = c.rgp.bindResult ∧ d.rgp.haltSource = c.rgp.haltSource ∧ d.rgp.autoStrap = c.rgp.autoStrap ∧
  d.rgp.dirselStrap = c.rgp.dirselStrap ∧ d.rgp.lastCode = c.rgp.lastCode ∧ d.rgp.acceptance = c.rgp.acceptance ∧
  d.rgp.dirbase = c.rgp.dirbase ∧ d.rgp.cause = c.rgp.cause ∧ d.rgp.mask = c.rgp.mask ∧
  d.rgp.resetHeld = c.rgp.resetHeld ∧ d.rgp.layout = c.rgp.layout ∧ d.mpt.windows = c.mpt.windows ∧
  d.mpt.records = c.mpt.records ∧ d.mpt.overflow = c.mpt.overflow ∧ d.mpt.onBus = c.mpt.onBus ∧
  d.mpt.lastGrant = c.mpt.lastGrant ∧ d.lki = c.lki ∧ d.chc.counters = c.chc.counters ∧ d.ccu = c.ccu ∧
  d.sce = c.sce ∧ d.tcu.settings = c.tcu.settings ∧ d.tcu.grids = c.tcu.grids ∧ d.tcu.hubEntries = c.tcu.hubEntries ∧
  d.tcu.cache = c.tcu.cache ∧ d.tcu.fetch = c.tcu.fetch ∧ d.tcu.reload = c.tcu.reload ∧
  d.tcu.waiting = c.tcu.waiting ∧ d.tcu.drain = c.tcu.drain ∧ d.tcu.hits = c.tcu.hits ∧ d.tcu.misses = c.tcu.misses ∧
  d.tcu.evictions = c.tcu.evictions ∧ d.tcu.dropped = c.tcu.dropped ∧ d.tcu.invalidations = c.tcu.invalidations ∧
  d.ord = c.ord ∧ d.dlv.pick = c.dlv.pick ∧ d.dlv.event = c.dlv.event ∧ d.dlv.pendingEvents = c.dlv.pendingEvents ∧
  d.dlv.returnRead = c.dlv.returnRead ∧ d.dlv.reread = c.dlv.reread ∧ d.dlv.assembly = c.dlv.assembly ∧
  d.dlv.outgoing = c.dlv.outgoing ∧ d.dlv.selector = c.dlv.selector ∧ d.dlv.progressAsked = c.dlv.progressAsked ∧
  d.dlv.rewrite = c.dlv.rewrite ∧ d.dlv.epochCount = c.dlv.epochCount ∧ d.dlv.epochShown = c.dlv.epochShown ∧
  d.dlv.counters = c.dlv.counters ∧ d.active = c.active

/-- The frame of `loadStation`. -/
@[simp] theorem loadStation_frame (n : Nat) (b : List Byte) (c : Chip) :
    Kept.byLoadStation c (loadStation n b c) := by
  and_intros
  all_goals first
    | (unfold loadStation; (try dsimp only); (repeat' split) <;> simp; done)
    | (unfold loadStation; (try dsimp only); (repeat' split) <;> simp [Chip.active])

/-- What `bindTableAnswered` keeps. -/
abbrev Kept.byBindTableAnswered (c d : Chip) : Prop :=
  d.rgp.haltSource = c.rgp.haltSource ∧
  d.rgp.autoStrap = c.rgp.autoStrap ∧ d.rgp.dirselStrap = c.rgp.dirselStrap ∧ d.rgp.lastCode = c.rgp.lastCode ∧
  d.rgp.acceptance = c.rgp.acceptance ∧ d.rgp.dirbase = c.rgp.dirbase ∧ d.rgp.mask = c.rgp.mask ∧
  d.rgp.resetHeld = c.rgp.resetHeld ∧ d.mpt.records = c.mpt.records ∧ d.mpt.overflow = c.mpt.overflow ∧
  d.mpt.onBus = c.mpt.onBus ∧ d.mpt.lastGrant = c.mpt.lastGrant ∧ d.lki = c.lki ∧ d.ccu = c.ccu ∧ d.sce = c.sce ∧
  d.ord = c.ord ∧ d.dlv.pendingEvents = c.dlv.pendingEvents ∧ d.dlv.returnRead = c.dlv.returnRead ∧
  d.dlv.reread = c.dlv.reread ∧ d.dlv.assembly = c.dlv.assembly ∧ d.dlv.outgoing = c.dlv.outgoing ∧
  d.dlv.selector = c.dlv.selector ∧ d.dlv.progressAsked = c.dlv.progressAsked ∧ d.dlv.rewrite = c.dlv.rewrite ∧
  d.dlv.epochCount = c.dlv.epochCount ∧ d.dlv.epochShown = c.dlv.epochShown ∧ d.dlv.counters = c.dlv.counters

/-- The frame of `bindTableAnswered`. -/
@[simp] theorem bindTableAnswered_frame (a : Access) (result : Option (List Byte)) (c : Chip) :
    Kept.byBindTableAnswered c (bindTableAnswered a result c) := by
  and_intros <;> (unfold bindTableAnswered; (repeat' split) <;> simp)

/-- What `startPollTimer` keeps. -/
abbrev Kept.byStartPollTimer (c d : Chip) : Prop :=
  d.rgp = c.rgp ∧ d.mpt = c.mpt ∧ d.lki = c.lki ∧ d.chc = c.chc ∧
  d.ccu = c.ccu ∧ d.sce = c.sce ∧ d.tcu = c.tcu ∧ d.ord.expected = c.ord.expected ∧
  d.ord.drainPending = c.ord.drainPending ∧ d.ord.openOrders = c.ord.openOrders ∧ d.ord.poll = c.ord.poll ∧
  d.ord.repeatMark = c.ord.repeatMark ∧ d.ord.takeRun = c.ord.takeRun ∧ d.ord.polls = c.ord.polls ∧
  d.ord.taken = c.ord.taken ∧ d.ord.duplicates = c.ord.duplicates ∧ d.ord.torn = c.ord.torn ∧ d.dlv = c.dlv ∧
  d.freeUses = c.freeUses ∧ d.active = c.active

/-- The frame of `startPollTimer`. -/
@[simp] theorem startPollTimer_frame (c : Chip) : Kept.byStartPollTimer c (startPollTimer c) := by
  and_intros
  all_goals first
    | (simp [startPollTimer]; done)
    | (simp [startPollTimer, Chip.active])

/-- What `progressWordAnswered` keeps. -/
abbrev Kept.byProgressWordAnswered (c d : Chip) : Prop :=
  d.rgp = c.rgp ∧ d.mpt = c.mpt ∧ d.lki = c.lki ∧
  d.chc = c.chc ∧ d.ccu = c.ccu ∧ d.sce = c.sce ∧ d.tcu = c.tcu ∧ d.ord = c.ord ∧ d.dlv = c.dlv ∧
  d.freeUses = c.freeUses ∧ d.active = c.active

/-- The frame of `progressWordAnswered`. -/
@[simp] theorem progressWordAnswered_frame (_a : Access) (_result : Option (List Byte)) (c : Chip) :
    Kept.byProgressWordAnswered c (progressWordAnswered _a _result c) := by
  and_intros <;> simp [progressWordAnswered]

/-- The frame of `judgeDirectory`. -/
@[simp] theorem judgeDirectory_frame (b : List Byte) (c : Chip) : Kept.byLoadGrid c (judgeDirectory b c) := by
  unfold judgeDirectory
  cases directoryCheck b with
  | none =>
    dsimp only
    and_intros <;>
      (cases layoutValid (directoryWindows b) (directoryLayout b) (directoryPicks b) (directoryEvents b) <;> simp)
  | some r => and_intros <;> simp

/-- The frame of `directoryAnswered`. -/
@[simp] theorem directoryAnswered_frame (_a : Access) (result : Option (List Byte)) (c : Chip) :
    Kept.byLoadGrid c (directoryAnswered _a result c) := by
  and_intros <;> (unfold directoryAnswered; (repeat' split) <;> simp)

/-- What `beginListening` keeps. -/
abbrev Kept.byBeginListening (c d : Chip) : Prop :=
  d.rgp.partState = c.rgp.partState ∧
  d.rgp.bindResult = c.rgp.bindResult ∧ d.rgp.haltSource = c.rgp.haltSource ∧ d.rgp.autoStrap = c.rgp.autoStrap ∧
  d.rgp.dirselStrap = c.rgp.dirselStrap ∧ d.rgp.lastCode = c.rgp.lastCode ∧ d.rgp.acceptance = c.rgp.acceptance ∧
  d.rgp.dirbase = c.rgp.dirbase ∧ d.rgp.mask = c.rgp.mask ∧ d.rgp.resetHeld = c.rgp.resetHeld ∧
  d.rgp.binding = c.rgp.binding ∧ d.rgp.layout = c.rgp.layout ∧ d.mpt = c.mpt ∧ d.lki.horizon = c.lki.horizon ∧
  d.chc = c.chc ∧ d.ccu.target = c.ccu.target ∧ d.ccu.queue = c.ccu.queue ∧
  d.ccu.requestCounter = c.ccu.requestCounter ∧ d.ccu.declarations = c.ccu.declarations ∧
  d.ccu.merges = c.ccu.merges ∧ d.ccu.lost = c.ccu.lost ∧ d.ccu.displaced = c.ccu.displaced ∧ d.sce = c.sce ∧
  d.tcu = c.tcu ∧ d.ord = c.ord ∧ d.dlv.image = c.dlv.image ∧ d.dlv.pick = c.dlv.pick ∧ d.dlv.event = c.dlv.event ∧
  d.dlv.pendingEvents = c.dlv.pendingEvents ∧ d.dlv.returnRead = c.dlv.returnRead ∧ d.dlv.reread = c.dlv.reread ∧
  d.dlv.assembly = c.dlv.assembly ∧ d.dlv.outgoing = c.dlv.outgoing ∧ d.dlv.selector = c.dlv.selector ∧
  d.dlv.progress = c.dlv.progress ∧ d.dlv.updateCount = c.dlv.updateCount ∧ d.dlv.epochCount = c.dlv.epochCount ∧
  d.dlv.epochShown = c.dlv.epochShown ∧ d.dlv.faultUnshown = c.dlv.faultUnshown ∧ d.dlv.counters = c.dlv.counters ∧
  d.freeUses = c.freeUses ∧ d.active = c.active

/-- The frame of `beginListening`. -/
@[simp] theorem beginListening_frame (c : Chip) : Kept.byBeginListening c (beginListening c) := by
  and_intros
  all_goals first
    | (simp [beginListening]; done)
    | (simp [beginListening, Chip.active])

/-- What `succeedBinding` keeps. -/
abbrev Kept.bySucceedBinding (c d : Chip) : Prop :=
  d.rgp.haltSource = c.rgp.haltSource ∧
  d.rgp.autoStrap = c.rgp.autoStrap ∧ d.rgp.dirselStrap = c.rgp.dirselStrap ∧ d.rgp.lastCode = c.rgp.lastCode ∧
  d.rgp.acceptance = c.rgp.acceptance ∧ d.rgp.dirbase = c.rgp.dirbase ∧ d.rgp.mask = c.rgp.mask ∧
  d.rgp.resetHeld = c.rgp.resetHeld ∧ d.rgp.layout = c.rgp.layout ∧ d.mpt.windows = c.mpt.windows ∧
  d.mpt.records = c.mpt.records ∧ d.mpt.overflow = c.mpt.overflow ∧ d.mpt.onBus = c.mpt.onBus ∧
  d.mpt.lastGrant = c.mpt.lastGrant ∧ d.lki.horizon = c.lki.horizon ∧ d.chc = c.chc ∧ d.ccu.target = c.ccu.target ∧
  d.ccu.queue = c.ccu.queue ∧ d.ccu.requestCounter = c.ccu.requestCounter ∧ d.ccu.declarations = c.ccu.declarations ∧
  d.ccu.merges = c.ccu.merges ∧ d.ccu.lost = c.ccu.lost ∧ d.ccu.displaced = c.ccu.displaced ∧ d.sce = c.sce ∧
  d.tcu = c.tcu ∧ d.ord.expected = c.ord.expected ∧ d.ord.drainPending = c.ord.drainPending ∧
  d.ord.openOrders = c.ord.openOrders ∧ d.ord.takeRun = c.ord.takeRun ∧ d.ord.taken = c.ord.taken ∧
  d.ord.duplicates = c.ord.duplicates ∧ d.ord.torn = c.ord.torn ∧ d.dlv.image = c.dlv.image ∧ d.dlv.pick = c.dlv.pick ∧
  d.dlv.event = c.dlv.event ∧ d.dlv.pendingEvents = c.dlv.pendingEvents ∧ d.dlv.assembly = c.dlv.assembly ∧
  d.dlv.outgoing = c.dlv.outgoing ∧ d.dlv.selector = c.dlv.selector ∧ d.dlv.progress = c.dlv.progress ∧
  d.dlv.updateCount = c.dlv.updateCount ∧ d.dlv.epochCount = c.dlv.epochCount ∧ d.dlv.epochShown = c.dlv.epochShown ∧
  d.dlv.faultUnshown = c.dlv.faultUnshown ∧ d.dlv.counters = c.dlv.counters ∧ d.freeUses = c.freeUses

/-- The frame of `succeedBinding`. -/
@[simp] theorem succeedBinding_frame (k : Binding) (c : Chip) : Kept.bySucceedBinding c (succeedBinding k c) := by
  and_intros <;> (unfold succeedBinding; (try dsimp only); (repeat' split) <;> simp)

/-- The frame of `completeBinding`. -/
@[simp] theorem completeBinding_frame (c : Chip) : Kept.bySucceedBinding c (completeBinding c) := by
  and_intros <;> (unfold completeBinding; (repeat' split) <;> simp)

/-- What `progressAnswered` keeps. -/
abbrev Kept.byProgressAnswered (c d : Chip) : Prop :=
  d.rgp.haltSource = c.rgp.haltSource ∧ d.rgp.autoStrap = c.rgp.autoStrap ∧ d.rgp.dirselStrap = c.rgp.dirselStrap ∧
  d.rgp.lastCode = c.rgp.lastCode ∧ d.rgp.acceptance = c.rgp.acceptance ∧ d.rgp.dirbase = c.rgp.dirbase ∧
  d.rgp.mask = c.rgp.mask ∧ d.rgp.resetHeld = c.rgp.resetHeld ∧ d.rgp.layout = c.rgp.layout ∧
  d.mpt.windows = c.mpt.windows ∧ d.mpt.records = c.mpt.records ∧ d.mpt.overflow = c.mpt.overflow ∧
  d.mpt.onBus = c.mpt.onBus ∧ d.mpt.lastGrant = c.mpt.lastGrant ∧ d.lki.horizon = c.lki.horizon ∧ d.chc = c.chc ∧
  d.ccu.target = c.ccu.target ∧ d.ccu.queue = c.ccu.queue ∧ d.ccu.requestCounter = c.ccu.requestCounter ∧
  d.ccu.declarations = c.ccu.declarations ∧ d.ccu.merges = c.ccu.merges ∧ d.ccu.lost = c.ccu.lost ∧
  d.ccu.displaced = c.ccu.displaced ∧ d.sce = c.sce ∧ d.tcu = c.tcu ∧ d.ord.expected = c.ord.expected ∧
  d.ord.drainPending = c.ord.drainPending ∧ d.ord.openOrders = c.ord.openOrders ∧ d.ord.takeRun = c.ord.takeRun ∧
  d.ord.taken = c.ord.taken ∧ d.ord.duplicates = c.ord.duplicates ∧ d.ord.torn = c.ord.torn ∧
  d.dlv.image = c.dlv.image ∧ d.dlv.pendingEvents = c.dlv.pendingEvents ∧ d.dlv.assembly = c.dlv.assembly ∧
  d.dlv.outgoing = c.dlv.outgoing ∧ d.dlv.selector = c.dlv.selector ∧ d.dlv.updateCount = c.dlv.updateCount ∧
  d.dlv.epochCount = c.dlv.epochCount ∧ d.dlv.faultUnshown = c.dlv.faultUnshown ∧ d.freeUses = c.freeUses

/-- The frame of `progressAnswered`. -/
@[simp] theorem progressAnswered_frame (_a : Access) (_result : Option (List Byte)) (c : Chip) :
    Kept.byProgressAnswered c (progressAnswered _a _result c) := by
  and_intros <;> (unfold progressAnswered; (repeat' split) <;> simp)

end Sys2Proof.Machine
end

