-- ==== Sys2Proof/Laws/Cells.lean ====
section
/-! SUPPORT. The laws of the helpers every block uses: the canonical lists of cells that stand for on-chip memories, the
change of one item of a list, and the counters. -/

namespace Sys2Proof.Machine

/-! ## Memories -/

/-- A form canonical from a key is canonical from any lower key. -/
theorem cellsFrom_mono {α : Type} [DecidableEq α] (d : α) (m : List (Nat × α)) (lo lo' : Nat) (h : lo' ≤ lo)
    (hm : cellsFrom d lo m = true) : cellsFrom d lo' m = true := by
  cases m with
  | nil => rfl
  | cons e m =>
    simp only [cellsFrom, Bool.and_eq_true, decide_eq_true_eq] at hm ⊢
    exact ⟨⟨by omega, hm.1.2⟩, hm.2⟩

/-- Below its lowest key a canonical memory reads as an unlisted place does. -/
theorem cellRead_below {α : Type} [DecidableEq α] (d : α) (m : List (Nat × α)) (lo i : Nat) (h : i < lo)
    (hm : cellsFrom d lo m = true) : cellRead d m i = d := by
  cases m with
  | nil => rfl
  | cons e m =>
    simp only [cellsFrom, Bool.and_eq_true, decide_eq_true_eq] at hm
    simp only [cellRead]
    rw [if_neg (by omega), if_pos (by omega)]

/-- A write at or above a key keeps the form canonical from that key. -/
theorem cellWrite_from {α : Type} [DecidableEq α] (d : α) (m : List (Nat × α)) (lo i : Nat) (v : α) (h : lo ≤ i)
    (hm : cellsFrom d lo m = true) : cellsFrom d lo (cellWrite d m i v) = true := by
  induction m generalizing lo with
  | nil => unfold cellWrite; split <;> simp_all [cellsFrom]
  | cons e m ih =>
    simp only [cellsFrom, Bool.and_eq_true, decide_eq_true_eq] at hm
    obtain ⟨⟨h1, h2⟩, h3⟩ := hm
    unfold cellWrite
    split
    · split
      · simp_all [cellsFrom]
      · rename_i hlt hv
        simp only [cellsFrom, Bool.and_eq_true, decide_eq_true_eq]
        exact ⟨⟨h, hv⟩, ⟨by omega, h2⟩, h3⟩
    · split
      · rename_i _ he
        split
        · exact cellsFrom_mono d m _ _ (by omega) h3
        · rename_i hv
          simp only [cellsFrom, Bool.and_eq_true, decide_eq_true_eq]
          exact ⟨⟨h, hv⟩, he ▸ h3⟩
      · simp only [cellsFrom, Bool.and_eq_true, decide_eq_true_eq]
        exact ⟨⟨h1, h2⟩, ih _ (by omega) h3⟩

/-- A write keeps a memory in its canonical form. -/
theorem cellWrite_wf {α : Type} [DecidableEq α] (d : α) (m : List (Nat × α)) (i : Nat) (v : α)
    (hm : cellsWf d m = true) : cellsWf d (cellWrite d m i v) = true :=
  cellWrite_from d m 0 i v (Nat.zero_le i) hm

/-- A place that has been written reads as the value written. -/
theorem cellRead_cellWrite_same {α : Type} [DecidableEq α] (d : α) (m : List (Nat × α)) (lo i : Nat) (v : α)
    (hm : cellsFrom d lo m = true) : cellRead d (cellWrite d m i v) i = v := by
  induction m generalizing lo with
  | nil => unfold cellWrite; split <;> simp_all [cellRead]
  | cons e m ih =>
    simp only [cellsFrom, Bool.and_eq_true, decide_eq_true_eq] at hm
    unfold cellWrite
    split
    · split
      · rename_i hlt hv
        simp only [cellRead]
        rw [if_neg (by omega), if_pos hlt, hv]
      · simp [cellRead]
    · split
      · rename_i _ he
        split
        · rename_i hv
          rw [hv]
          exact cellRead_below d m _ i (by omega) hm.2
        · simp [cellRead]
      · rename_i hlt hne
        simp only [cellRead, if_neg hne, if_neg hlt]
        exact ih _ hm.2

/-- A write leaves every other place as it was. -/
theorem cellRead_cellWrite_other {α : Type} [DecidableEq α] (d : α) (m : List (Nat × α)) (lo i j : Nat) (v : α)
    (hj : j ≠ i) (hm : cellsFrom d lo m = true) : cellRead d (cellWrite d m i v) j = cellRead d m j := by
  induction m generalizing lo with
  | nil =>
    unfold cellWrite
    split
    · rfl
    · simp [cellRead, hj]
  | cons e m ih =>
    simp only [cellsFrom, Bool.and_eq_true, decide_eq_true_eq] at hm
    unfold cellWrite
    split
    · split
      · rfl
      · rename_i hlt hv
        simp only [cellRead, if_neg hj]
        split
        · rw [if_neg (by omega), if_pos (by omega)]
        · rfl
    · split
      · rename_i _ he
        split
        · simp only [cellRead]
          rw [if_neg (by omega)]
          split
          · exact cellRead_below d m _ j (by omega) hm.2
          · rfl
        · simp only [cellRead, if_neg hj, if_neg (he ▸ hj)]
          split
          · rw [if_pos (by omega)]
          · rw [if_neg (by omega)]
      · simp only [cellRead]
        split
        · rfl
        · split
          · rfl
          · exact ih _ hm.2

/-! ## One item of a list -/

/-- A change of one item keeps the length. -/
@[simp] theorem modifyAt_length {α : Type} (f : α → α) (l : List α) (i : Nat) : (modifyAt f l i).length = l.length := by
  induction l generalizing i with
  | nil => rfl
  | cons a l ih => cases i <;> simp [modifyAt, ih]

/-- What a change of one item leaves at each place. -/
theorem modifyAt_getElem? {α : Type} (f : α → α) (l : List α) (i j : Nat) :
    (modifyAt f l i)[j]? = if j = i then (l[j]?).map f else l[j]? := by
  induction l generalizing i j with
  | nil => simp [modifyAt]
  | cons a l ih => cases i <;> cases j <;> simp [modifyAt, ih]

/-- Putting an item is `List.set`. -/
theorem modifyAt_const {α : Type} (x : α) (l : List α) (i : Nat) : modifyAt (fun _ => x) l i = l.set i x := by
  induction l generalizing i with
  | nil => rfl
  | cons a l ih => cases i <;> simp [modifyAt, ih]

/-- A change of one item that is there is `List.set` of the changed item. -/
theorem modifyAt_some {α : Type} (f : α → α) (l : List α) (i : Nat) (x : α) (h : l[i]? = some x) :
    modifyAt f l i = l.set i (f x) := by
  induction l generalizing i with
  | nil => rfl
  | cons a l ih =>
    cases i with
    | zero => simp_all [modifyAt]
    | succ i => simp_all [modifyAt]

/-! ## Numbers and counters -/

/-- The numbers from a start. -/
theorem mem_numbersFrom (start n k : Nat) : k ∈ numbersFrom start n ↔ start ≤ k ∧ k < start + n := by
  induction n generalizing start with
  | zero => simp [numbersFrom]
  | succ n ih => simp only [numbersFrom, List.mem_cons, ih]; omega

/-- A counter below its largest value counts; at its largest value it stays. -/
theorem addCount_toNat (c : Word32) (n : Nat) : (addCount c n).toNat = min (c.toNat + n) counterMax := by
  simp only [addCount, BitVec.toNat_ofNat, counterMax]
  omega

/-- Counting 0 keeps a counter. -/
@[simp] theorem addCount_zero (c : Word32) : addCount c 0 = c := by
  apply BitVec.eq_of_toNat_eq
  have := c.isLt
  rw [addCount_toNat]
  simp only [counterMax]
  omega

end Sys2Proof.Machine
end

