-- ==== Sys2Proof/Laws/PortCommandsFrame.lean ====
section
/-! SUPPORT. The frames of the effects of the register port: for each, the parts of the state it keeps. A relation
`Kept.by…` names the blocks and fields kept, and is cited for every operation that keeps exactly those. -/

namespace Sys2Proof.Machine

/-- What `noteControl` keeps. -/
abbrev Kept.byNoteControl (c d : Chip) : Prop :=
  d.rgp.partState = c.rgp.partState ∧
  d.rgp.bindResult = c.rgp.bindResult ∧ d.rgp.haltSource = c.rgp.haltSource ∧ d.rgp.autoStrap = c.rgp.autoStrap ∧
  d.rgp.dirselStrap = c.rgp.dirselStrap ∧ d.rgp.dirbase = c.rgp.dirbase ∧ d.rgp.cause = c.rgp.cause ∧
  d.rgp.mask = c.rgp.mask ∧ d.rgp.resetHeld = c.rgp.resetHeld ∧ d.rgp.binding = c.rgp.binding ∧
  d.rgp.layout = c.rgp.layout ∧ d.mpt = c.mpt ∧ d.lki = c.lki ∧ d.chc = c.chc ∧ d.ccu = c.ccu ∧ d.sce = c.sce ∧
  d.tcu = c.tcu ∧ d.ord = c.ord ∧ d.dlv = c.dlv ∧ d.freeUses = c.freeUses ∧ d.active = c.active

/-- The frame of `noteControl`. -/
@[simp] theorem noteControl_frame (code : BitVec 8) (a : Acceptance) (c : Chip) :
    Kept.byNoteControl c (noteControl code a c) := by
  and_intros
  all_goals first
    | (simp [noteControl]; done)
    | (simp [noteControl, Chip.active])

/-- What `bindEffect` keeps. -/
abbrev Kept.byBindEffect (c d : Chip) : Prop :=
  d.rgp.autoStrap = c.rgp.autoStrap ∧
  d.rgp.dirselStrap = c.rgp.dirselStrap ∧ d.rgp.lastCode = c.rgp.lastCode ∧ d.rgp.acceptance = c.rgp.acceptance ∧
  d.rgp.dirbase = c.rgp.dirbase ∧ d.rgp.mask = c.rgp.mask ∧ d.rgp.resetHeld = c.rgp.resetHeld ∧
  d.freeUses = c.freeUses

/-- The frame of `bindEffect`. -/
@[simp] theorem bindEffect_frame (c : Chip) : Kept.byBindEffect c (bindEffect c) := by
  and_intros <;> simp [bindEffect]

/-- The frame of `nudgeEffect`. -/
@[simp] theorem nudgeEffect_frame (c : Chip) : Kept.byBeginPoll c (nudgeEffect c) := by
  and_intros <;> simp [nudgeEffect]

/-- What `writeDirbase` keeps. -/
abbrev Kept.byWriteDirbase (c d : Chip) : Prop :=
  d.rgp.partState = c.rgp.partState ∧
  d.rgp.bindResult = c.rgp.bindResult ∧ d.rgp.haltSource = c.rgp.haltSource ∧ d.rgp.autoStrap = c.rgp.autoStrap ∧
  d.rgp.dirselStrap = c.rgp.dirselStrap ∧ d.rgp.lastCode = c.rgp.lastCode ∧ d.rgp.acceptance = c.rgp.acceptance ∧
  d.rgp.cause = c.rgp.cause ∧ d.rgp.mask = c.rgp.mask ∧ d.rgp.resetHeld = c.rgp.resetHeld ∧
  d.rgp.binding = c.rgp.binding ∧ d.rgp.layout = c.rgp.layout ∧ d.mpt = c.mpt ∧ d.lki = c.lki ∧ d.chc = c.chc ∧
  d.ccu = c.ccu ∧ d.sce = c.sce ∧ d.tcu = c.tcu ∧ d.ord = c.ord ∧ d.dlv = c.dlv ∧ d.freeUses = c.freeUses ∧
  d.active = c.active

/-- The frame of `writeDirbase`. -/
@[simp] theorem writeDirbase_frame (hi : Bool) (value : Word32) (c : Chip) :
    Kept.byWriteDirbase c (writeDirbase hi value c) := by
  and_intros
  all_goals first
    | (unfold writeDirbase; (repeat' split) <;> simp)
    | (unfold writeDirbase; (repeat' split) <;> simp [Chip.active])

/-- What `listenEffect` keeps. -/
abbrev Kept.byListenEffect (c d : Chip) : Prop :=
  d.rgp.bindResult = c.rgp.bindResult ∧ d.rgp.haltSource = c.rgp.haltSource ∧ d.rgp.autoStrap = c.rgp.autoStrap ∧
  d.rgp.dirselStrap = c.rgp.dirselStrap ∧ d.rgp.lastCode = c.rgp.lastCode ∧ d.rgp.acceptance = c.rgp.acceptance ∧
  d.rgp.dirbase = c.rgp.dirbase ∧ d.rgp.mask = c.rgp.mask ∧ d.rgp.resetHeld = c.rgp.resetHeld ∧
  d.rgp.binding = c.rgp.binding ∧ d.rgp.layout = c.rgp.layout ∧ d.mpt = c.mpt ∧ d.lki.horizon = c.lki.horizon ∧
  d.chc = c.chc ∧ d.ccu.target = c.ccu.target ∧ d.ccu.queue = c.ccu.queue ∧
  d.ccu.requestCounter = c.ccu.requestCounter ∧ d.ccu.declarations = c.ccu.declarations ∧ d.ccu.merges = c.ccu.merges ∧
  d.ccu.lost = c.ccu.lost ∧ d.ccu.displaced = c.ccu.displaced ∧ d.sce = c.sce ∧ d.tcu = c.tcu ∧ d.ord = c.ord ∧
  d.dlv.image = c.dlv.image ∧ d.dlv.pick = c.dlv.pick ∧ d.dlv.event = c.dlv.event ∧
  d.dlv.pendingEvents = c.dlv.pendingEvents ∧ d.dlv.returnRead = c.dlv.returnRead ∧ d.dlv.reread = c.dlv.reread ∧
  d.dlv.assembly = c.dlv.assembly ∧ d.dlv.outgoing = c.dlv.outgoing ∧ d.dlv.selector = c.dlv.selector ∧
  d.dlv.progress = c.dlv.progress ∧ d.dlv.updateCount = c.dlv.updateCount ∧ d.dlv.epochCount = c.dlv.epochCount ∧
  d.dlv.epochShown = c.dlv.epochShown ∧ d.dlv.faultUnshown = c.dlv.faultUnshown ∧ d.dlv.counters = c.dlv.counters ∧
  d.freeUses = c.freeUses

/-- The frame of `listenEffect`. -/
@[simp] theorem listenEffect_frame (c : Chip) : Kept.byListenEffect c (listenEffect c) := by
  and_intros <;> simp [listenEffect]

/-- What `haltDetection` keeps. -/
abbrev Kept.byHaltDetection (c d : Chip) : Prop :=
  d.rgp.partState = c.rgp.partState ∧ d.rgp.bindResult = c.rgp.bindResult ∧ d.rgp.haltSource = c.rgp.haltSource ∧
  d.rgp.autoStrap = c.rgp.autoStrap ∧ d.rgp.dirselStrap = c.rgp.dirselStrap ∧ d.rgp.lastCode = c.rgp.lastCode ∧
  d.rgp.acceptance = c.rgp.acceptance ∧ d.rgp.dirbase = c.rgp.dirbase ∧ d.rgp.mask = c.rgp.mask ∧
  d.rgp.resetHeld = c.rgp.resetHeld ∧ d.rgp.binding = c.rgp.binding ∧ d.rgp.layout = c.rgp.layout ∧
  d.mpt.windows = c.mpt.windows ∧ d.mpt.records = c.mpt.records ∧ d.mpt.overflow = c.mpt.overflow ∧
  d.mpt.onBus = c.mpt.onBus ∧ d.mpt.lastGrant = c.mpt.lastGrant ∧ d.lki.horizon = c.lki.horizon ∧ d.chc = c.chc ∧
  d.sce = c.sce ∧ d.tcu = c.tcu ∧ d.ord.expected = c.ord.expected ∧ d.ord.drainPending = c.ord.drainPending ∧
  d.ord.poll = c.ord.poll ∧ d.ord.repeatMark = c.ord.repeatMark ∧ d.ord.timer = c.ord.timer ∧
  d.ord.polls = c.ord.polls ∧ d.ord.taken = c.ord.taken ∧ d.ord.duplicates = c.ord.duplicates ∧
  d.ord.torn = c.ord.torn ∧ d.dlv.image = c.dlv.image ∧ d.dlv.assembly = c.dlv.assembly ∧
  d.dlv.outgoing = c.dlv.outgoing ∧ d.dlv.selector = c.dlv.selector ∧ d.dlv.progress = c.dlv.progress ∧
  d.dlv.updateCount = c.dlv.updateCount ∧ d.dlv.epochCount = c.dlv.epochCount ∧ d.dlv.epochShown = c.dlv.epochShown ∧
  d.dlv.faultUnshown = c.dlv.faultUnshown ∧ d.freeUses = c.freeUses ∧ d.active = c.active

/-- The frame of `haltDetection`. -/
@[simp] theorem haltDetection_frame (c : Chip) : Kept.byHaltDetection c (haltDetection c) := by
  and_intros
  all_goals first
    | (simp [haltDetection]; done)
    | (simp [haltDetection, Chip.active])

/-- What `stopEffect` keeps. -/
abbrev Kept.byStopEffect (c d : Chip) : Prop :=
  d.rgp.bindResult = c.rgp.bindResult ∧ d.rgp.haltSource = c.rgp.haltSource ∧ d.rgp.autoStrap = c.rgp.autoStrap ∧
  d.rgp.dirselStrap = c.rgp.dirselStrap ∧ d.rgp.lastCode = c.rgp.lastCode ∧ d.rgp.acceptance = c.rgp.acceptance ∧
  d.rgp.dirbase = c.rgp.dirbase ∧ d.rgp.mask = c.rgp.mask ∧ d.rgp.resetHeld = c.rgp.resetHeld ∧
  d.rgp.binding = c.rgp.binding ∧ d.rgp.layout = c.rgp.layout ∧ d.mpt.windows = c.mpt.windows ∧
  d.mpt.records = c.mpt.records ∧ d.mpt.overflow = c.mpt.overflow ∧ d.mpt.onBus = c.mpt.onBus ∧
  d.mpt.lastGrant = c.mpt.lastGrant ∧ d.lki.horizon = c.lki.horizon ∧ d.chc = c.chc ∧ d.sce = c.sce ∧ d.tcu = c.tcu ∧
  d.ord.expected = c.ord.expected ∧ d.ord.drainPending = c.ord.drainPending ∧ d.ord.poll = c.ord.poll ∧
  d.ord.repeatMark = c.ord.repeatMark ∧ d.ord.timer = c.ord.timer ∧ d.ord.polls = c.ord.polls ∧
  d.ord.taken = c.ord.taken ∧ d.ord.duplicates = c.ord.duplicates ∧ d.ord.torn = c.ord.torn ∧
  d.dlv.image = c.dlv.image ∧ d.dlv.assembly = c.dlv.assembly ∧ d.dlv.outgoing = c.dlv.outgoing ∧
  d.dlv.selector = c.dlv.selector ∧ d.dlv.progress = c.dlv.progress ∧ d.dlv.updateCount = c.dlv.updateCount ∧
  d.dlv.epochCount = c.dlv.epochCount ∧ d.dlv.epochShown = c.dlv.epochShown ∧ d.dlv.faultUnshown = c.dlv.faultUnshown ∧
  d.freeUses = c.freeUses

/-- The frame of `stopEffect`. -/
@[simp] theorem stopEffect_frame (c : Chip) : Kept.byStopEffect c (stopEffect c) := by
  and_intros <;> (unfold stopEffect; (try dsimp only); (repeat' split) <;> simp)

end Sys2Proof.Machine
end

