-- ==== Sys2Proof/Laws/LinkEventsFrame.lean ====
section
/-! SUPPORT. The frames of the events of the links: for each, the parts of the state it keeps. A relation
`Kept.by…` names the blocks and fields kept, and is cited for every operation that keeps exactly those. -/

namespace Sys2Proof.Machine

/-- The frame of `badLimitEvent`. -/
@[simp] theorem badLimitEvent_frame (n : Nat) (c : Chip) : Kept.bySettle c (badLimitEvent n c) := by
  and_intros <;> (unfold badLimitEvent; (repeat' split) <;> simp)

/-- The frame of `silenceEvent`. -/
@[simp] theorem silenceEvent_frame (n : Nat) (c : Chip) : Kept.bySettle c (silenceEvent n c) := by
  and_intros <;> (unfold silenceEvent; (repeat' split) <;> simp)

end Sys2Proof.Machine
end

