-- ==== Sys2Proof/Laws/Ops.lean ====
section
/-! SUPPORT. What the shared operations do, each said once: the grant of the bus and the end of a step, the forms of a
step, the fault records, and the run of the scan engine. -/

namespace Sys2Proof.Machine

/-! ## The grant (R169) -/

/-- A grant among some blocks changes the waits and the bus alone. -/
theorem grantAmong_frame (l : List Requester) (m : Mpt) :
    (grantAmong l m).windows = m.windows ∧ (grantAmong l m).records = m.records ∧
      (grantAmong l m).overflow = m.overflow := by
  induction l with
  | nil => exact ⟨rfl, rfl, rfl⟩
  | cons b rest ih =>
    unfold grantAmong
    split
    · exact ih
    · cases b <;> exact ⟨rfl, rfl, rfl⟩

/-- A grant changes no window and no fault record. -/
@[simp] theorem Mpt.grant_frame (m : Mpt) :
    m.grant.windows = m.windows ∧ m.grant.records = m.records ∧ m.grant.overflow = m.overflow := by
  unfold Mpt.grant
  split
  · exact ⟨rfl, rfl, rfl⟩
  · exact grantAmong_frame _ _

/-- A grant among some blocks leaves an access on the bus, or finds each of them with nothing waiting and changes
nothing. -/
theorem grantAmong_onBus (l : List Requester) (m : Mpt) :
    (grantAmong l m).onBus.isSome = true ∨ ((∀ b ∈ l, m.waits b = []) ∧ grantAmong l m = m) := by
  induction l with
  | nil => exact .inr ⟨by simp, rfl⟩
  | cons b rest ih =>
    unfold grantAmong
    split
    · rename_i h
      rcases ih with h1 | ⟨h1, h2⟩
      · exact .inl h1
      · exact .inr ⟨by simpa [h] using h1, h2⟩
    · exact .inl rfl

/-- After a grant the bus carries an access if any request waits. -/
theorem Mpt.grant_onBus (m : Mpt) : m.grant.onBus.isSome = true ∨ m.grant.nothingWaits := by
  unfold Mpt.grant
  split
  · rename_i h; exact .inl (by simp [h])
  · rcases grantAmong_onBus [m.lastGrant.after, m.lastGrant.after.after, m.lastGrant.after.after.after,
        m.lastGrant.after.after.after.after] m with h | ⟨h, h'⟩
    · exact .inl h
    · refine .inr ?_
      simp only [h']
      cases hg : m.lastGrant <;> simp_all [Requester.after, Mpt.waits, Mpt.nothingWaits]

/-- A grant with nothing to grant, or with the bus taken, changes nothing. -/
theorem Mpt.grant_eq_self (m : Mpt) (h : m.onBus.isSome = true ∨ m.nothingWaits) : m.grant = m := by
  unfold Mpt.grant
  split
  · rfl
  · rename_i h1
    rcases h with h | h
    · simp [h1] at h
    · obtain ⟨h1, h2, h3, h4⟩ := h
      cases hg : m.lastGrant <;> simp [Requester.after, grantAmong, Mpt.waits, h1, h2, h3, h4]

/-- A grant of a free bus among some blocks loses no access. -/
theorem grantAmong_carries (l : List Requester) (m : Mpt) (a : Access) (h0 : m.onBus = none) (h : m.carries a) :
    (grantAmong l m).carries a := by
  induction l with
  | nil => exact h
  | cons b rest ih =>
    unfold grantAmong
    split
    · exact ih
    · rename_i x l hw
      cases b <;> simp only [Mpt.waits] at hw <;> simp only [Mpt.carries, Mpt.setWaits, h0, hw] at h ⊢ <;>
        simp only [reduceCtorEq, false_or, List.mem_cons, Option.some.injEq] at h ⊢ <;> grind

/-- A grant loses no access. -/
theorem Mpt.grant_carries (m : Mpt) (a : Access) (h : m.carries a) : m.grant.carries a := by
  unfold Mpt.grant
  split
  · exact h
  · rename_i h0
    exact grantAmong_carries _ m a h0 h

/-! ## The end of a step (R164, R169) -/

/-- With no progress block write to begin the end of a step is the grant. -/
theorem concludeStep_of_notAsked (c : Chip) (h : c.dlv.progressAsked = false) :
    concludeStep c = { c with mpt := c.mpt.grant } := by simp [concludeStep, startAsked, h, Chip.onMpt]

/-- The end of a step leaves a settled part as it is. -/
theorem concludeStep_of_settled (c : Chip) (h : c.settled) : concludeStep c = c := by
  rw [concludeStep_of_notAsked c h.1, Mpt.grant_eq_self c.mpt h.2]

/-- The beginning of a progress block write leaves none to begin. -/
@[simp] theorem startAsked_progressAsked (c : Chip) : (startAsked c).dlv.progressAsked = false := by
  unfold startAsked
  split
  · dsimp only
    split <;> rfl
  · simp_all

/-! ## The forms of a step -/

/-- A command that changes the part alone always answers a next state. -/
theorem commandStep_next (f : Chip → Chip) (c : Chip) (q : List Instr) :
    commandStep f ⟨c, q⟩ = .next ⟨concludeStep (f c), q⟩ := rfl

/-- A register write while the reset pin is not held. -/
theorem registerWrite_released (f : Chip → Chip) (c : Chip) (q : List Instr) (h : c.rgp.resetHeld = false) :
    registerWrite f ⟨c, q⟩ = .next ⟨concludeStep (f c), q⟩ := by simp [registerWrite, commandStep, h]

/-- A register write while the reset pin is held. -/
theorem registerWrite_held (f : Chip → Chip) (c : Chip) (q : List Instr) (h : c.rgp.resetHeld = true) :
    registerWrite f ⟨c, q⟩ = .next ⟨concludeStep c, q⟩ := by simp [registerWrite, commandStep, h]

/-- The answer with data to the read on the bus. -/
theorem answerRead_data (isFor : Purpose → Bool) (handler : Access → Option (List Byte) → Chip → Chip) (c : Chip)
    (q : List Instr) (a : Access) (b : List Byte) (h : c.mpt.onBus = some a) (hf : isFor a.purpose = true)
    (hl : b.length = a.len) :
    answerRead isFor handler (.data b) ⟨c, q⟩ = .next ⟨accessEnds handler a (some b) c, q⟩ := by
  simp [answerRead, h, hf, hl]

/-- The error answer to the read on the bus. -/
theorem answerRead_error (isFor : Purpose → Bool) (handler : Access → Option (List Byte) → Chip → Chip) (c : Chip)
    (q : List Instr) (a : Access) (h : c.mpt.onBus = some a) (hf : isFor a.purpose = true) :
    answerRead isFor handler .error ⟨c, q⟩ = .next ⟨accessEnds handler a none c, q⟩ := by
  simp [answerRead, h, hf]

/-- The answer to the write on the bus. -/
theorem answerWrite_on (isFor : Purpose → Bool) (handler : Access → Option (List Byte) → Chip → Chip) (ok : Bool)
    (c : Chip) (q : List Instr) (a : Access) (h : c.mpt.onBus = some a) (hf : isFor a.purpose = true) :
    answerWrite isFor handler ok ⟨c, q⟩ = .next ⟨accessEnds handler a (if ok then some [] else none) c, q⟩ := by
  simp [answerWrite, h, hf]

/-- An access that ends with data in a part that is not FAULTED: the block that asked acts on it. -/
theorem accessEnds_data (handler : Access → Option (List Byte) → Chip → Chip) (a : Access) (b : List Byte) (c : Chip)
    (h : c.rgp.partState ≠ .faulted) :
    accessEnds handler a (some b) c = concludeStep (handler a (some b) (freeBus c)) := by
  simp [accessEnds, accessResult, freeBus, h]

/-- An access that ends in FAULTED changes the memory port alone, and with an error FAULT. -/
theorem accessEnds_faulted (handler : Access → Option (List Byte) → Chip → Chip) (a : Access)
    (r : Option (List Byte)) (c : Chip) (h : c.rgp.partState = .faulted) :
    accessEnds handler a r c = concludeStep (if r.isSome then freeBus c
      else recordFaultNow (faultSourceOf a.purpose) .bus a.addr (freeBus c)) := by
  cases r <;> simp [accessEnds, accessResult, freeBus, h]

/-- An access that fails in a part that is not FAULTED. -/
theorem accessEnds_error (handler : Access → Option (List Byte) → Chip → Chip) (a : Access) (c : Chip)
    (h : c.rgp.partState ≠ .faulted) :
    accessEnds handler a none c = concludeStep (accessFails handler a (freeBus c)) := by
  simp [accessEnds, accessResult, freeBus, h]

/-! ## The fault records (R172) -/

/-- With a valid record of the source that record counts once more. -/
theorem Mpt.record_again (src : FaultSource) (kind : FaultKind) (addr : Nat) (hz : Option Nat) (m : Mpt)
    (h : m.records.any (hasSource src) = true) :
    m.record src kind addr hz = { m with records := m.records.map (againIn src) } := by simp [Mpt.record, h]

/-- Where a record is put: the lowest-numbered free place. -/
theorem putFree_spec (f : FaultRecord) (l : List (Option FaultRecord)) :
    (putFree f l = none ∧ none ∉ l) ∨
      ∃ n, putFree f l = some (l.set n (some f)) ∧ l[n]? = some none ∧ ∀ k < n, l[k]? ≠ some none := by
  induction l with
  | nil => exact .inl ⟨rfl, by simp⟩
  | cons a l ih =>
    cases a with
    | none => exact .inr ⟨0, rfl, rfl, by omega⟩
    | some g =>
      rcases ih with ⟨h, hn⟩ | ⟨n, h1, h2, h3⟩
      · exact .inl ⟨by simp [putFree, h], by simpa using hn⟩
      · refine .inr ⟨n + 1, by simp [putFree, h1], by simpa using h2, ?_⟩
        intro k hk
        cases k with
        | zero => simp
        | succ k => simpa using h3 k (by omega)

/-! ## The scan engine -/

/-- One action of the engine and the rest of its run. -/
theorem runEngine_succ (n : Nat) (task : EngineTask) (c : Chip) :
    runEngine (n + 1) task c =
      match (engineAction task c).2 with
      | some t => runEngine n t (engineAction task c).1
      | none => (engineAction task c).1 := by
  rw [runEngine]
  rcases engineAction task c with ⟨d, _ | t⟩ <;> rfl

/-- What every action of the engine keeps, its whole run keeps. -/
theorem runEngine_induct (P : Chip → Prop) (h : ∀ task c, P c → P (engineAction task c).1) (n : Nat) (task : EngineTask)
    (c : Chip) (hc : P c) : P (runEngine n task c) := by
  induction n generalizing task c with
  | zero => exact hc
  | succ n ih =>
    rw [runEngine_succ]
    split
    · exact ih _ _ (h _ _ hc)
    · exact h _ _ hc

/-- What every action of the engine keeps, the engine keeps. -/
theorem engine_induct (P : Chip → Prop) (h : ∀ task c, P c → P (engineAction task c).1) (task : EngineTask) (c : Chip)
    (hc : P c) : P (engine task c) := runEngine_induct P h _ _ _ hc

/-- What every action of the engine keeps, the engine keeps when it goes on. -/
theorem engineOn_induct (P : Chip → Prop) (h : ∀ task c, P c → P (engineAction task c).1)
    (x : Chip × Option EngineTask) (hx : P x.1) : P (engineOn x) := by
  obtain ⟨c, _ | t⟩ := x
  · exact hx
  · exact engine_induct P h t c hx

/-- The engine acts once and goes on with the rest of its run. -/
theorem engine_step (task : EngineTask) (c : Chip) :
    engine task c =
      match (engineAction task c).2 with
      | some t => runEngine 4194303 t (engineAction task c).1
      | none => (engineAction task c).1 := runEngine_succ 4194303 task c

end Sys2Proof.Machine
end

