-- ==== Sys2Proof/Tests/Slice0.lean ====
section
/-! SUPPORT. Small tests by evaluation: the well-formedness smoke tests, worked examples of the manual, and at most two
small runs for a command. -/

namespace Sys2Proof.Tests

open Sys2Proof Sys2Proof.Machine

-- One test at a time: a hundred kernel evaluations side by side ask for a thread each.
set_option Elab.async false

/-! ## Small states -/

/-- A part in a part state, otherwise as after reset, with areas at the bases of the tests. -/
def part (st : PartState) : Chip :=
  { Chip.atReset with
    rgp := { Rgp.atReset with
      partState := st
      layout := some ⟨0x1000, 0x2000, 0x3000, 0x6000, 0x7000, 0x8000, 0x9000, 0xA000, 0xB000, 0x10000, 0x90000⟩ } }

/-- The same part with a read of the given length on the bus. -/
def reading (p : Purpose) (len : Nat) (c : Chip) : Chip :=
  { c with mpt := { c.mpt with onBus := some (readAccess p 0x4000 len) } }

/-- The same part with a write on the bus. -/
def writing (p : Purpose) (c : Chip) : Chip :=
  { c with mpt := { c.mpt with onBus := some (writeAccess p 0x4000 [0, 0, 0, 0]) } }

/-- What a command leaves, seen through a view of the part. -/
def after {α : Type} (i : Instr) (c : Chip) (view : Chip → α) : Option α :=
  match exec i ⟨c, []⟩ with
  | .next t => some (view t.chip)
  | .fault _ => none
  | .refused _ => none

/-- A command answers a next state. -/
def completes (i : Instr) (c : Chip) : Bool := (after i c fun _ => ()).isSome

/-! ## Well-formedness: an ill-formed term for each check -/

theorem test_wf_refused_code : wellFormed (.refusedCode 2) = false ∧ wellFormed (.refusedCode 0x101) = true := by decide
theorem test_wf_ignored_offset :
    wellFormed (.ignoredRegisterWrite 0x04 1) = false ∧ wellFormed (.ignoredRegisterWrite 0x08 1) = true := by decide
theorem test_wf_idle_line :
    wellFormed (.hubFrameArrival 0 []) = false ∧ wellFormed (.hubFrameArrival 0 [true]) = false := by decide
theorem test_wf_directory : wellFormed (.directoryReadDone (.data [])) = false := by decide
theorem test_wf_bind_table : wellFormed (.bindTableReadDone (.data (List.replicate 65 0))) = false := by decide
theorem test_wf_row : wellFormed (.rowFetchDone (.data (List.replicate 511 0))) = false := by decide +kernel
theorem test_wf_refine : wellFormed (.refineReadDone (.data [0])) = false := by decide
theorem test_wf_slot : wellFormed (.orderSlotReadDone (.data [0])) = false := by decide
theorem test_wf_griddefs : wellFormed (.griddefsReloadDone (.data [0])) = false := by decide
theorem test_wf_stations : wellFormed (.stationsReloadDone (.data [0])) = false := by decide
theorem test_wf_hubs : wellFormed (.hubsReloadDone (.data [0])) = false := by decide
theorem test_wf_config : wellFormed (.configReloadDone (.data [0])) = false := by decide
theorem test_wf_return_block : wellFormed (.returnBlockReadDone (.data [0])) = false := by decide
theorem test_wf_raw_state : wellFormed (.rawStateReadDone (.data [0])) = false := by decide
theorem test_wf_reload : wellFormed (.reloadReadDone (.data [0])) = false ∧ wellFormed (.reloadReadDone .error) = true := by
  decide

/-! ## No word spells a command -/

theorem test_decode_none : decodeTableWord 32 15 = none ∧ State.reset.withFetchWord 32 15 = State.reset := by
  decide +kernel

/-! ## The register port -/

/-- R3, R179: ID, and a read beyond the registers. -/
theorem test_id : (part .listening).rgp.readRegister 0x00 = 0x02564C01 ∧ (part .bound).rgp.readRegister 0x1C = 0 := by
  decide
/-- R179: STATUS of a LISTENING part bound with AUTO and DIRSEL 2: state 3, result OK at bit 4, AUTO bit 12, DIRSEL bits
13 and 14. -/
theorem test_status :
    ({ Rgp.atReset with partState := .listening, bindResult := .ok, autoStrap := true, dirselStrap := 2 }).statusWord
      = 0x5013 := by decide
/-- R17: DIRSEL 2 is 32 MiB. -/
theorem test_power_on_auto :
    after (.powerOnReset true 2) Chip.atReset (fun d => (d.rgp.partState, d.rgp.dirbase, d.mpt.onBus)) =
      some (.binding, 0x2000000, some (readAccess .directory 0x2000000 256)) := by decide +kernel
theorem test_power_on_rest :
    after (.powerOnReset false 3) (part .listening) (fun d => (d.rgp.partState, d.rgp.dirbase, d.rgp.dirselStrap)) =
      some (.unbound, 0, 3) := by decide +kernel
theorem test_reset_clears_control :
    after (.reset false 0) { part .faulted with rgp := { (part .faulted).rgp with lastCode := 4, cause := 0x50 } }
      (fun d => (d.rgp.partState, d.rgp.controlWord, d.rgp.cause)) = some (.unbound, 0, 0) := by decide +kernel
/-- R17: a RESET while the pin is held is ignored. -/
theorem test_reset_held :
    after (.reset true 1) { Chip.atReset with rgp := { Rgp.atReset with resetHeld := true } }
      (fun d => (d.rgp.partState, d.rgp.autoStrap)) = some (.unbound, false) := by decide +kernel
theorem test_hold :
    after .powerOnResetHold (part .listening) (fun d => (d.rgp.partState, d.rgp.resetHeld)) = some (.unbound, true) := by
  decide +kernel
/-- R6: BIND in BOUND is refused while a record waits. -/
theorem test_bind_refused :
    after .bind { part .bound with dlv := { Dlv.atReset with pendingEvents := [⟨1, .marker 7⟩] } }
      (fun d => (d.rgp.partState, d.rgp.controlWord)) = some (.bound, 0x301) := by decide +kernel
theorem test_bind :
    after .bind (part .faulted) (fun d => (d.rgp.partState, d.rgp.controlWord, d.rgp.cause)) =
      some (.binding, 0x101, 0x40) := by decide +kernel
theorem test_listen :
    after .listen { part .bound with
        tcu := { Tcu.atReset with hubEntries := [some ⟨1, 16⟩, some ⟨1, 0⟩] ++ List.replicate 14 none } }
      (fun d => (d.rgp.partState, d.rgp.cause, d.lki.hubs.map Hub.state)) =
      some (.listening, 0x60, .seeking :: List.replicate 15 .disabled) := by decide +kernel
/-- R15, R75: STOP finishes the waiting requests STOPPED. -/
theorem test_stop :
    after .stop { part .listening with
        ccu := { Ccu.atReset with queue := [⟨5, none, 2, 900, 0, 0, 0, 500, 900, 2, 300, some 250, 4, 4, 0⟩] } }
      (fun d => (d.rgp.partState, d.ccu.queue, d.dlv.counters.stopped)) = some (.bound, [], 1) := by decide +kernel
theorem test_nudge :
    after .nudge (part .bound) (fun d => (d.ord.poll, d.ord.polls, d.dlv.returnRead, d.mpt.waitOrd.length)) =
      some (some [], 1, true, 31) := by decide +kernel
theorem test_nudge_refused : after .nudge (part .unbound) (fun d => d.rgp.controlWord) = some 0x304 := by decide +kernel
/-- R6: a value with a bit set above bit 7 is refused, and CONTROL shows its low eight bits. -/
theorem test_refused_code : after (.refusedCode 0x101) (part .bound) (fun d => d.rgp.controlWord) = some 0x201 := by
  decide +kernel
theorem test_refused_code_other_row : completes (.refusedCode 4) (part .bound) = false := by decide
theorem test_cause_write :
    after (.causeWrite 0x11) { part .bound with rgp := { (part .bound).rgp with cause := 0x53, mask := 0x10 } }
      (fun d => (d.rgp.cause, d.rgp.irq)) = some (0x42, false) := by decide +kernel
/-- R5: unmasking a bit already set asserts the line. -/
theorem test_mask_write :
    after (.maskWrite 0x1FF) { part .bound with rgp := { (part .bound).rgp with cause := 0x80 } }
      (fun d => (d.rgp.mask, d.rgp.irq)) = some (0xFF, true) := by decide +kernel
theorem test_dirbase_write :
    after (.dirbaseWrite false 0xFFFFFFFF) (part .bound) (fun d => d.rgp.dirbase) = some 0xFFFFFFC0 := by decide +kernel
theorem test_dirbase_high :
    after (.dirbaseWrite true 0x1FE) (part .unbound) (fun d => d.rgp.dirbase) = some 0xFE00000000 := by decide +kernel
theorem test_ignored_write : after (.ignoredRegisterWrite 0x1F 5) (part .bound) id = some (part .bound) := by
  decide +kernel
theorem test_ignored_other_row : completes (.ignoredRegisterWrite 0x14 5) (part .bound) = false := by decide

/-! ## Binding -/

/-- R11, check 5: released totals behind and beyond the written total. -/
theorem test_totals :
    totalsValid ⟨16, 10, 4294967290⟩ = true ∧ totalsValid ⟨16, 10, 20⟩ = false ∧ totalsValid ⟨16, 3, 4294967294⟩ = true := by
  decide
theorem test_directory_signature :
    after (.directoryReadDone (.data (List.replicate 256 0))) (reading .directory 256 (part .binding))
      (fun d => (d.rgp.partState, d.rgp.bindResult)) = some (.unbound, .badSignature) := by decide +kernel
theorem test_directory_error :
    after (.directoryReadDone .error) (reading .directory 256 (part .binding))
      (fun d => (d.rgp.bindResult, d.rgp.cause, d.mpt.records.head?)) =
      some (.readFault, 0x50, some (some ⟨.bind, .bus, 0x4000, 1, none⟩)) := by decide +kernel
theorem test_bind_table_hub :
    after (.bindTableReadDone (.data (1 :: 16 :: List.replicate 30 0))) (reading (.bindHub 15) 32 (part .binding))
      (fun d => (d.tcu.hubEntries.getLast?, d.mpt.onBus)) =
      some (some (some ⟨1, 16⟩), some (readAccess (.bindStation 0) 0x3000 32)) := by decide +kernel
/-- R12: a settings block of zeros is BAD-CONFIG once the grids are in. -/
theorem test_bind_table_config :
    after (.bindTableReadDone (.data (List.replicate 64 0))) (reading (.bindGrid 3) 64 (part .binding))
      (fun d => (d.rgp.partState, d.rgp.bindResult)) = some (.unbound, .badConfig) := by decide +kernel
/-- R115, R169: data of another length than the read is no answer of the bus. -/
theorem test_answer_length : exec (.rowFetchDone (.data [])) ⟨reading (.row 0 0) 512 (part .bound), []⟩ = .fault .answerLength := by
  rfl

/-! ## The links -/

/-- The levels of a burst of bytes: a low start bit, eight bits with the least significant first, a high stop bit. -/
def burst (l : List Byte) : List Bool :=
  (l.map fun b => [false] ++ (List.range 8).map (fun i => b.getLsbD i) ++ [true]).flatten

/-- A frame of one lane with every sample 0, with its CRC. -/
def frame (hub seq status : Byte) (first : Nat) : List Byte :=
  let body := [hub, 1, seq, status] ++ leBytes 6 first ++ List.replicate 75 0
  [0xB6, 0xE1] ++ body ++ leBytes 2 (crcOf body).toNat

/-- The check value of this CRC over the nine digits, from the general literature on CRCs. -/
theorem test_crc : crcOf [0x31, 0x32, 0x33, 0x34, 0x35, 0x36, 0x37, 0x38, 0x39] = 0x29B1 := by decide +kernel
/-- R18, R181: bits ahead of the sync word are ignored, and ten high bit times end the burst. -/
theorem test_receive :
    frameOf (burst [0x00, 0xB6, 0xE1, 0x05] ++ List.replicate 9 true ++ burst [0x77]) = some [0xB6, 0xE1, 0x05] := by
  decide +kernel
theorem test_no_sync : frameOf (burst [0xE1, 0xB6, 0xB6]) = none := by decide +kernel

/-- A hub of the stall example: its state, next_tick and buffered first ticks. -/
def hubOf (st : HubState) (next : Nat) (ticks : List Nat) : Hub :=
  { Hub.atReset with
    state := st, nextTick := some next, lastSeq := some 0, silence := some 1000
    buffer := ticks.map fun t => ⟨t, 1, false, List.replicate 25 0⟩ }

/-- A LISTENING part with Lmax 100, H 200,000 and three hubs, and with no channels, so that its ticks settle cheaply. -/
def links (h0 h1 h2 : Hub) : Chip :=
  { part .listening with
    chc := { Chc.atReset with channels := [] }
    lki := ⟨[h0, h1, h2] ++ List.replicate 13 Hub.atReset, some 200000⟩
    tcu := { Tcu.atReset with
      settings := some ⟨100, 1000, 50, 4, 6, 9, 14, 250, 400, 2, 0, 300, 100, 1, 1, 1⟩
      hubEntries := List.replicate 16 (some ⟨1, 1⟩) } }

set_option maxRecDepth 100000 in
/-- Manual, A HUB STALL AND REJOIN, step 3: hub 2 is STALLED, H rises past it, and LINK is set. -/
theorem test_stall :
    after (.hubFrameArrival 1 (burst (frame 1 1 0 200100)))
      (links (hubOf .live 200075 [200000, 200025, 200050]) (hubOf .live 200100 [200000, 200025, 200050, 200075])
        (hubOf .live 200000 []))
      (fun d => d.lki.horizon == some 200075 && d.rgp.cause.getLsbD 5 &&
        (d.lki.hubs.take 3).map (fun h => (h.state, h.nextTick)) ==
          [(.live, some 200075), (.live, some 200125), (.stalled, some 200000)] &&
        (d.lki.hubs.take 3).map (fun h => h.buffer.map Frame.firstTick) == [[], [200075, 200100], []]) =
      some true := by decide +kernel
/-- Manual, TWO HUBS ACQUIRE, steps 3 and 4: a provisional frame stays in the buffer while H rises past it, and a pair
wholly below H is two late frames. A pair of which only the first lies below H is one. -/
theorem test_provisional_below_horizon :
    let p : Hub := { Hub.atReset with state := .seeking, buffer := [⟨49975, 16, false, []⟩], marker := some (49975, 200) }
    p.release 50050 = p ∧
      ((judgeAdmission 9 (some 50050) 49975 200 ⟨50000, 16, false, []⟩ 201 p).hub.counters.late,
        (judgeAdmission 9 (some 50000) 49975 200 ⟨50000, 16, false, []⟩ 201 p).hub.counters.late) = (2, 1) := by
  decide +kernel
set_option maxRecDepth 100000 in
/-- R24: the second of two tick-consecutive frames admits a hub, and H rises to its next_tick. -/
theorem test_admission :
    after (.hubFrameArrival 3 (burst (frame 3 8 0 50025)))
      { links Hub.atReset Hub.atReset Hub.atReset with
        lki := ⟨List.replicate 3 Hub.atReset ++ [{ Hub.atReset with
          state := .seeking, marker := some (50000, 6), buffer := [⟨50000, 1, false, List.replicate 25 0⟩] }] ++
          List.replicate 12 Hub.atReset, none⟩ }
      (fun d => d.lki.horizon == some 50050 &&
        ((d.lki.hubs.drop 3).head?.map fun h => (h.state, h.nextTick)) == some (.live, some 50050) &&
        ((d.lki.hubs.drop 3).head?.map fun h => (h.lastSeq, h.counters.slips)) == some (some 8, 1)) =
      some true := by decide +kernel
/-- R26, R28: the eighth bad frame takes a LIVE hub back to SEEKING. -/
theorem test_bad_frame_limit :
    after (.badFrameLimit 0) (links { hubOf .live 200025 [200000] with badCount := 8 } (hubOf .live 200050 []) Hub.atReset)
      (fun d => (d.lki.hubs.head?.map fun h => (h.state, h.nextTick, h.badCount), d.lki.horizon)) =
      some (some (.seeking, none, 0), some 200050) := by decide +kernel
theorem test_bad_frame_limit_not_reached :
    after (.badFrameLimit 0) (links { hubOf .live 200025 [] with badCount := 7 } Hub.atReset Hub.atReset)
      (fun d => d.lki.hubs.head?.map Hub.state) = some (some .live) := by decide +kernel
theorem test_silence :
    after (.silenceTimerExpiry 2) (links (hubOf .live 200000 []) Hub.atReset (hubOf .stalled 199900 []))
      (fun d => ((d.lki.hubs.drop 2).head?.map fun h => (h.state, h.silence), d.lki.horizon)) =
      some (some (.seeking, none), some 200000) := by decide +kernel

/-! ## Conditioning -/

/-- The values of channel 37 in the worked example of the conditioning chapter. -/
def ks3 : StationParams := ⟨3, 8, 100, 40, 24, 2000, 8, true⟩

/-- R45: S = 1 with A = 0 and ks = 3 becomes 0. -/
theorem test_average : stepAverage 1 0 3 = 0 ∧ stepAverage 16 16 3 = 16 := by decide
/-- R44: a difference of 2,000,000 is taken as 16,777,200. -/
theorem test_clip : inputLevel 2000000 = 16777200 ∧ inputLevel (-3) = 48 := by decide
/-- R47: the three cases of its table. -/
theorem test_cf : ratioCf 4000 800 100 = 40 ∧ ratioCf 4000 3200 100 = 20 ∧ ratioCf 800000 3000 100 = 254 := by decide
/-- R52: an equal CF leaves the peak tick at the earlier tick. -/
theorem test_peak_tie :
    (judgeTrigger 0 9 50 ks3 { Channel.atReset with
      params := some ks3, trigger := .on, onTick := some 7, peakCf := some 50, peakTick := some 8 }).1.peakTick = some 8 := by
  decide

/-! ## Conditioning: the worked figures -/

/-- Manual, A RISING ARRIVAL: channel 37 before tick 80,012. -/
def channel37 : Channel :=
  { Channel.atReset with
    params := some ⟨3, 8, 100, 48, 24, 1500, 3, true⟩, xPrev := some 1000, sta := 3200, lta := 3200, warm := 256 }

/-- S, L, the CF in the cell of a tick, and the trigger. -/
def figures (t : Nat) (ch : Channel) : Nat × Nat × Nat × Trigger :=
  (ch.sta, ch.lta, (historyCell ch t).toNat, ch.trigger)

/-- Manual, A RISING ARRIVAL, ticks 80,012 to 80,015. -/
theorem test_rising_arrival :
    let c0 := (condition 37 80012 (some 3000) channel37).1
    let c1 := (condition 37 80013 (some 7000) c0).1
    let c2 := (condition 37 80014 (some 9000) c1).1
    let c3 := (condition 37 80015 (some 9100) c2).1
    [figures 80012 c0, figures 80013 c1, figures 80014 c2, figures 80015 c3] =
        [(6800, 3312, 32, .off), (13950, 3549, 62, .on), (16206, 3549, 73, .on), (14380, 3549, 64, .on)] ∧
      c3.onTick = some 80013 ∧ c3.peakCf = some 73 ∧ c3.peakTick = some 80014 ∧ c3.lastOn = some 80013 := by
  decide +kernel

/-- Manual, ABSENCE AND RESTART, ticks 91,425 and 91,450. -/
theorem test_absence :
    let on := { channel37 with
      trigger := .on, onTick := some 91400, peakCf := some 70, peakTick := some 91402, sta := 6000, lta := 3000,
      xPrev := some 500 }
    let c0 := condition 37 91425 none on
    let c1 := (condition 37 91450 (some 800) c0.1).1
    c0.2 = some ⟨⟨37, 91400, 91425, 70, 91402, .cut⟩, true⟩ ∧ figures 91425 c0.1 = (6000, 3000, 255, .off) ∧
      figures 91450 c1 = (5250, 2988, 28, .off) := by decide +kernel

/-! ## Coincidence -/

/-- The settings of the coincidence examples, with a collapse window of 20. -/
def settings20 : Settings := ⟨100, 1000, 50, 4, 6, 9, 14, 20, 400, 2, 0, 300, 100, 1, 0, 0⟩

/-- A waiting request. -/
def waiting (number level : Nat) (order : Option (Nat × BitVec 8)) : Request :=
  ⟨number, order, level, 204310, 0, 0, 0, 203910, 204310, 2, 300, some 20, 4, 4, 0⟩

/-- Manual, A FULL QUEUE: the eight requests, none ripe. -/
def fullQueue : Chip :=
  { part .listening with
    tcu := { Tcu.atReset with settings := some settings20 }
    ccu := { Ccu.atReset with
      requestCounter := 137
      target := some ⟨137, 204310, 20⟩
      queue := [waiting 130 3 none, waiting 131 3 (some (4, 1)), waiting 132 2 none, waiting 133 3 none,
        waiting 134 1 none, waiting 135 2 (some (9, 2)), waiting 136 2 none, waiting 137 3 none] } }

/-- Manual, A FULL QUEUE, steps 1 and 3. -/
theorem test_full_queue :
    let c1 := crossing settings20 204352 6 fullQueue
    let c3 := crossing settings20 204401 4 (crossing settings20 204360 4 c1)
    c1.ccu.queue.map Request.number = [130, 131, 132, 133, 134, 135, 136, 138] ∧
      (c1.ccu.target, c1.ccu.declarations, c1.ccu.displaced) = (some ⟨138, 204352, 20⟩, 1, 1) ∧
      c3.ccu.queue.map Request.number = [130, 131, 132, 133, 134, 135, 136, 138] ∧
      (c3.ccu.merges, c3.ccu.lost, c3.ccu.requestCounter) = (1, 1, 138) ∧
      (c3.ccu.queue.getLast?.map fun r => (r.level, r.merged)) = some (2, 1) := by decide +kernel
/-- Manual, A FULL QUEUE, step 4: a SCAN order is BUSY. -/
theorem test_busy : (takeScanOrder 3 7 ⟨0, 0, 2, 0, 0, 0, 0⟩ fullQueue).2 = none := by decide +kernel

/-! ## The scan engine -/

/-- A running scan of one node at one origin time, over channels of these weights. -/
def scanOf (weights : List Nat) (phase : ScanPhase) : Scan :=
  { newScan ⟨118, none, 1, 1000, 0, 0, 0, 1000, 1000, 1, 300, none, 4, 4, 0⟩ weights ⟨1, 150, 30, 4, false, 0⟩ with
    phase := phase }

/-- A part with this scan in bank 0, H at 2,000, and these CFs of its first channels at tick 1,100. -/
def scanning (cfs : List (BitVec 8)) (sc : Scan) : Chip :=
  { part .listening with
    sce := { Sce.atReset with banks := [some sc, none, none, none] }
    lki := { Lki.atReset with horizon := some 2000 }
    chc := { Chc.atReset with channels := cfs.map fun v =>
      { Channel.atReset with history := if v = 255 then [] else [(1100, v)] } } }

/-- The row of the pair of the worked figures: four travel times of 100 ticks. -/
def row4 : List (BitVec 16) := [100, 100, 100, 100]

/-- Manual, ONE PAIR: the first read takes 2 × 60. -/
theorem test_cf_read :
    after .cfReadAnswer (scanning [60, 40, 255, 20] (scanOf [2, 1, 1, 3] (.stacking row4 1000 0 0 0 0)))
      (fun d => (runningBank d).map fun b => b.2.phase) = some (some (.stacking row4 1000 1 120 2 1)) := by decide +kernel
/-- Manual, ONE PAIR: the last read gives Q 36 with weight sum 6; the grid is undefined, so the row of the arrival list
is NONE, and the scan finishes LOCATED and leaves its bank. -/
theorem test_cf_last_read :
    after .cfReadAnswer (scanning [60, 40, 255, 20] (scanOf [2, 1, 1, 3] (.stacking row4 1000 3 160 3 2)))
      (fun d => (d.dlv.counters.located, anyInService d, d.dlv.event.sequence)) = some (1, false, 1) := by decide +kernel
theorem test_one_pair : pairBest (scanOf [2, 1, 1, 3] .boundary) 1000 220 6 3 = some ⟨0, 0, 1000, 36, 6, 3⟩ ∧
    pairBest (scanOf [2, 1, 1, 3] .boundary) 1000 160 3 2 = none := by decide
/-- R92: H decides before the cell does. -/
theorem test_read_limits : judgeRead (some 1100) Channel.atReset 1100 = .partialRead ∧
    judgeRead (some 5196) { Channel.atReset with history := [(1100, 7)] } 1100 = .present 7 ∧
    judgeRead (some 5197) { Channel.atReset with history := [(1100, 7)] } 1100 = .expired := by decide

/-- A row whose only travel time is the first channel's. -/
def rowBytes (tt : Nat) : List Byte := leBytes 2 tt ++ List.replicate 510 0xFF

/-- A definition of a grid: 64 MiB of rows, no refine table. -/
def grid (nodes ttmin half : Nat) : GridDef := ⟨nodes, 512, 0x4000000, 0, ttmin, 400, 30, half, 4⟩

/-- The part with a row fetch of node 0 of grid 0 in flight. -/
def fetching : Chip :=
  let c := scanning [60] (scanOf [2] .nodeRow)
  { c with tcu := { c.tcu with fetch := some ⟨0, 0, true⟩ } }

theorem test_row_fetch :
    after (.rowFetchDone (.data (rowBytes 100))) (reading (.row 0 0) 512 fetching)
      (fun d => (d.tcu.cache.length, d.tcu.fetch.isSome, (runningBank d).map fun b =>
        match b.2.phase with
        | .stacking row t0 ch _ _ _ => [travelTime row 0, travelTime row 255, t0, ch]
        | _ => [])) =
      some (1, false, some [100, 0xFFFF, 1000, 0]) := by decide +kernel
/-- R116: a failed fetch is answered with NONE and adds TABLE-FAULT; the scan has no peak and finishes EMPTY. -/
theorem test_row_fetch_error :
    after (.rowFetchDone .error) (reading (.row 0 0) 512 fetching)
      (fun d => (d.tcu.cache.length, d.dlv.counters.empty, d.mpt.records.head?)) =
      some (0, 1, some (some ⟨.rows, .bus, 0x4000, 1, some 2000⟩)) := by decide +kernel

/-- Manual, PREEMPTION BY A RAISED LEVEL: request 160 with its stage-1 peak at origin time 150,210, and request 161. -/
def preemption : Chip :=
  let c := part .listening
  let grids := [⟨some { grid 1600 150 0 with refineBase := 0x8000000 }, false⟩, ⟨none, false⟩, ⟨none, false⟩,
    ⟨some (grid 100 200 10), false⟩]
  { c with
    mpt := { c.mpt with windows := some ⟨⟨0, 0xFFFFFFFF⟩, ⟨0, 0xFFFFFFFF⟩⟩ }
    lki := { Lki.atReset with horizon := some 151325 }
    tcu := { Tcu.atReset with grids := grids, settings := some settings20 }
    ccu := { Ccu.atReset with
      queue := [⟨161, none, 1, 150980, 0, 0, 0, 150580, 150980, 2, 300, some 500, 4, 9, 1⟩]
      target := some ⟨161, 150980, 500⟩, requestCounter := 161 }
    sce := { Sce.atReset with banks := [some { scanOf [1] .refineEntry with
      request := ⟨160, none, 2, 150600, 0, 0, 0, 150200, 150600, 2, 300, some 500, 4, 4, 0⟩
      stage1 := some ⟨0, 7, 150210, 36, 118, 21⟩ }, none, none, none] } }

/-- Manual, PREEMPTION BY A RAISED LEVEL, steps 2 and 3. -/
theorem test_preemption :
    after (.refineReadDone (.data [3, 0, 40, 0, 9, 0, 0, 0])) (reading (.refine 0 7) 8 preemption)
      (fun d => d.sce.banks.map (fun b => b.map fun sc => [sc.request.number, sc.stage, sc.spanFirst, sc.spanLast, sc.cursor]) ==
          [some [160, 2, 150200, 150220, 40], some [161, 1, 150580, 150980, 0], none, none] &&
        (runningBank d).map Prod.fst == some 1 && d.ccu.queue == [] && d.sce.parks == 1 && d.sce.stage2Runs == 1) =
      some true := by decide +kernel
/-- Manual, PREEMPTION BY A RAISED LEVEL, steps 4 and 5: H has passed 154,496 and the resume is STALE. -/
theorem test_stale_at_resume :
    let sc := { scanOf [1] .boundary with
      running := false, captured := ⟨100, 200, 30, 4, false, 10⟩, spanFirst := 150200, spanLast := 150220 }
    let c := { preemption with
      lki := { Lki.atReset with horizon := some 154500 }, ccu := Ccu.atReset,
      sce := { Sce.atReset with banks := [some sc, none, none, none] } }
    let d := engine .select c
    (d.dlv.counters.stale, d.sce.resumes, anyInService d) = (1, 1, false) ∧
      staleScan (some 154475) 150200 200 = false := by decide +kernel

/-! ## Tables -/

/-- Manual, A NODES INVALIDATION DURING STAGE 2, steps 4 and 5, with three rows of the scope and one other cached. -/
theorem test_nodes_invalidation :
    let c := { scanning [60] { scanOf [2] .nodeRow with ranges := [none, none, some (4410, 4413), none] } with
      tcu := { Tcu.atReset with
        cache := [⟨0, 1599, []⟩, ⟨2, 4410, []⟩, ⟨2, 4411, []⟩, ⟨2, 4412, []⟩], fetch := some ⟨2, 4413, true⟩ } }
    let (d, r) := takeInval ⟨3, 1, 3, 2, 4400, 20, false⟩ c
    r = some ⟨1, 3 + 256 * 2 + 1024 * 4400 + 8388608 * 20, 1, 3⟩ ∧ d.tcu.fetch = some ⟨2, 4413, false⟩ ∧
      d.tcu.cache = [⟨0, 1599, []⟩] ∧ (runningBank d).map (fun b => b.2.flags.tableChanged) = some true ∧
      (d.tcu.endFetch (some [])).cache = [⟨0, 1599, []⟩] := by decide +kernel

/-- A reload of slot 3 with these answers before its last. -/
def reloading (o : InvalOrder) (got : List (Option (List Byte))) (c : Chip) : Chip :=
  { c with tcu := { c.tcu with reload := some ⟨o, got⟩ } }

/-- The result and the state written into a slot, by what waits at the memory port and what the bus carries. -/
def slotWrites (c : Chip) : List (List Byte) := ((c.mpt.onBus.toList ++ c.mpt.waitOrd).take 2).map Access.data

/-- R120, R126: the fourth read failed, and the defined grid 0 is now undefined. -/
theorem test_griddefs_reload :
    after (.griddefsReloadDone .error)
      (reading (.reloadGrid 3 true) 64
        (reloading ⟨3, 9, 4, 0, 0, 0, false⟩ (List.replicate 3 (some (List.replicate 64 0)))
          { preemption with sce := Sce.atReset, ccu := Ccu.atReset }))
      (fun d => ((gridDefn d.tcu.grids 0).isSome, (gridDefn d.tcu.grids 3).isSome, slotWrites d, d.tcu.invalidations)) =
      some (false, true, [[10, 0, 0, 0, 4, 0, 0, 0, 0, 0, 0, 0, 0x81, 0, 0, 0], [3, 9, 0, 0]], 1) := by decide +kernel
/-- R59: ks changes from 3 to 4, the trigger OFF: channel 0 restarts with L = 1600. -/
theorem test_stations_reload :
    after (.stationsReloadDone (.data ([1, 4, 8, 48, 24, 3, 1, 0, 100, 0, 0xDC, 5] ++ List.replicate 20 0)))
      (reading (.reloadStation 0 true) 32
        (reloading ⟨3, 9, 5, 0, 0, 1, false⟩ [] { part .bound with chc := { Chc.atReset with channels := [channel37] } }))
      (fun d => (d.chc.channels.map fun ch => (ch.sta, ch.lta, ch.warm), d.chc.counters.restarts)) =
      some ([(0, 1600, 0)], 1) := by decide +kernel
/-- R37: hub 15 is disabled by its entry. -/
theorem test_hubs_reload :
    after (.hubsReloadDone (.data (List.replicate 32 0)))
      (reading (.reloadHub 15 true) 32
        (reloading ⟨3, 9, 6, 0, 0, 0, false⟩ (List.replicate 15 none)
          { links Hub.atReset Hub.atReset Hub.atReset with
            lki := ⟨List.replicate 15 Hub.atReset ++ [hubOf .seeking 0 []], none⟩ }))
      (fun d => (d.lki.hubs.getLast?.map Hub.state, (d.tcu.hubEntries.head?), (d.tcu.hubEntries.getLast?))) =
      some (some .disabled, some (some ⟨1, 1⟩), some (some ⟨0, 0⟩)) := by decide +kernel
/-- R123: a settings block of zeros is BAD-TABLE, and the old settings stay. -/
theorem test_config_reload :
    after (.configReloadDone (.data (List.replicate 256 0)))
      (reading .reloadConfig 256 (reloading ⟨3, 9, 7, 0, 0, 0, false⟩ [] { preemption with sce := Sce.atReset }))
      (fun d => (d.tcu.settings == some settings20, slotWrites d)) =
      some (true, [[11, 0, 0, 0, 7, 0, 0, 0, 0, 0, 0, 0, 0, 0, 0, 0], [3, 9, 0, 0]]) := by decide +kernel
theorem test_reload_read :
    after (.reloadReadDone .error)
      (reading (.reloadStation 5 false) 32 (reloading ⟨3, 9, 5, 0, 5, 2, false⟩ [] (part .bound)))
      (fun d => (d.tcu.reload.map Reload.got, d.mpt.records.head?)) =
      some (some [none], some (some ⟨.tables, .bus, 0x4000, 1, none⟩)) := by decide +kernel
/-- Manual, A DRAINED INVALIDATION THAT MEETS STOP, steps 5 and 6. -/
theorem test_drain :
    let c := { part .stopping with
      tcu := { Tcu.atReset with drain := some ⟨⟨4, 30, 2, 0, 0, 0, true⟩, [201, 199], ⟨1, 2, 2, 40⟩⟩ }
      ord := { Orders.atReset with drainPending := some (4, 30), openOrders := [⟨4, 30, .invalidate⟩] } }
    let d := drainFinished 201 c
    d.tcu.drain.map Drain.numbers = some [199] ∧ d.ord = c.ord ∧
      (drainFinished 199 d).tcu.drain = none ∧ (drainFinished 199 d).ord.drainPending = none ∧
      (drainFinished 199 d).ord.openOrders = [] ∧ (drainFinished 199 d).ord.poll = some [] := by decide +kernel

/-! ## Orders -/

theorem test_poll_timer :
    after .pollTimerExpiry { part .bound with ord := { Orders.atReset with timer := some 100, poll := some [] } }
      (fun d => (d.ord.repeatMark, d.ord.polls)) = some (true, 0) := by decide +kernel

/-- A slot as the station processor posts it. -/
def slotOf (seq sealed kind : Byte) (params : List Byte) : List Byte :=
  [1, seq, 0, 0, kind, 0, 0, 0] ++ params ++ List.replicate (52 - params.length) 0 ++ [sealed, 0, 0, 0]

/-- Manual, ONE POLL WITH A GAP, A DUPLICATE AND A TORN SLOT, with a MARK in slot 7 in place of its SCAN.
The order of the writes is that of the steps of R133: the duplicates before the judgement. -/
theorem test_take_run :
    let slots : List (Option (List Byte)) := (numbersFrom 0 31).map fun i =>
      if i = 3 then some (slotOf 15 (~~~ 15) 2 [3, 0, 1, 0, 200, 0, 10, 0])
      else if i = 7 then some (slotOf 14 (~~~ 14) 4 [0, 0, 0, 0])
      else if i = 9 then some (slotOf 14 (~~~ 14) 4 [1, 0x0A, 0, 0])
      else if i = 12 then some (slotOf 16 (~~~ 61) 3 [190, 0])
      else if i = 20 then some (slotOf 18 (~~~ 18) 4 [2, 0x0A, 0, 0])
      else none
    after (.orderSlotReadDone (.data (List.replicate 64 0)))
      (reading (.slotRead 31) 64 { part .listening with
        ord := { Orders.atReset with expected := 14, poll := some slots }
        dlv := { Dlv.atReset with event := { StreamState.atReset with slots := 16 } } })
      (fun d => (d.ord.expected == 17 && d.ord.taken == 3 && d.ord.duplicates == 1 && d.ord.torn == 1,
        ((d.mpt.onBus.toList ++ d.mpt.waitOrd).filter fun a => a.len == 16).map fun a => (a.purpose, a.data.head?))) =
      some (true,
        [(.slotResult 9, some 2), (.slotResult 7, some 1), (.slotResult 3, some 1), (.slotResult 12, some 3)]) := by
  decide +kernel
theorem test_slot_write :
    after (.orderSlotWriteDone true) (writing (.slotState 3 true) (part .bound)) (fun d => d.rgp.cause) = some 4 ∧
      after (.orderSlotWriteDone true) (writing (.slotState 3 false) (part .bound)) (fun d => d.rgp.cause) = some 0 := by
  decide +kernel
theorem test_slot_write_error :
    after (.orderSlotWriteDone false) (writing (.slotResult 3) (part .bound))
      (fun d => (d.rgp.partState, d.rgp.haltSource, d.rgp.cause)) = some (.faulted, .orders, 0x50) := by decide +kernel

/-! ## Delivery -/

/-- The event stream of the examples. -/
def events (written released seq : Word32) (marked : Bool) : StreamState :=
  ⟨16, written, released, written, written, seq, 0, marked⟩

/-- A part with this event stream and these pending records, the return block read in flight. -/
def delivering (s : StreamState) (l : List EventRecord) : Chip :=
  { part .listening with dlv := { Dlv.atReset with event := s, pendingEvents := l, returnRead := true } }

/-- A LOCATED record of this coherence. -/
def located (seq : Word32) (q : Nat) : EventRecord :=
  ⟨seq, .scan ⟨118, none, 1, 1000, 4, 4, 0, .located, noFlags, none, some ⟨0, 0, 0, q, 4, 1⟩, []⟩⟩

/-- Sequence and coherence of the pending records. -/
def pendingOf (c : Chip) : List (Nat × Nat) := c.dlv.pendingEvents.map fun r => (r.seq.toNat, coherence r.content)

/-- Manual, AN EVENT STREAM OUT OF ROOM, steps 9 to 11, the records with Q 0 as markers. -/
theorem test_full_event_queue :
    let c8 := delivering (events 5016 5000 308 true)
      [located 301 40, located 302 18, ⟨303, .marker 0⟩, located 304 52, ⟨305, .marker 0⟩, located 306 33, located 307 25,
        ⟨308, .marker 0⟩]
    let r9 := deliverContent (located 0 29).content c8
    let r10 := deliverContent (located 0 12).content r9.1
    let r11 := deliverContent (.marker 0) r10.1
    (r9.2, r10.2, r11.2) = (some 309, some 310, none) ∧ r11.1.dlv.counters.lostEvents = 3 ∧
      pendingOf r11.1 = [(301, 40), (302, 18), (303, 0), (304, 52), (306, 33), (307, 25), (309, 29), (310, 12)] := by
  decide +kernel
/-- Manual, AN EVENT STREAM OUT OF ROOM, step 12. -/
theorem test_return_block :
    after (.returnBlockReadDone (.data (leBytes 4 0 ++ leBytes 4 5004 ++ List.replicate 56 0)))
      (reading .returnBlock 64 (delivering (events 5016 5000 310 true)
        ([301, 302, 303, 304, 306, 307, 309, 310].map fun n => ⟨n, .marker 0⟩)))
      (fun d => ((pendingOf d).map Prod.fst, d.dlv.event.written, d.dlv.event.noRoom, d.rgp.cause, d.dlv.returnRead)) =
      some ([306, 307, 309, 310], 5020, true, 0x08, true) := by decide +kernel
/-- Manual, R152: 990 is adopted; 1,010 and 980 are clamped to 1,001. -/
theorem test_released :
    let s := events 1001 985 0 false
    ((s.adopt 990).released, (s.adopt 1010).released, (s.adopt 980).released) = (990, 1001, 1001) ∧
      (s.beyond 990, s.beyond 1010, s.beyond 980) = (false, true, true) := by decide
/-- R149: a failed record write is passed and counted lost. -/
theorem test_record_write :
    after (.recordWriteDone false) (writing (.record .event) (delivering (events 5 0 5 false) []))
      (fun d => (d.dlv.event.published, d.dlv.counters.lostEvents, d.dlv.progress.isSome)) = some (6, 1, true) := by
  decide +kernel
/-- R149, R150, R173: a completed write shows the totals, and with k = 1 it sets EVENT. -/
theorem test_progress_write :
    after (.progressWriteDone true)
      (writing .progressLast { delivering (events 5 0 5 false) [] with
        tcu := { Tcu.atReset with settings := some { settings20 with eventNotice := 1 } }
        dlv := { (delivering (events 5 0 5 false) []).dlv with progress := some ⟨0, 6, 0, true⟩ } })
      (fun d => (d.dlv.event.shown, d.dlv.event.notice, d.rgp.cause, d.dlv.counters.progressWrites)) =
      some (6, 0, 0x11, 1) := by decide +kernel
theorem test_progress_write_error :
    after (.progressWriteDone false) (writing .progressLast (part .listening))
      (fun d => (d.rgp.partState, d.rgp.haltSource, d.mpt.records.head?)) =
      some (.faulted, .progress, some (some ⟨.progress, .bus, 0x4000, 1, none⟩)) := by decide +kernel
theorem test_progress_word :
    after (.progressBlockWordWriteDone true) (writing .progressMiddle (part .bound)) (fun d => (d.rgp, d.mpt.onBus)) =
      some ((part .bound).rgp, none) := by decide +kernel
/-- A part with an event notice count, and k = 3 in force for events. -/
def noticed (count : Nat) : Chip :=
  { delivering { events 5 0 5 false with notice := count } [] with
    tcu := { Tcu.atReset with settings := some { settings20 with eventNotice := 3 } } }

/-- R150: with k = 3 and 2 counted, the showing of 5 records reaches k and leaves (2 + 5) mod 3; the row by itself takes
a count past k. -/
theorem test_notice :
    noticeSteps 3 5 2 = (1, true) ∧ noticeSteps 3 1 7 = (0, true) ∧ noticeSteps 0 4 7 = (0, false) ∧
      after (.noticeCountReached .event) (noticed 7) (fun d => (d.dlv.event.notice, d.rgp.cause)) = some (0, 1) := by
  decide +kernel

/-- A part with an epoch outgoing. -/
def outgoing (half0Free : Bool) (sel : Option (Fin 2)) : Chip :=
  { part .bound with
    dlv := { Dlv.atReset with outgoing := some ⟨⟨7, 500, [], 0⟩, half0Free⟩, selector := sel } }

/-- R161: with both halves FREE and half 0 the last, half 1 is chosen. -/
theorem test_raw_choice :
    after (.rawStateReadDone (.data [1, 0, 0, 0])) (reading (.rawState 1) 4 (outgoing true (some 0)))
      (fun d => d.mpt.onBus.map fun a => (a.purpose, a.addr, a.len, a.data.head?)) =
      some (some (.rawHeader 1, 0x90008, 120, some 7)) := by decide +kernel
/-- R161, R162: a failed state read is not FREE, and the epoch is lost. -/
theorem test_raw_lost :
    after (.rawStateReadDone .error) (reading (.rawState 1) 4 (outgoing false none))
      (fun d => (d.dlv.outgoing, d.dlv.counters.rawLost)) = some (none, 1) := by decide +kernel
theorem test_raw_last_tick :
    after (.rawHalfWriteDone true) (writing (.rawTick 1 499) (outgoing true none))
      (fun d => d.mpt.onBus.map fun a => (a.purpose, a.addr, a.data)) =
      some (some (.rawFull 1, 0x90000, [2, 0, 0, 0])) := by decide +kernel
theorem test_raw_full :
    after (.rawFullWriteDone true) (writing (.rawFull 1) (outgoing true none))
      (fun d => (d.dlv.outgoing, d.dlv.selector, d.dlv.counters.rawWritten)) = some (none, some 1, 1) := by decide +kernel
/-- R160, R177: an absent sample, and a sample of −2. -/
theorem test_raw_sample : rawSampleBytes [(3, 0xFFFFFE)] 3 = [0xFE, 0xFF, 0xFF, 0xFF] ∧
    rawSampleBytes [(3, 0xFFFFFE)] 4 = [0, 0, 0, 0x80] := by decide +kernel

/-! ## Faults -/

/-- Manual, FILLING THE RECORDS, steps 1 to 8. -/
theorem test_fault_records :
    let m3 := (((Mpt.atReset.record .rows .windowRead 0x30025800 (some 240000)).record .rows .windowRead 0x30025A00
      (some 240000)).record .streams .bus 0x1001000 (some 240025)).record .raw .bus 0x1100000 (some 240500)
    let m6 := (m3.record .refine .windowRead 0x310025A8 (some 240525)).record .tables .bus 0x200044A0 (some 240550)
    let m8 := (m6.clearOne 1).record .tables .bus 0x200044C0 (some 240575)
    m8.records = [some ⟨.rows, .windowRead, 0x30025800, 2, some 240000⟩, some ⟨.tables, .bus, 0x200044C0, 1, some 240575⟩,
        some ⟨.raw, .bus, 0x1100000, 1, some 240500⟩, some ⟨.refine, .windowRead, 0x310025A8, 1, some 240525⟩] ∧
      m8.overflow = 1 := by decide +kernel
/-- R170: an unanswered raw state read is a bus error: half 1's state is read next. -/
theorem test_answer_limit :
    after .answerLimitExpiry (reading (.rawState 0) 4 (outgoing false none))
      (fun d => (d.dlv.outgoing.map Outgoing.half0Free, d.mpt.records.head?)) =
      some (some false, some (some ⟨.raw, .bus, 0x4000, 1, none⟩)) := by decide +kernel
/-- R164, R177: the first and the last word of a progress block are its update count. -/
theorem test_progress_image :
    let b := progressImage .bound { part .bound with dlv := { Dlv.atReset with updateCount := 0x01020304 } }
    (b.take 5, b.drop 4092, b.length) = ([4, 3, 2, 1, 2], [4, 3, 2, 1], 4096) := by decide +kernel
/-- R166, R177: the image in FAULTED shows the part state of before the entry, and the halting fault's record. -/
theorem test_frozen_image :
    after (.orderSlotWriteDone false)
      (writing (.slotResult 3) { part .bound with dlv := { Dlv.atReset with image := .current } })
      (fun d => (d.rgp.partState, (d.image.drop 4).take 1, (d.image.drop 0x60).take 3)) =
      some (.faulted, [2], [1, 5, 3]) := by decide +kernel

/-! ## Witnesses: states and operands that meet the hypotheses of each obligation together -/

/-- The part with the reset pin held. -/
def held (c : Chip) : Chip := { c with rgp := { c.rgp with resetHeld := true } }

theorem witness_EndOfStepGrantsTheBus :
    (part .bound).settled ∧ (reading .directory 256 (part .binding)).mpt.carries (readAccess .directory 0x4000 256) ∧
      completes .nudge (part .bound) = true := by decide +kernel

theorem witness_EveryCommandCompletes :
    let b := List.replicate 512 (0 : Byte)
    wellFormed (.rowFetchDone (.data b)) = true ∧ answerData (.rowFetchDone (.data b)) = some b ∧
      (reading (.row 0 0) 512 (part .bound)).mpt.onBus.map Access.len = some b.length ∧
      exec (.rowFetchDone (.data [])) ⟨reading (.row 0 0) 512 (part .bound), []⟩ = .fault .answerLength ∧
      exec (.refusedCode 4) ⟨part .bound, []⟩ = .refused .operandOfAnotherRow :=
  ⟨by decide +kernel, rfl, by decide +kernel, rfl, rfl⟩

theorem witness_IdentificationAndIgnoredOffsets :
    (0x1C ≤ (0x1C : BitVec 5).toNat ∧ 0x1C ≤ (0x1F : BitVec 5).toNat) ∧ ∀ b ∈ [3, 7, 10, 11, 15, 31, 32],
      b = 3 ∨ b = 7 ∨ b = 10 ∨ b = 11 ∨ 15 ≤ b := by decide

theorem witness_InterruptRegisters :
    (part .listening).settled ∧ (part .listening).rgp.resetHeld = false ∧ bindValid (part .faulted) = true ∧
      (part .faulted).rgp.resetHeld = false := by decide

theorem witness_DirectoryBaseRegister :
    ((part .faulted).settled ∧ (part .faulted).rgp.resetHeld = false ∧ (part .faulted).rgp.partState = .faulted) ∧
      ((part .stopping).settled ∧ (part .stopping).rgp.resetHeld = false ∧ (part .stopping).rgp.partState = .stopping) ∧
      bindValid (part .bound) = true ∧ (part .bound).dirbaseAligned ∧ completes .nudge (part .bound) = true := by
  decide +kernel

theorem witness_ControlAcceptsByPartState :
    ((part .bound).settled ∧ (part .bound).rgp.resetHeld = false ∧ commandCodes.contains 5 = false ∧
        commandCodes.contains 0x101 = false) ∧
      (let c := { part .bound with dlv := { Dlv.atReset with pendingEvents := [⟨1, .marker 7⟩] } }
       c.settled ∧ c.rgp.resetHeld = false ∧ c.rgp.partState = .bound ∧ c.dlv.pendingEvents ≠ []) ∧
      (part .unbound).settled ∧ (part .unbound).rgp.partState ≠ .bound ∧ (part .unbound).rgp.partState ≠ .listening := by
  decide

theorem witness_ResetPinHold : (held (part .listening)).settled ∧ (held (part .listening)).rgp.resetHeld = true := by
  decide

theorem witness_ResetReleaseLatchesTheStraps : (part .listening).rgp.resetHeld = false := by decide

theorem witness_BindClearsThePart :
    (part .bound).rgp.resetHeld = false ∧ (part .bound).rgp.partState = .bound ∧ (part .bound).dlv.pendingEvents = [] := by
  decide

theorem witness_ListenSeeksTheEnabledHubs :
    let c := { part .bound with tcu := { Tcu.atReset with hubEntries := List.replicate 16 (some ⟨1, 1⟩) } }
    c.rgp.resetHeld = false ∧ c.rgp.partState = .bound ∧ c.lki.hubs.length = 16 ∧ c.tcu.hubEntries.length = 16 ∧
      c.lki.hubs[15]? = some Hub.atReset ∧ c.tcu.hubEntries[15]? = some (some ⟨1, 1⟩) := by decide

theorem witness_StopHaltsDetection :
    let c := { fullQueue with lki := Lki.atReset }
    let inBank := { c with ccu := { c.ccu with target := some ⟨129, 204310, 20⟩ } }
    let finished (c : Chip) : Bool :=
      c.ccu.queue.any fun r => decide (c.ccu.target.map CollapseTarget.number = some r.number)
    c.rgp.resetHeld = false ∧ c.rgp.partState = .listening ∧ c.lki.hubs[15]? = some Hub.atReset ∧
      finished c = true ∧ finished inBank = false := by decide

theorem witness_NudgePollsAndReadsTheReturnBlock :
    let c := part .stopping
    let polling := { c with ord := { Orders.atReset with poll := some [] } }
    let draining := { c with ord := { Orders.atReset with drainPending := some (31, 255) } }
    c.rgp.resetHeld = false ∧ c.active = true ∧ c.ord.poll = none ∧ c.ord.drainPending = none ∧
      polling.ord.poll.isSome = true ∧ draining.ord.poll = none ∧ draining.ord.drainPending.isSome = true ∧
      c.dlv.returnRead = false ∧ c.dlv.progressAsked = false := by decide

/-! ### Binding -/

/-- A directory with two windows, from its signature, its version, the base of the write window and the pick slots. -/
def directory (signature version base slots : Nat) : List Byte :=
  leBytes 4 signature ++ leBytes 4 version ++ leBytes 8 0 ++ leBytes 8 0xFFFF ++ leBytes 8 base ++ leBytes 8 0x1FFFFF ++
    ([0x1000, 0x2000, 0x3000, 0x6000, 0x7000, 0x10000, 0x11000, 0x12000, 0x13000, 0x100000, 0x180000].map
      (leBytes 8)).flatten ++ leBytes 4 slots ++ leBytes 4 16 ++ leBytes 4 16 ++ leBytes 4 0 ++ leBytes 4 5 ++ leBytes 4 5 ++
    List.replicate 104 0

theorem witness_DirectoryIsJudgedInOrder :
    let c := reading .directory 256 (part .binding)
    let judged (b : List Byte) : Bool × Option BindResult × Bool :=
      (b.length == 256, directoryCheck b,
        layoutValid (directoryWindows b) (directoryLayout b) (directoryPicks b) (directoryEvents b))
    (c.mpt.onBus = some (readAccess .directory 0x4000 256) ∧ c.rgp.partState ≠ .faulted) ∧
      (judged (directory 0x3C5AE106 1 0x10000 16)).1 = true ∧
      judged (directory 0x3C5AE106 1 0x10000 16) = (true, some .badSignature, true) ∧
      judged (directory 0x3C5AE107 2 0x10000 16) = (true, some .badVersion, true) ∧
      (judged (directory 0x3C5AE107 1 0x200000 16)).2.1 = some .badWindow ∧
      judged (directory 0x3C5AE107 1 0x10000 15) = (true, none, false) ∧
      judged (directory 0x3C5AE107 1 0x10000 16) = (true, none, true) := by decide +kernel

theorem witness_BindingReadErrorEndsTheBinding :
    let c := reading (.bindStation 255) 32 (part .binding)
    c.mpt.onBus = some (readAccess (.bindStation 255) 0x4000 32) ∧ c.rgp.partState = .binding ∧
      faultSourceOf (.bindStation 255) = .bind ∧ faultSourceOf .directory = .bind := by decide

/-- A valid settings block. -/
def settingsBlock : List Byte :=
  ([25, 100, 1, 1, 1, 1, 1, 1, 1].map (leBytes 2)).flatten ++ [1, 3, 1, 0, 10, 0, 0, 0, 0] ++ List.replicate 229 0

/-- A grid record that defines its grid. -/
def gridRecord : List Byte :=
  leBytes 4 1 ++ leBytes 4 512 ++ leBytes 8 0x4000000 ++ leBytes 8 0 ++ leBytes 2 0 ++ leBytes 2 4095 ++ [1, 1] ++
    leBytes 2 1 ++ List.replicate 32 0

theorem witness_BindTableReadsLoadTheTables :
    let c := part .binding
    let last := { c with rgp := { c.rgp with binding := some ⟨false, .grid 3, settingsBlock⟩ } }
    (c.rgp.partState ≠ .faulted ∧ (reading (.bindGrid 2) 64 c).mpt.onBus = some (readAccess (.bindGrid 2) 0x4000 64)) ∧
      (settingsBlock.length = 256 ∧ gridRecord.length = 64) ∧
      settingsValid (modifyAt (fun _ => judgeGrid gridRecord) last.tcu.grids 3) (boundSettings last) = true ∧
      settingsValid (modifyAt (fun _ => judgeGrid (List.replicate 64 0)) last.tcu.grids 3) (boundSettings last) = false ∧
      ((reading (.bindHub 15) 32 c).mpt.onBus.map Access.purpose = some (.bindHub 15) ∧
        (reading (.bindStation 255) 32 c).mpt.onBus.map Access.purpose = some (.bindStation 255)) := by decide +kernel

theorem witness_FirstImageCompletesTheBinding :
    let c := { part .binding with
      rgp := { (part .binding).rgp with binding := some ⟨true, .image, []⟩ }
      dlv := { Dlv.atReset with progress := some ⟨0, 0, 0, false⟩ } }
    c.rgp.partState = .binding ∧ c.rgp.binding.isSome = true ∧ c.dlv.progress.isSome = true ∧ c.ord.poll = none ∧
      c.ord.drainPending = none ∧ (writing .progressLast c).mpt.onBus.map Access.purpose = some .progressLast := by
  decide

/-! ### The links -/

/-- The good frame of the witnesses: hub 3, sequence 8, first tick 50,025. -/
def frame3 : List Byte := frame 3 8 0 50025

/-- A part whose hub 3 is the given one, with hub 0 LIVE at next tick 50,150, and an H. -/
def hub3 (h : Hub) (horizon : Option Nat) : Chip :=
  { links (hubOf .live 50150 []) Hub.atReset Hub.atReset with
    lki := ⟨[hubOf .live 50150 [], Hub.atReset, Hub.atReset, h] ++ List.replicate 12 Hub.atReset, horizon⟩ }

/-- A SEEKING hub with a marker. -/
def seekingAt (m : Option (Nat × BitVec 8)) : Hub :=
  { Hub.atReset with state := .seeking, marker := m, buffer := m.toList.map fun x => ⟨x.1, 16, false, []⟩ }

set_option maxRecDepth 100000 in
/-- The frame of the witnesses is received whole and passes every check. -/
theorem witness_frame :
    frameOf (burst frame3) = some frame3 ∧ checkFrame 3 frame3 = .good ∧ leValue frame3 6 6 = 50025 ∧
      checkFrame 4 frame3 = .misrouted := by decide +kernel

theorem witness_FramesAreCheckedInOrder :
    let b : List Byte := [0xB6, 0xE1, 0x05]
    frameOf (burst b) = some b ∧ checkFrame 3 b ≠ .good ∧ frameOf [false] = none ∧
      (∀ h ∈ [seekingAt none, hubOf .live 50025 [], hubOf .stalled 50025 []],
        (hub3 h none).settled ∧ (hub3 h none).lki.hubs[3]? = some h ∧ h.state ≠ .disabled ∧ h.atBadLimit = false) ∧
      (hubAt 1 (hub3 (seekingAt none) none)).state = .disabled := by decide +kernel

theorem witness_SeekingHubHoldsOneProvisionalFrame :
    (∀ m ∈ [none, some (49975, 6)],
      (hub3 (seekingAt m) none).settled ∧ (hub3 (seekingAt m) none).lki.hubs[3]? = some (seekingAt m) ∧
        m.all (fun x => x.1 + 25 != 50025) = true) ∧
      (hub3 (seekingAt (some (50000, 7))) (some 50050)).settled ∧
      (hub3 (seekingAt (some (50000, 7))) (some 50050)).lki.horizon = some 50050 ∧ 50000 + 50 ≤ 50050 := by
  decide +kernel

theorem witness_AdmissionMakesAHubLive :
    let h := seekingAt (some (50000, 7))
    let alone := { hub3 h none with lki := ⟨List.replicate 3 Hub.atReset ++ [h] ++ List.replicate 12 Hub.atReset, none⟩ }
    (alone.lki.hubs[3]? = some h ∧ alone.lki.horizon = none ∧ alone.lki.smallestNext = none ∧
        ∀ g ∈ alone.lki.hubs, g.state = .live → g.nextTick.getD 0 ≤ 50000 + 50 + lmaxInForce alone) ∧
      ((hub3 h (some 50025)).lki.hubs[3]? = some h ∧ 50025 < 50000 + 50 ∧ h.state = .seeking ∧
        h.buffer.map Frame.firstTick = [50000] ∧ 50000 + 25 ≤ 50025 ∧
        ∀ g ∈ (hub3 h (some 50025)).lki.hubs,
          g.state = .live → g.nextTick.getD 0 ≤ 50000 + 50 + lmaxInForce (hub3 h (some 50025))) := by decide +kernel

theorem witness_DuplicateAndLateFramesAreDiscarded :
    (∀ h ∈ [hubOf .live 50050 [], hubOf .stalled 50050 []],
      (hub3 h (some 50050)).settled ∧ (hub3 h (some 50050)).lki.hubs[3]? = some h ∧ h.atBadLimit = false ∧
        h.nextTick = some 50050 ∧ 50025 < 50050) ∧
      (let h := hubOf .stalled 50025 []
       (hub3 h (some 50050)).lki.hubs[3]? = some h ∧ h.nextTick = some 50025 ∧ 50025 ≤ 50025 ∧ 50025 + 25 ≤ 50050) := by
  decide +kernel

theorem witness_KeptFrameMovesAHubOnAndStallsTheOthers :
    (∀ h ∈ [hubOf .live 50025 [], hubOf .stalled 50025 []],
      (hub3 h (some 50025)).lki.hubs[3]? = some h ∧ h.atBadLimit = false ∧ h.nextTick = some 50025 ∧
        (h.state = .live ∨ (h.state = .stalled ∧ 50025 < 50025 + 25)) ∧
        ∀ g ∈ (hub3 h (some 50025)).lki.hubs,
          g.state = .live → g.nextTick.getD 0 ≤ 50025 + 25 + lmaxInForce (hub3 h (some 50025))) ∧
      (let c := hub3 (hubOf .live 50025 []) (some 49925)
       let d := { c with lki := { c.lki with hubs := c.lki.hubs.set 0 (hubOf .live 49925 []) } }
       d.lki.hubs[0]? = some (hubOf .live 49925 []) ∧ 49925 + lmaxInForce d < 50025 + 25) := by decide +kernel

theorem witness_HubFallsBackToSeeking :
    let bad (n : Nat) : Hub := { hubOf .live 50025 [] with badCount := n }
    ((hub3 (bad 7) none).settled ∧ (hub3 (bad 7) none).lki.hubs[3]? = some (bad 7) ∧
        ¬ ((bad 7).state.placed = true ∧ 8 ≤ (bad 7).badCount)) ∧
      ((hub3 (seekingAt none) none).settled ∧
        ¬ ((seekingAt none).state.placed = true ∧ (seekingAt none).silence.isSome = true)) ∧
      ((hub3 (bad 8) none).lki.hubs[3]? = some (bad 8) ∧ (bad 8).state.placed = true ∧ 8 ≤ (bad 8).badCount ∧
        (bad 8).silence.isSome = true) := by decide +kernel

/-! ### Conditioning and coincidence -/

/-- Channel 37 while its trigger is ON. -/
def onChannel : Channel :=
  { channel37 with trigger := .on, onTick := some 80013, peakCf := some 73, peakTick := some 80014 }

/-- Hub 0 is LIVE with the frame of ticks 200,000 to 200,024 and the given next_tick, H is 200,000, and channel 0 is
channel 37 of the worked figures. -/
def settling (next : Nat) (st : HubState) : Chip :=
  let c := links (hubOf st next [200000]) Hub.atReset Hub.atReset
  { c with chc := { c.chc with channels := [channel37] } }

theorem witness_CharacteristicFunctionIsRecorded :
    (channel37.historySound = true ∧ channel37.params.isSome = true) ∧
      (let c := settling 200025 .live
       let h := c.lki.hubs.getD (0 / 16) Hub.atReset
       c.chc.channels[0]? = some channel37 ∧ c.tcu.settings.isSome = true ∧ c.lki.horizon = some 200000 ∧
         c.lki.smallestNext = some 200025 ∧ 200000 < 200025 ∧ c.lki.hubs[15]? = some Hub.atReset ∧
         (∀ t ∈ [200000, 200024], (h.buffer.find? fun f => decide (f.firstTick ≤ t) && decide (t < f.firstTick + 25)) =
           some ⟨200000, 1, false, List.replicate 25 0⟩) ∧
         (h.buffer.find? fun f => decide (f.firstTick ≤ 200025) && decide (200025 < f.firstTick + 25)) = none ∧
         h.state = .live ∧ 0 % 16 < 1 ∧ 200499 % 500 = 499 ∧ 200498 % 500 ≠ 499 ∧ c.dlv.epochCount.toNat < 4294967295 ∧
         c.dlv.outgoing = none ∧ (outgoing true none).dlv.outgoing.isSome = true) ∧
      ((settling 200500 .live).active = true ∧ (settling 200500 .live).lki.horizon = some 200000 ∧
        (settling 200500 .live).lki.smallestNext = some 200500 ∧ 200000 / 500 < 200500 / 500) ∧
      (∀ c ∈ [settling 200000 .live, settling 200025 .stalled], c.lki.horizon = some 200000 ∧
        c.lki.smallestNext.all (fun h1 => decide (h1 ≤ 200000)) = true) := by decide +kernel

theorem witness_AbsentSampleKeepsTheFilter :
    onChannel.historySound = true ∧ onChannel.trigger = .on ∧ channel37.historySound = true ∧ channel37.trigger ≠ .on := by
  decide

theorem witness_TriggersAreJudgedInOrder :
    channel37.params.isSome = true ∧ channel37.trigger = .off ∧ onChannel.params.isSome = true ∧ onChannel.trigger = .on ∧
      onChannel.onTick = some 80013 ∧ onChannel.peakCf = some 73 ∧ onChannel.peakTick = some 80014 ∧ 80013 ≤ 80013 ∧
      ({ channel37 with trigger := .blocked }).trigger = .blocked := by decide

theorem witness_LevelOfACrossing :
    settings20.nmin ≤ settings20.n2 ∧ settings20.n2 ≤ settings20.n1 ∧ settings20.n1 ≤ settings20.n0 ∧ settings20.nmin ≤ 4 ∧
      levelOf settings20 14 = 0 ∧ levelOf settings20 13 = 1 ∧ levelOf settings20 9 = 1 ∧ levelOf settings20 8 = 2 ∧
      levelOf settings20 6 = 2 ∧ levelOf settings20 5 = 3 := by decide

/-- A part in which n channels vote at tick 204,352, with a previous count, a collapse target and a queue. -/
def voting (n prev : Nat) (target : Option CollapseTarget) (queue : List Request) : Chip :=
  { fullQueue with
    chc := { Chc.atReset with channels := List.replicate n { channel37 with lastOn := some 204352 } }
    ccu := { fullQueue.ccu with prevCount := prev, target := target, queue := queue } }

theorem witness_EachCrossingIsCountedOnce :
    let v (c : Chip) : Nat := voteCount 204352 settings20.window c.chc.channels
    let q := fullQueue.ccu.queue
    let level (c : Chip) : Nat := levelOf settings20 (v c)
    (fullQueue.tcu.settings = some settings20 ∧
        ¬ (settings20.nmin ≤ v (voting 4 4 none []) ∧ (voting 4 4 none []).ccu.prevCount < settings20.nmin)) ∧
      (settings20.nmin ≤ v (voting 4 3 (some ⟨137, 204332, 20⟩) q) ∧
        (voting 4 3 (some ⟨137, 204332, 20⟩) q).ccu.prevCount < settings20.nmin ∧ 204352 ≤ 204332 + 20) ∧
      (204331 + 20 < 204352 ∧ (voting 4 3 (some ⟨137, 204331, 20⟩) (q.take 7)).ccu.queue.length < 8) ∧
      (8 ≤ (voting 6 3 none q).ccu.queue.length ∧
        ∃ r ∈ (voting 6 3 none q).ccu.queue, r.order = none ∧ level (voting 6 3 none q) < r.level) ∧
      8 ≤ (voting 4 3 none q).ccu.queue.length ∧
        ∀ r ∈ (voting 4 3 none q).ccu.queue, r.order = none → r.level ≤ level (voting 4 3 none q) := by decide +kernel

theorem witness_DeclaredSpanStartsAtTickZeroOrLater :
    1 ≤ 2 ∧ 400 ≤ 400 ∧ 399 < 400 ∧ (0 : Int) ≤ (399 : Nat) - (400 : Nat) + (1 : Nat) * (2 : Nat) := by decide

/-! ### The scan engine and the tables -/

/-- A scan with a node left in its stage, and a part with the tables and windows it needs. -/
def midStage (phase : ScanPhase) : Scan := { scanOf [2, 1, 1, 3] phase with cursor := 5, lastNode := 6 }
/-- The part of a scan with a node left, the fetch of its node in flight. -/
def walking (sc : Scan) : Chip :=
  { scanning [60, 40, 255, 20] sc with
    tcu := { Tcu.atReset with grids := preemption.tcu.grids, fetch := some ⟨0, 5, true⟩ }
    mpt := preemption.mpt }
/-- The hypotheses on the next node of a scan: it may be requested, and its row is read. -/
def nextRowIsRead (c : Chip) (sc : Scan) (cache : List CacheEntry) : Bool :=
  decide (sc.cursor < sc.lastNode) && !sc.cancelMark && c.ccu.queue.isEmpty &&
    (cache.find? (CacheEntry.isFor sc.grid (sc.cursor + 1))).isNone &&
    (gridDefn c.tcu.grids sc.grid).any fun g => decide (sc.cursor + 1 < g.nodeCount) &&
      accessPasses c.mpt.windows
        (readAccess (.row sc.grid (sc.cursor + 1)) (g.ttBase + (sc.cursor + 1) * g.stride) 512)

/-- A scan at the last read of its stage, which makes Q 36 with weight sum 6. -/
def lastRead (qacc wmin : Nat) (hasRefine : Bool) : Scan :=
  { scanOf [2, 1, 1, 3] (.stacking row4 1000 3 160 3 2) with captured := ⟨1, 150, qacc, wmin, hasRefine, 0⟩ }
/-- The peak of that read. -/
def peak36 : Peak := ⟨0, 0, 1000, 36, 6, 3⟩
/-- A peak found in stage 1, at node 7. -/
def peak7 : Peak := ⟨0, 7, 990, 31, 5, 2⟩
/-- The same scan in stage 2. -/
def lastRead2 (qacc wmin : Nat) : Scan := { lastRead qacc wmin false with stage := 2, stage1 := some peak7 }
/-- A part with the scan alone in service, with room in the event stream. -/
def closing (sc : Scan) : Chip := { walking sc with dlv := (delivering (events 5015 5000 300 false) []).dlv }
/-- The hypotheses of every stage end: nothing is left to read of the pair, and no origin time and no node after it. -/
def stageEnds (sc : Scan) : Bool :=
  decide ((closing sc).settled ∧ runningBank (closing sc) = some (0, sc)) &&
    sc.phase == .stacking row4 1000 3 160 3 2 && nextReadFrom sc row4 4 == (none, false) &&
    decide (sc.spanLast < 1000 + sc.spanStep) && decide (sc.lastNode ≤ sc.cursor) && sc.best == none
/-- The hypotheses on the row of an arrival list: it is a row of its grid, not cached, and inside the windows. -/
def rowIsRead (c : Chip) (p : Peak) : Bool :=
  (c.tcu.cache.find? (CacheEntry.isFor p.grid p.node)).isNone &&
    (gridDefn c.tcu.grids p.grid).any fun g => decide (p.node < g.nodeCount) &&
      accessPasses c.mpt.windows (readAccess (.row p.grid p.node) (g.ttBase + p.node * g.stride) 512)

/-- The stage ends: EMPTY, the refine request, WEAK, LOCATED with no refine table, and stage 2 with a peak of its own,
with none, and with one below Qacc. -/
theorem witness_CfReadIsStacked_stage_ends :
    (lastRead 30 6 false).captured.wmin ≤ 3 + 3 ∧ (160 + 3 * 20) / 6 = 36 ∧
      (let sc := lastRead 30 7 false
       stageEnds sc = true ∧ sc.stage = 1 ∧ ¬ sc.captured.wmin ≤ 6 ∧ sc.cancelMark = false ∧
         (closing sc).aloneInService 0 sc) ∧
      (let sc := lastRead 36 6 true
       stageEnds sc = true ∧ sc.stage = 1 ∧ sc.captured.qacc ≤ peak36.q ∧ sc.captured.hasRefine = true ∧
         (gridDefn (closing sc).tcu.grids 0).any (fun g => g.refineBase != 0 && decide (0 < g.nodeCount) &&
           accessPasses (closing sc).mpt.windows (readAccess (.refine 0 0) (g.refineBase + 8 * 0) 8)) = true) ∧
      (let sc := lastRead 37 6 true
       stageEnds sc = true ∧ sc.stage = 1 ∧ peak36.q < sc.captured.qacc ∧ rowIsRead (closing sc) peak36 = true) ∧
      (let sc := lastRead 36 6 false
       stageEnds sc = true ∧ sc.stage = 1 ∧ sc.captured.qacc ≤ peak36.q ∧ sc.captured.hasRefine = false ∧
         rowIsRead (closing sc) peak36 = true) ∧
      (let sc := lastRead2 36 6
       stageEnds sc = true ∧ sc.stage = 2 ∧ sc.captured.qacc ≤ peak36.q ∧ sc.flags.unrefined = false ∧
         rowIsRead (closing sc) peak36 = true) ∧
      (let sc := lastRead2 36 7
       stageEnds sc = true ∧ ¬ sc.captured.wmin ≤ 6 ∧ sc.stage1 = some peak7 ∧ rowIsRead (closing sc) peak7 = true) ∧
      (let sc := lastRead2 37 6
       stageEnds sc = true ∧ peak36.q < sc.captured.qacc ∧ sc.stage1 = some peak7 ∧
         rowIsRead (closing sc) peak7 = true) := by decide +kernel

/-- The reads of an arrival list: one with a channel left, and the last. -/
theorem witness_CfReadIsStacked_list :
    let found : List Arrival := [⟨0, 100, 60, 120⟩, ⟨1, 100, 40, 120⟩]
    let sc (ch : Nat) : Scan := { lastRead 37 6 true with stage1 := some peak36, phase := .listing .weak row4 ch found }
    (∀ ch ∈ [2, 3], (closing (sc ch)).settled ∧ runningBank (closing (sc ch)) = some (0, sc ch) ∧
        finalPeak (sc ch) .weak = some peak36) ∧
      nextReadFrom (sc 2) row4 3 = (some 3, false) ∧ nextReadFrom (sc 3) row4 4 = (none, false) ∧
      (sc 3).cancelMark = false ∧ (closing (sc 3)).aloneInService 0 (sc 3) ∧
      (closing (sc 3)).dlv.pendingEvents = [] ∧ (closing (sc 3)).dlv.event.hasRoom = true ∧
      found.Pairwise (fun a b => a.channel < b.channel) := by decide +kernel

theorem witness_CfReadIsStacked :
    let sc := scanOf [2, 1, 1, 3] (.stacking row4 1000 0 0 0 0)
    let sc' := { scanOf [2, 1, 1, 3] (.stacking row4 1000 3 160 3 2) with spanLast := 1001 }
    let last := midStage (.stacking row4 1000 3 160 3 2)
    let idle := scanning [] (scanOf [1] .refineEntry)
    let rowWaits := scanning [] (scanOf [1] (.listRow .weak))
    (idle.settled ∧ ((runningBank idle).map fun b => b.2.phase) = some .refineEntry) ∧
      (rowWaits.settled ∧ ((runningBank rowWaits).map fun b => b.2.phase) = some (.listRow .weak)) ∧
      ((scanning [60, 40, 255, 20] sc).settled ∧ runningBank (scanning [60, 40, 255, 20] sc) = some (0, sc) ∧
        nextReadFrom sc row4 1 = (some 1, false)) ∧
      (runningBank (scanning [60, 40, 255, 20] sc') = some (0, sc') ∧ nextReadFrom sc' row4 4 = (none, false) ∧
        1000 + sc'.spanStep ≤ sc'.spanLast ∧ nextReadFrom sc' row4 0 = (some 0, false)) ∧
      ((walking last).settled ∧ runningBank (walking last) = some (0, last) ∧ nextReadFrom last row4 4 = (none, false) ∧
        last.spanLast < 1000 + last.spanStep ∧ nextRowIsRead (walking last) last [] = true) := by decide +kernel

theorem witness_RowFetchServesTheNode :
    let sc := midStage .nodeRow
    let listed := midStage (.listRow .weak)
    let c := reading (.row 0 5) 512 (walking sc)
    let nothing := List.replicate 512 (255 : Byte)
    (c.mpt.onBus = some (readAccess (.row 0 5) 0x4000 512) ∧ (rowBytes 100).length = 512 ∧ nothing.length = 512 ∧
        c.rgp.partState ≠ .faulted ∧ c.active = true ∧ c.dlv.progressAsked = false ∧
        c.tcu.fetch = some ⟨0, 5, true⟩ ∧ runningBank c = some (0, sc) ∧ sc.phase = .nodeRow ∧
        sc.spanFirst ≤ sc.spanLast) ∧
      nextReadFrom sc (parseRow (rowBytes 100)) 0 = (some 0, false) ∧
      (runningBank (walking listed) = some (0, listed) ∧ listed.phase = .listRow .weak ∧
        nextReadFrom listed (parseRow (rowBytes 100)) 0 = (some 0, false)) ∧
      (nextReadFrom sc (parseRow nothing) 0 = (none, false) ∧
        nextRowIsRead c sc [⟨0, 5, parseRow nothing⟩] = true) ∧
      (nextReadFrom sc (List.replicate 256 0xFFFF) 0 = (none, false) ∧ nextRowIsRead c sc [] = true) := by
  decide +kernel

theorem witness_RefineEntryStartsStageTwo :
    let c := reading (.refine 0 7) 8 { preemption with ccu := Ccu.atReset }
    (c.mpt.onBus = some (readAccess (.refine 0 7) 0x4000 8) ∧ c.rgp.partState ≠ .faulted ∧ c.active = true ∧
        c.ccu.queue = [] ∧
        ((runningBank c).map fun b => (b.1, b.2.phase, b.2.cancelMark, b.2.grid)) = some (0, .refineEntry, false, 0) ∧
        ((runningBank c).bind fun b => b.2.stage1) = some ⟨0, 7, 150210, 36, 118, 21⟩) ∧
      (gridDefn c.tcu.grids 3 = some (grid 100 200 10) ∧ 91 + 9 ≤ (grid 100 200 10).nodeCount ∧
        c.tcu.cache.find? (CacheEntry.isFor 3 91) = none ∧
        accessPasses c.mpt.windows (readAccess (.row 3 91) (0x4000000 + 91 * 512) 512) = true) ∧
      ((gridDefn c.tcu.grids 0).isSome = true ∧ c.tcu.cache.find? (CacheEntry.isFor 0 7) = none ∧
        accessPasses c.mpt.windows (readAccess (.row 0 7) (0x4000000 + 7 * 512) 512) = true) := by decide +kernel

/-- A PARKED bank. -/
def parkedBank (level : Nat) : Option Scan :=
  some { scanOf [1] .boundary with running := false, request := waiting 7 level none }

theorem witness_SelectionTakesTheHighestLevel :
    let c (b : Option Scan) (h : Option Nat) : Chip :=
      { fullQueue with sce := { Sce.atReset with banks := [none, b, none, none] }, lki := { Lki.atReset with horizon := h } }
    selectWinner (c none (some 204610)) = none ∧
      (match selectWinner (c (parkedBank 2) none) with | some (.parked 1 _) => true | _ => false) = true ∧
      selectWinner (c none (some 204611)) = some (.waiting (waiting 134 1 none)) ∧
      selectWinner (c (parkedBank 2) (some 204611)) = some (.waiting (waiting 134 1 none)) := by decide +kernel

theorem witness_RowRequestsOfAnAbsentRow :
    let c := { preemption with tcu := { preemption.tcu with cache := [⟨3, 5, []⟩] } }
    gridDefn c.tcu.grids 1 = none ∧ gridDefn c.tcu.grids 3 = some (grid 100 200 10) ∧ (grid 100 200 10).nodeCount ≤ 100 ∧
      99 < (grid 100 200 10).nodeCount ∧
      c.tcu.cache.find? (fun x => x.grid == 3 && x.node == 5) = some ⟨3, 5, []⟩ ∧
      c.tcu.cache.find? (fun x => x.grid == 3 && x.node == 99) = none ∧
      accessPasses c.mpt.windows (readAccess (.row 3 99) (0x4000000 + 99 * 512) 512) = true ∧
      accessPasses (part .bound).mpt.windows (readAccess (.row 3 99) (0x4000000 + 99 * 512) 512) = false := by
  decide +kernel

theorem witness_GriddefsReloadChangesTheGrids :
    let c := reading (.reloadGrid 3 true) 64 (reloading ⟨3, 9, 4, 0, 0, 0, true⟩ [none, none, none] preemption)
    (c.mpt.onBus = some (readAccess (.reloadGrid 3 true) 0x4000 64) ∧ c.rgp.partState ≠ .faulted ∧ c.active = true ∧
        c.tcu.reload = some ⟨⟨3, 9, 4, 0, 0, 0, true⟩, [none, none, none]⟩ ∧ c.tcu.grids.length = 4 ∧ c.tcu.waiting = []) ∧
      ((reading (.reloadHub 14 false) 32 (part .bound)).mpt.onBus.map Access.purpose = some (.reloadHub 14 false) ∧
        (part .bound).active = true ∧ (part .bound).dlv.progressAsked = false) := by decide +kernel

theorem witness_StationsReloadRestartsChangedChannels :
    let c := reading (.reloadStation 255 true) 32 (reloading ⟨3, 9, 5, 0, 255, 1, false⟩ [] (part .listening))
    c.mpt.onBus = some (readAccess (.reloadStation 255 true) 0x4000 32) ∧ c.rgp.partState ≠ .faulted ∧ c.active = true ∧
      c.tcu.reload = some ⟨⟨3, 9, 5, 0, 255, 1, false⟩, []⟩ ∧ c.tcu.waiting = [] ∧ c.chc.channels.length = 256 ∧
      c.tcu.stationEntries.length = 256 ∧ 255 + 0 < 256 ∧ c.chc.channels[255]? = some Channel.atReset := by decide +kernel

/-- A channel whose trigger is ON and which the entry read takes out of use, and a pick with room and without. -/
theorem witness_StationsReloadRestartsChangedChannels_pick :
    (reloadRestarts onChannel.params (stationParams (parseStation (List.replicate 32 0))) = true ∧
        onChannel.trigger = .on ∧ stationParams (parseStation (List.replicate 32 0)) = none ∧
        onChannel.params.map StationParams.reportPicks = some true) ∧
      ({ part .listening with dlv := { Dlv.atReset with pick := events 15 0 15 false } }).dlv.pick.hasRoom = true ∧
      ({ part .listening with dlv := { Dlv.atReset with pick := events 16 0 16 false } }).dlv.pick.hasRoom = false := by
  decide +kernel

theorem witness_HubsReloadDisablesAndSeeks :
    let c := reading (.reloadHub 15 true) 32
      (reloading ⟨3, 9, 6, 0, 0, 0, false⟩ (List.replicate 15 none) (hub3 (hubOf .live 50025 []) (some 50025)))
    c.mpt.onBus = some (readAccess (.reloadHub 15 true) 0x4000 32) ∧ c.rgp.partState ≠ .faulted ∧ c.active = true ∧
      c.tcu.reload = some ⟨⟨3, 9, 6, 0, 0, 0, false⟩, List.replicate 15 none⟩ ∧ c.tcu.waiting = [] ∧
      c.lki.hubs.length = 16 ∧ c.tcu.hubEntries.length = 16 ∧ c.lki.hubs[15]? = some Hub.atReset ∧
      c.tcu.hubEntries[15]? = some (some ⟨1, 1⟩) ∧ c.lki.horizon = some 50025 := by decide +kernel

theorem witness_ConfigReloadReplacesTheSettings :
    let c := reading .reloadConfig 256 (reloading ⟨3, 9, 7, 0, 0, 0, false⟩ [] preemption)
    c.mpt.onBus = some (readAccess .reloadConfig 0x4000 256) ∧ c.rgp.partState ≠ .faulted ∧
      c.tcu.reload = some ⟨⟨3, 9, 7, 0, 0, 0, false⟩, []⟩ ∧ c.tcu.waiting = [] ∧ settingsBlock.length = 256 ∧
      settingsValid c.tcu.grids (parseSettings settingsBlock) = true ∧
      settingsValid c.tcu.grids (parseSettings (List.replicate 256 0)) = false := by decide +kernel

/-- An Lmax of 25 stalls a hub 26 ticks or more behind the leading one, and not a hub 25 ticks behind. -/
theorem witness_ConfigReloadReplacesTheSettings_stall :
    let c := links (hubOf .live 200150 []) (hubOf .live 200125 []) (hubOf .live 200100 [])
    (parseSettings settingsBlock).lmax = 25 ∧ c.lki.lead = some 200150 ∧ c.lki.hubs[1]? = some (hubOf .live 200125 []) ∧
      200150 ≤ 200125 + 25 ∧ c.lki.hubs[2]? = some (hubOf .live 200100 []) ∧ 200100 + 25 < 200150 ∧
      c.lki.hubs[3]? = some Hub.atReset ∧ Hub.atReset.state ≠ .live ∧ c.active = true := by decide +kernel

/-! ### Orders -/

theorem witness_PollTimerBeginsAPoll :
    let c := { part .bound with ord := { Orders.atReset with timer := some 100 } }
    let polling := { c with ord := { c.ord with poll := some [] } }
    ((part .bound).settled ∧ ¬ ((part .bound).ord.timer.isSome = true ∧ (part .bound).active = true)) ∧
      (c.ord.timer.isSome = true ∧ c.active = true ∧ c.ord.poll = none ∧ c.ord.drainPending = none) ∧
      (polling.settled ∧ polling.ord.poll.isSome = true ∧ polling.active = true) ∧
      ({ c with ord := { c.ord with drainPending := some (0, 0) } }).ord.drainPending.isSome = true := by decide

theorem witness_SlotReadsGatherThePoll :
    let c (n : Nat) : Chip := reading (.slotRead n) 64 { part .bound with
      ord := { Orders.atReset with poll := some (List.replicate n none), repeatMark := true } }
    let b := List.replicate 64 (0 : Byte)
    ((c 30).mpt.onBus = some (readAccess (.slotRead 30) 0x4000 64) ∧ b.length = 64 ∧ (c 30).rgp.partState ≠ .faulted ∧
        (c 30).dlv.progressAsked = false ∧ (c 30).ord.poll = some (List.replicate 30 none) ∧ 30 + 1 < 32) ∧
      ((c 31).ord.poll = some (List.replicate 31 none) ∧ 32 ≤ 31 + 1 ∧
        ∀ x ∈ List.replicate 31 none ++ [some b], (x.map fun y => byteAt y 0) ≠ some 1) ∧
      (∀ y ∈ List.replicate 31 (none : Option (List Byte)) ++ [none], y = none) ∧
      (c 31).ord.repeatMark = true ∧ (c 31).active = true ∧ (c 31).ord.drainPending = none := by decide +kernel

/-- The last slot read of a poll of a LISTENING part: slots 7 and 9 hold MARK orders of the expected sequence, 14, and
slot 20, if it is wanted, a drained INVALIDATE of every row with sequence 15. -/
def taking (again drained : Bool) : Chip :=
  reading (.slotRead 31) 64 { part .listening with
    ord := { Orders.atReset with
      expected := 14
      repeatMark := again
      poll := some ((numbersFrom 0 31).map fun i =>
        if i = 7 ∨ i = 9 then some (slotOf 14 (~~~ 14) 4 [7, 0, 0, 0])
        else if i = 20 ∧ drained then some (slotOf 15 (~~~ 15) 2 [1, 1, 0, 0])
        else none) }
    dlv := (delivering (events 5015 5000 300 false) []).dlv }

/-- An order waits: it is taken with its duplicate; a drained INVALIDATE ends the run; the answer may be an error. -/
theorem witness_SlotReadsGatherThePoll_takes :
    let got (drained : Bool) := (taking true drained).ord.poll.getD []
    let b := slotOf 14 (~~~ 14) 4 [7, 0, 0, 0]
    let drain := slotOf 15 (~~~ 15) 2 [1, 1, 0, 0]
    let start (again drained : Bool) : Chip :=
      { taking again drained with
        mpt := { (taking again drained).mpt with onBus := none }
        ord := { (taking again drained).ord with poll := some (got drained ++ [none]), takeRun := some [] } }
    ((taking true true).mpt.onBus = some (readAccess (.slotRead 31) 0x4000 64) ∧ (taking true true).active = true ∧
        (taking true true).dlv.progressAsked = false ∧ (taking true true).rgp.partState ≠ .faulted ∧
        (got true).length + 1 = 32) ∧
      { (taking true true).ord with takeRun := some [] }.takeables (got true ++ [none]) = [(7, b), (9, b)] ∧
      ¬ drainsRows b ∧ drainsRows drain ∧
      (let first := takeSlot 7 b [(9, b)] (start true true)
       first.ord.takeables (got true ++ [none]) = [(20, drain)] ∧
         (takeSlot 20 drain [] first).ord.takeables (got true ++ [none]) = []) ∧
      (let last := takeRun 31 (got false ++ [none]) (takeSlot 7 b [(9, b)] (start false false))
       last.ord.repeatMark = false) ∧
      (let last := takeRun 31 (got false ++ [none]) (takeSlot 7 b [(9, b)] (start true false))
       last.ord.repeatMark = true ∧ last.active = true ∧ last.ord.drainPending = none) := by decide +kernel

/-- A part in a take run with grid 0 defined, H at 5,246, and eight requests or fewer waiting. -/
def dispatching (n : Nat) : Chip :=
  { preemption with
    lki := { Lki.atReset with horizon := some 5246 }
    ord := { Orders.atReset with poll := some [], takeRun := some [] }
    sce := Sce.atReset
    ccu := { Ccu.atReset with queue := (List.replicate 8 (waiting 130 3 none)).take n, requestCounter := 65535 } }

/-- SCAN: a parameter out of its range, a node range past the grid, a part that does not listen, H one tick past the limit
and at it, a full queue, and room with nothing ripe and with a bank in service. -/
theorem witness_EachTakeConsumesItsSequence_scan :
    let c := dispatching 7
    gridDefn c.tcu.grids 1 = none ∧ gridDefn c.tcu.grids 0 = some { grid 1600 150 0 with refineBase := 0x8000000 } ∧
      (2048 < (4096 - 0) / 2 + 1 ∧ ¬ 2048 < (4095 - 0) / 2 + 1) ∧ 1600 < 1591 + 10 ∧ 1590 + 10 ≤ 1600 ∧
      (part .stopping).rgp.partState ≠ .listening ∧ c.rgp.partState = .listening ∧ c.lki.horizon = some 5246 ∧
      999 + 150 + 4096 < 5246 ∧ 5246 ≤ 1000 + 150 + 4096 ∧ 8 ≤ (dispatching 8).ccu.queue.length ∧
      c.ccu.queue.length < 8 ∧ 65535 ≤ c.ccu.requestCounter ∧ 5246 ≤ 4946 + 300 ∧
      (∀ r ∈ c.ccu.queue, 5246 ≤ r.refTick + r.settleLag) ∧ preemption.sce.banks.any Option.isSome = true := by
  decide +kernel

/-- INVALIDATE: an earlier one under way, a scope that is malformed, the row scopes drained or not with a bank marked or
none, and a reload. -/
theorem witness_EachTakeConsumesItsSequence_invalidate :
    let c := dispatching 0
    let marked := { c with sce := { Sce.atReset with banks :=
      [some { scanOf [2] .nodeRow with ranges := [none, none, some (4410, 4413), none] }, none, none, none] } }
    (c.ord.poll.isSome = true ∧ c.active = true ∧ c.tcu.reload = none ∧ c.tcu.drain = none) ∧
      (reloading ⟨3, 9, 4, 0, 0, 0, true⟩ [] c).tcu.reload.isSome = true ∧
      8192 < 8183 + 10 ∧ 8182 + 10 ≤ 8192 ∧ 256 < 250 + 7 ∧ 250 + 6 ≤ 256 ∧ (0 < 64 ∧ 64 ≤ 64) ∧ 64 < 65 ∧
      markedNumbers (.nodes 2 4413 64) marked.tcu.fetch marked.sce.banks = [118] ∧
      markedNumbers (.nodes 2 4414 64) marked.tcu.fetch marked.sce.banks = [] := by decide +kernel

/-- CANCEL: a waiting request, a RUNNING and a PARKED scan, each with and without an order, and a number that none has. -/
theorem witness_EachTakeConsumesItsSequence_cancel :
    let queued (o : Option (Nat × BitVec 8)) : Chip :=
      { dispatching 0 with ccu := { Ccu.atReset with queue := [waiting 131 3 o] } }
    let banked (running : Bool) (o : Option (Nat × BitVec 8)) : Scan :=
      { scanOf [1] .boundary with running := running, request := waiting 132 2 o }
    (∀ o ∈ [none, some (4, 1)],
      (queued o).ccu.queue.find? (fun r => r.number == 131) = some (waiting 131 3 o) ∧
        ∀ b ∈ [false, true],
          bankOf 132 { queued o with sce := { Sce.atReset with banks := [none, some (banked b o), none, none] } } =
            some (1, banked b o)) ∧
      (queued none).ccu.queue.find? (fun r => r.number == 132) = none ∧ bankOf 132 (queued none) = none ∧
      (queued none).tcu.drain = none := by decide +kernel

/-- MARK: a full queue, a queue with a place left and no room, and room with nothing waiting. -/
theorem witness_EachTakeConsumesItsSequence_mark :
    let c (free : Word32) (n : Nat) : Chip := delivering (events 5016 free 300 false) (List.replicate n (located 301 40))
    8 ≤ (c 5000 8).dlv.pendingEvents.length ∧ (c 5000 7).dlv.pendingEvents.length < 8 ∧
      (c 5000 7).dlv.event.hasRoom = false ∧ (c 5000 7).dlv.event.noRoom = false ∧ (c 5001 0).dlv.event.hasRoom = true ∧
      (c 5001 0).dlv.pendingEvents = [] := by decide +kernel

theorem witness_SlotWriteSetsOrder :
    let c := writing (.slotState 31 true) (part .stopping)
    c.mpt.onBus.map Access.purpose = some (.slotState 31 true) ∧ c.rgp.partState ≠ .faulted ∧
      c.dlv.progressAsked = false ∧
      (writing (.slotResult 0) (part .bound)).mpt.onBus.map Access.purpose = some (.slotResult 0) := by decide

/-! ### Delivery -/

theorem witness_ReturnBlockGivesRoomBack :
    let c := reading .returnBlock 64 (delivering (events 5016 5000 300 true) [])
    let one := reading .returnBlock 64 (delivering (events 5016 5000 300 true) [located 301 40])
    c.mpt.onBus = some (readAccess .returnBlock 0x4000 64) ∧ c.rgp.partState ≠ .faulted ∧ c.dlv.pendingEvents = [] ∧
      c.dlv.reread = false ∧ one.dlv.pendingEvents = [located 301 40] ∧
      ((5016 - 5001 : Word32)).toNat < one.dlv.event.slots := by decide

/-- Two records waiting: with no slot, with one and with two given back, the mark set and clear, the read in flight. -/
theorem witness_ReturnBlockGivesRoomBack_queue :
    let c (marked : Bool) : Chip :=
      reading .returnBlock 64 (delivering (events 5016 5000 302 marked) [located 301 40, located 302 18])
    let free (released : Word32) : Nat := 16 - (5016 - released).toNat
    (∀ m ∈ [false, true], (c m).mpt.onBus = some (readAccess .returnBlock 0x4000 64) ∧ (c m).rgp.partState ≠ .faulted ∧
        (c m).dlv.event.slots ≤ 4294967295 ∧ (c m).dlv.returnRead = true ∧ (c m).active = true ∧
        (c m).dlv.pendingEvents[1]? = some (located 302 18)) ∧
      free 5000 = 0 ∧ free 5001 = 1 ∧ free 5002 = 2 ∧
      (leBytes 4 0 ++ leBytes 4 5001 ++ List.replicate 56 (0 : Byte)).length = 64 ∧
      leValue (leBytes 4 0 ++ leBytes 4 5001 ++ List.replicate 56 (0 : Byte)) 4 4 = 5001 := by decide +kernel

theorem witness_RecordWriteAdvancesThePublishedTotal :
    let c := writing (.record .pick) (part .stopping)
    c.mpt.onBus.map Access.purpose = some (.record .pick) ∧ c.active = true := by decide

theorem witness_CompletedWriteShowsTheTotals :
    let c := writing .progressLast { part .bound with
      dlv := { Dlv.atReset with progress := some ⟨1, 1, 1, true⟩, rewrite := true } }
    (c.mpt.onBus.map Access.purpose = some .progressLast ∧ c.rgp.partState ≠ .faulted ∧ c.rgp.binding = none ∧
        c.dlv.progress = some ⟨1, 1, 1, true⟩ ∧ c.dlv.progressAsked = false ∧ c.dlv.rewrite = true ∧ c.active = true ∧
        c.dlv.epochShown.toNat < (1 : Word32).toNat ∧ c.dlv.updateCount.toNat < 4294967295) ∧
      (writing .progressFirst (part .bound)).mpt.onBus.map Access.purpose = some .progressFirst ∧
      (writing .progressMiddle (part .bound)).mpt.onBus.map Access.purpose = some .progressMiddle := by decide

theorem witness_NoticeCountPromptsOnceForEachKRecords :
    (0 < 3 ∧ 2 < 3 ∧ 3 ≤ 3 ∧ 0 < 1) ∧
      (let c := writing .progressLast { noticed 2 with dlv := { (noticed 2).dlv with progress := some ⟨0, 6, 0, true⟩ } }
       c.mpt.onBus.map Access.purpose = some .progressLast ∧ c.rgp.partState ≠ .faulted ∧ c.rgp.binding = none ∧
         c.dlv.progress.isSome = true ∧ c.dlv.progressAsked = false) ∧
      (noticed 2).settled ∧ ¬ noticeLimit .event (noticed 2) ≤ ((noticed 2).dlv.stream .event).notice ∧
      (noticed 3).settled ∧ noticeLimit .event (noticed 3) = 3 ∧ ((noticed 3).dlv.stream .event).notice = 3 := by
  decide +kernel

theorem witness_RawEpochGoesToAFreeHalf :
    let c := outgoing true (some 0)
    (c.rgp.partState ≠ .faulted ∧ c.dlv.outgoing.isSome = true ∧ leValue [1, 0, 0, 0] 0 4 = 1 ∧
        (reading (.rawState 1) 4 c).mpt.onBus = some (readAccess (.rawState 1) 0x4000 4) ∧ c.dlv.selector = some 0) ∧
      ((outgoing true none).dlv.selector ≠ some 0 ∧ leValue [0, 0, 0, 0] 0 4 ≠ 1) ∧
      (((none : Option (List Byte)).any fun b => leValue b 0 4 == 1) = false ∧ c.active = true ∧
        (outgoing false none).dlv.outgoing.map Outgoing.half0Free = some false) ∧
      (writing (.rawTick 1 499) c).mpt.onBus.map Access.purpose = some (.rawTick 1 499) ∧
      (writing (.rawHeader 0) c).mpt.onBus.map Access.purpose = some (.rawHeader 0) ∧
      (writing (.rawFull 1) c).mpt.onBus.map Access.purpose = some (.rawFull (1 : Fin 2).val) := by decide +kernel

theorem witness_FullQueueKeepsTheStrongestRecords :
    let c := delivering (events 5016 5000 308 true)
      [located 301 40, located 302 18, ⟨303, .marker 0⟩, located 304 52, ⟨305, .marker 0⟩, located 306 33, located 307 25,
        ⟨308, .marker 0⟩]
    c.dlv.pendingEvents.length = 8 ∧ (c.dlv.pendingEvents.map EventRecord.seq).Nodup ∧ c.dlv.event.hasRoom = false ∧
      (∃ w ∈ c.dlv.pendingEvents, coherence w.content < coherence (located 0 1).content) ∧
      ∀ w ∈ c.dlv.pendingEvents, coherence (.marker 0) ≤ coherence w.content := by decide +kernel

/-! ### Faults and invariants -/

theorem witness_FaultIsRecordedInOneOfThreeWays :
    let f (s : FaultSource) : Option FaultRecord := some ⟨s, .bus, 0, 65535, none⟩
    let m : Mpt := { Mpt.atReset with records := [f .raw, none, f .rows, none] }
    let full : Mpt := { Mpt.atReset with records := [f .raw, f .rows, f .refine, f .tables] }
    f .rows ∈ m.records ∧ none ∈ m.records ∧ none ∉ full.records ∧
      hasSource .bind (f .raw) = false ∧ m.records.any (hasSource .bind) = false ∧
      full.records.any (hasSource .bind) = false := by decide

theorem witness_FaultClearFreesRecords : 3 ≤ 3 ∧ 0xFF = 0xFF ∧ 3 < 4 ∧ 4 ≠ 0xFF := by decide

theorem witness_HaltingFaultEntersFaulted :
    (writing (.slotResult 31) (part .stopping)).mpt.onBus.map Access.purpose = some (.slotResult 31) ∧
      (writing .progressLast (part .binding)).mpt.onBus.map Access.purpose = some .progressLast ∧
      (part .binding).rgp.partState ≠ .faulted ∧ (part .stopping).rgp.partState ≠ .faulted := by decide

theorem witness_FaultedPartAndUnansweredAccess :
    let c := reading (.row 0 0) 512 (part .faulted)
    c.settled ∧ c.mpt.onBus = some (readAccess (.row 0 0) 0x4000 512) ∧ c.rgp.partState = .faulted ∧
      (part .faulted).mpt.onBus = none := by decide

/-- The state that meets the hypotheses of the seven statements that every step keeps an invariant: a part with an H, and
NUDGE in front. -/
theorem witness_invariants :
    let c := { hub3 (hubOf .live 50025 []) (some 50025) with chc := Chc.atReset }
    (c.settled ∧ c.mpt.faultsSound ∧ c.lki.horizonSound ∧ c.chc.sound ∧ c.ccu.queueBounded ∧ c.tcu.cacheBounded ∧
        c.dlv.pendingBounded ∧ c.dlv.streamsSound ∧ c.sce.banksSound) ∧
      (match step ⟨c, [.nudge]⟩ with | .next _ => true | _ => false) = true ∧ c.lki.horizon = some 50025 ∧
      ([Instr.nudge].head?.all fun i => !startsOver i) = true := by decide +kernel

end Sys2Proof.Tests
end

section
/-! SUPPORT. What a command can do, said once for all thirty-seven: it is ignored, or its event happens and the step
ends, or the access on the bus ends, or the model stops. -/

namespace Sys2Proof.Machine

/-! ## The forms of a command -/

/-- The event of a command that answers no access: what it does before the end of the step. A command that answers one
has its effect through `accessEnds`. A register write is ignored while the reset pin is held (R17). -/
def eventEffect (i : Instr) (c : Chip) : Chip :=
  let written (f : Chip → Chip) : Chip := if c.rgp.resetHeld then c else f c
  match i with
  | .powerOnReset auto dirsel => releaseReset auto dirsel c
  | .reset auto dirsel => written (releaseReset auto dirsel)
  | .bind => written (controlCommand 1 bindValid bindEffect)
  | .listen => written (controlCommand 2 listenValid listenEffect)
  | .stop => written (controlCommand 3 stopValid stopEffect)
  | .nudge => written (controlCommand 4 Chip.active nudgeEffect)
  | .refusedCode value => written (noteControl (value.setWidth 8) .refusedCode)
  | .causeWrite value => written (Chip.onRgp fun r => { r with cause := r.cause &&& ~~~(value.setWidth 8) })
  | .maskWrite value => written (Chip.onRgp fun r => { r with mask := value.setWidth 8 })
  | .dirbaseWrite hi value => written (writeDirbase hi value)
  | .hubFrameArrival port line => burstEnds port.val line c
  | .badFrameLimit hub => badLimitEvent hub.val c
  | .silenceTimerExpiry hub => silenceEvent hub.val c
  | .cfReadAnswer => engineOn (cfAnswered c)
  | .pollTimerExpiry => pollTimerEvent c
  | .noticeCountReached stream => takeNotice stream c
  | .powerOnResetHold => holdReset c
  | _ => c

/-- What a command can come to, with the part as it stands and the queue behind it. -/
inductive CommandForm (i : Instr) (c : Chip) (q : List Instr) : StepOutcome → Prop where
  /-- it concerns nothing that is under way -/
  | ignored : CommandForm i c q (.next ⟨c, q⟩)
  /-- its event happens, and the step ends -/
  | event : CommandForm i c q (.next ⟨concludeStep (eventEffect i c), q⟩)
  /-- the access on the bus ends, with data or with a bus error -/
  | answered (a : Access) (r : Option (List Byte)) (onBus : c.mpt.onBus = some a) :
    CommandForm i c q (.next ⟨accessEnds (handlerOf a.purpose) a r c, q⟩)
  /-- its data is not as long as the access on the bus -/
  | wrongLength (a : Access) (b : List Byte) (onBus : c.mpt.onBus = some a) (data : answerData i = some b)
    (length : b.length ≠ a.len) : CommandForm i c q (.fault .answerLength)
  /-- its operand belongs to another row -/
  | otherRow (form : wellFormed i = false) : CommandForm i c q (.refused .operandOfAnotherRow)

/-- The answer to a read, for the accesses whose handler it names. -/
theorem answerRead_form {i : Instr} {isFor : Purpose → Bool} {handler : Access → Option (List Byte) → Chip → Chip}
    (answer : ReadAnswer) (c : Chip) (q : List Instr) (handles : ∀ p, isFor p = true → handlerOf p = handler)
    (carries : ∀ b, answer = .data b → answerData i = some b) :
    CommandForm i c q (answerRead isFor handler answer ⟨c, q⟩) := by
  cases onBus : c.mpt.onBus with
  | none => simpa [answerRead, onBus] using CommandForm.ignored
  | some a =>
    by_cases concerns : isFor a.purpose = true
    · rw [← handles _ concerns]
      cases answer with
      | error => simpa [answerRead, onBus, concerns] using CommandForm.answered a none onBus
      | data b =>
        by_cases length : b.length = a.len
        · simpa [answerRead, onBus, concerns, length] using CommandForm.answered a (some b) onBus
        · simpa [answerRead, onBus, concerns, length] using
            CommandForm.wrongLength a b onBus (carries b rfl) length
    · simpa [answerRead, onBus, concerns] using CommandForm.ignored

/-- The answer to a write, for the accesses whose handler it names. -/
theorem answerWrite_form {i : Instr} {isFor : Purpose → Bool} {handler : Access → Option (List Byte) → Chip → Chip}
    (ok : Bool) (c : Chip) (q : List Instr) (handles : ∀ p, isFor p = true → handlerOf p = handler) :
    CommandForm i c q (answerWrite isFor handler ok ⟨c, q⟩) := by
  cases onBus : c.mpt.onBus with
  | none => simpa [answerWrite, onBus] using CommandForm.ignored
  | some a =>
    by_cases concerns : isFor a.purpose = true
    · rw [← handles _ concerns, answerWrite_on _ _ _ _ _ a onBus concerns]
      exact .answered a _ onBus
    · simpa [answerWrite, onBus, concerns] using CommandForm.ignored

/-- A register write, held or not. -/
theorem registerWrite_form {i : Instr} {f : Chip → Chip} (c : Chip) (q : List Instr)
    (effect : eventEffect i c = if c.rgp.resetHeld then c else f c) : CommandForm i c q (registerWrite f ⟨c, q⟩) := by
  have form : CommandForm i c q (.next ⟨concludeStep (eventEffect i c), q⟩) := .event
  rwa [effect] at form

/-- A value that is none of the five codes is a register write (R6). -/
theorem exec_refusedCode (value : Word32) (s : State) (h : commandCodes.contains value = false) :
    exec (.refusedCode value) s = registerWrite (noteControl (value.setWidth 8) .refusedCode) s :=
  if_neg (Bool.eq_false_iff.mp h)

/-- A register write at an offset whose writes are ignored leaves the state as it is (R3). -/
theorem exec_ignoredRegisterWrite (offset : BitVec 5) (value : Word32) (s : State)
    (h : ignoredOffsets.contains offset = true) : exec (.ignoredRegisterWrite offset value) s = .next s := if_pos h

/-- Every command takes one of the forms. -/
theorem exec_form (i : Instr) (c : Chip) (q : List Instr) : CommandForm i c q (exec i ⟨c, q⟩) := by
  cases i with
  | powerOnReset | hubFrameArrival | badFrameLimit | silenceTimerExpiry | cfReadAnswer | pollTimerExpiry
  | noticeCountReached | powerOnResetHold => exact .event
  | reset | bind | listen | stop | nudge | causeWrite | maskWrite | dirbaseWrite => exact registerWrite_form c q rfl
  | refusedCode value =>
    cases code : commandCodes.contains value with
    | true =>
      have refused : exec (.refusedCode value) ⟨c, q⟩ = .refused .operandOfAnotherRow := if_pos code
      exact refused ▸ .otherRow (by simp only [wellFormed, code, Bool.not_true])
    | false => exact exec_refusedCode value ⟨c, q⟩ code ▸ registerWrite_form c q rfl
  | ignoredRegisterWrite offset value =>
    cases ignored : ignoredOffsets.contains offset with
    | true => exact exec_ignoredRegisterWrite offset value ⟨c, q⟩ ignored ▸ .ignored
    | false =>
      have refused : exec (.ignoredRegisterWrite offset value) ⟨c, q⟩ = .refused .operandOfAnotherRow :=
        if_neg (Bool.eq_false_iff.mp ignored)
      exact refused ▸ .otherRow ignored
  | directoryReadDone | bindTableReadDone | rowFetchDone | refineReadDone | orderSlotReadDone | griddefsReloadDone
  | stationsReloadDone | hubsReloadDone | configReloadDone | returnBlockReadDone | rawStateReadDone
  | reloadReadDone =>
    refine answerRead_form _ c q (fun p concerns => ?_) (fun b data => by subst data; rfl)
    cases p <;> simp_all [handlerOf, isDirectory, isBindTable, isRow, isRefine, isSlotRead, isLastGrid, isLastStation,
      isLastHub, isConfig, isReturnBlock, isRawState, isEarlierRead]
  | orderSlotWriteDone | recordWriteDone | progressWriteDone | rawHalfWriteDone | rawFullWriteDone
  | progressBlockWordWriteDone =>
    refine answerWrite_form _ c q (fun p concerns => ?_)
    cases p <;> simp_all [handlerOf, isSlotWrite, isRecord, isProgressLast, isRawHalf, isRawFull, isProgressWord]
  | answerLimitExpiry =>
    cases onBus : c.mpt.onBus with
    | none => simpa [exec, execAnswerLimitExpiry, endUnanswered, onBus] using CommandForm.ignored
    | some a => simpa [exec, execAnswerLimitExpiry, endUnanswered, onBus] using CommandForm.answered a none onBus

end Sys2Proof.Machine
end

section
/-! SUPPORT. The end of a step (R164, R169): what it keeps on the bus, what it leaves of DLV, and when it changes
nothing. -/

namespace Sys2Proof.Machine

/-! ## Settled parts -/

/-- Being settled rests on MPT and DLV alone. -/
theorem Chip.settled_of_eq {c d : Chip} (settled : c.settled) (hm : d.mpt = c.mpt) (hd : d.dlv = c.dlv) :
    d.settled := by
  rw [Chip.settled, hm, hd]
  exact settled

/-- A register write that leaves MPT and DLV alone, in a settled part. -/
theorem registerWrite_settled (f : Chip → Chip) (c : Chip) (q : List Instr) (released : c.rgp.resetHeld = false)
    (settled : c.settled) (hm : (f c).mpt = c.mpt) (hd : (f c).dlv = c.dlv) :
    registerWrite f ⟨c, q⟩ = .next ⟨f c, q⟩ := by
  rw [registerWrite_released f c q released, concludeStep_of_settled _ (Chip.settled_of_eq settled hm hd)]

/-- A register write while the reset pin is held leaves a settled part as it is (R17). -/
theorem registerWrite_held_settled (f : Chip → Chip) (c : Chip) (q : List Instr) (held : c.rgp.resetHeld = true)
    (settled : c.settled) : registerWrite f ⟨c, q⟩ = .next ⟨c, q⟩ := by
  rw [registerWrite_held f c q held, concludeStep_of_settled c settled]

/-! ## Accesses that are carried (R169) -/

/-- A block's requests join those that wait. -/
theorem requestAll_carries (b : Requester) (l : List Access) (c : Chip) (x : Access) :
    (requestAll b l c).mpt.carries x ↔ c.mpt.carries x ∨ x ∈ l := by
  cases b <;> simp only [requestAll, Chip.onMpt_mpt, Mpt.carries, Mpt.setWaits, Mpt.waits, List.mem_append] <;> grind

/-- A block's request joins those that wait. -/
theorem request_carries (b : Requester) (a : Access) (c : Chip) (x : Access) :
    (request b a c).mpt.carries x ↔ c.mpt.carries x ∨ x = a := by
  rw [← List.mem_singleton]
  exact requestAll_carries b [a] c x

/-- The beginning of a progress block write loses no access. -/
theorem beginProgress_carries (st : PartState) (c : Chip) (x : Access) (h : c.mpt.carries x) :
    (beginProgress st c).mpt.carries x := by
  rw [beginProgress, requestAll_carries]
  exact .inl h

/-- The end of a step loses no access. -/
theorem concludeStep_carries (c : Chip) (x : Access) (h : c.mpt.carries x) : (concludeStep c).mpt.carries x := by
  refine Mpt.grant_carries _ x ?_
  unfold startAsked
  split
  · dsimp only
    split
    · exact beginProgress_carries _ _ x h
    · exact h
  · exact h

/-- The one request of RGP is granted to a free bus. -/
theorem Mpt.grant_ofRgp (m : Mpt) (a : Access) (free : m.onBus = none) (rgp : m.waitRgp = [a]) (tcu : m.waitTcu = [])
    (ord : m.waitOrd = []) (dlv : m.waitDlv = []) :
    m.grant = { m with waitRgp := [], onBus := some a, lastGrant := .rgp } := by
  cases last : m.lastGrant <;>
    simp [Mpt.grant, free, last, Requester.after, grantAmong, Mpt.waits, rgp, tcu, ord, dlv, Mpt.setWaits]

/-! ## The asking for a progress block write (R164) -/

/-- An occasion sets the rewrite mark when a write is in flight or begun. -/
@[simp] theorem Dlv.ask_rewrite (d : Dlv) : d.ask.rewrite = (d.rewrite || d.progress.isSome || d.progressAsked) := by
  cases h : d.progress.isSome <;> cases h' : d.progressAsked <;> simp [Dlv.ask, h, h']

/-- An occasion has a write begin when none is in flight. -/
@[simp] theorem Dlv.ask_progressAsked (d : Dlv) : d.ask.progressAsked = (d.progressAsked || !d.progress.isSome) := by
  cases h : d.progress.isSome <;> cases h' : d.progressAsked <;> simp [Dlv.ask, h, h']

/-- An occasion changes the rewrite mark and the asking alone. -/
theorem Dlv.ask_eq (d : Dlv) :
    d.ask = { d with progressAsked := d.ask.progressAsked, rewrite := d.ask.rewrite } := by
  unfold Dlv.ask
  split <;> rfl

/-- DLV asks in BOUND, LISTENING and STOPPING. -/
theorem askProgress_dlv (c : Chip) (active : c.active = true) : (askProgress c).dlv = c.dlv.ask := by
  simp [askProgress, active]

/-- What the end of a step leaves of DLV: all but the progress block write that begins. -/
theorem concludeStep_dlv (c : Chip) :
    (concludeStep c).dlv = { c.dlv with
      progressAsked := false
      progress := (concludeStep c).dlv.progress
      updateCount := (concludeStep c).dlv.updateCount
      faultUnshown := (concludeStep c).dlv.faultUnshown } := by
  simp only [concludeStep, Chip.onMpt_dlv]
  unfold startAsked
  split
  case isTrue =>
    dsimp only
    split <;> rfl
  case isFalse notAsked =>
    rw [← Bool.eq_false_iff.mpr notAsked]

/-- A progress block write in flight stays so to the end of the step, and one asked for in BOUND, LISTENING or STOPPING
is in flight then. -/
theorem concludeStep_progress (c : Chip)
    (due : c.dlv.progress.isSome = true ∨ (c.active = true ∧ c.dlv.progressAsked = true)) :
    (concludeStep c).dlv.progress.isSome = true := by
  simp only [concludeStep, Chip.onMpt_dlv]
  unfold startAsked
  split
  case isTrue =>
    dsimp only
    split
    case isTrue => rfl
    case isFalse idle => exact due.resolve_right fun asks => idle asks.1
  case isFalse notAsked => exact due.resolve_right fun asks => notAsked asks.2

end Sys2Proof.Machine
end

section
/-! SUPPORT. The registers (R3 to R7): what each read shows, what each write leaves, and the bits of CAUSE. -/

namespace Sys2Proof.Machine

/-! ## Reads -/

theorem Rgp.read_id (r : Rgp) : r.readRegister 0x00 = 0x02564C01 := rfl
theorem Rgp.read_status (r : Rgp) : r.readRegister 0x08 = r.statusWord := rfl
theorem Rgp.read_dirbaseLo (r : Rgp) : r.readRegister 0x0C = r.dirbase.setWidth 32 := rfl
theorem Rgp.read_dirbaseHi (r : Rgp) : r.readRegister 0x10 = (r.dirbase >>> 32).setWidth 32 := rfl
theorem Rgp.read_cause (r : Rgp) : r.readRegister 0x14 = r.cause.setWidth 32 := rfl
theorem Rgp.read_mask (r : Rgp) : r.readRegister 0x18 = r.mask.setWidth 32 := rfl

/-- The offsets above the last register read 0. -/
theorem Rgp.read_unused (r : Rgp) (offset : BitVec 5) (h : 0x1C ≤ offset.toNat) : r.readRegister offset = 0 := by
  have other (n : BitVec 5) (low : n.toNat < 0x1C) : offset ≠ n := fun same => by subst same; omega
  simp only [Rgp.readRegister, other 0x00 (by decide), other 0x04 (by decide), other 0x08 (by decide),
    other 0x0C (by decide), other 0x10 (by decide), other 0x14 (by decide), other 0x18 (by decide), if_false]

/-- A register of eight bits shows them in its low byte. -/
theorem getLsbD_setWidth_byte (x : BitVec 8) (b : Nat) :
    (x.setWidth 32).getLsbD b = (decide (b < 8) && x.getLsbD b) := by
  by_cases small : b < 8
  · simp [small, show b < 32 by omega]
  · simp [small, BitVec.getLsbD_of_ge x b (by omega)]

/-- DIRBASE_HI shows the eight high bits of DIRBASE in its low byte. -/
theorem getLsbD_highByte (x : BitVec 40) (b : Nat) :
    ((x >>> 32).setWidth 32).getLsbD b = (decide (b < 8) && x.getLsbD (b + 32)) := by
  rw [BitVec.getLsbD_setWidth, BitVec.getLsbD_ushiftRight, Nat.add_comm]
  by_cases small : b < 8
  · simp [small, show b < 32 by omega]
  · simp [small, BitVec.getLsbD_of_ge x (b + 32) (by omega)]

/-! ## STATUS -/

/-- STATUS as a number: five fields, each below the next one's place. -/
theorem Rgp.statusWord_toNat (r : Rgp) :
    r.statusWord.toNat = partStateCode r.partState + 16 * bindResultCode r.bindResult
        + 256 * haltSourceCode r.haltSource + 4096 * r.autoStrap.toNat + 8192 * r.dirselStrap.toNat ∧
      partStateCode r.partState < 8 ∧ bindResultCode r.bindResult < 8 ∧ haltSourceCode r.haltSource < 4 ∧
      r.autoStrap.toNat < 2 ∧ r.dirselStrap.toNat < 4 := by
  have part : partStateCode r.partState < 8 := by cases r.partState <;> decide
  have bind : bindResultCode r.bindResult < 8 := by cases r.bindResult <;> decide
  have halt : haltSourceCode r.haltSource < 4 := by cases r.haltSource <;> decide
  have auto : (if r.autoStrap then 1 else 0) = r.autoStrap.toNat := by cases r.autoStrap <;> rfl
  have autoLt : r.autoStrap.toNat < 2 := Bool.toNat_lt _
  have dirsel : r.dirselStrap.toNat < 4 := r.dirselStrap.isLt
  refine ⟨?_, part, bind, halt, autoLt, dirsel⟩
  rw [Rgp.statusWord, BitVec.toNat_ofNat, auto]
  exact Nat.mod_eq_of_lt (by omega)

/-- Some bits of a word, as a number. -/
theorem extractLsb'_eq_iff {w : Nat} (x : BitVec w) (start len : Nat) (y : BitVec len) :
    x.extractLsb' start len = y ↔ x.toNat / 2 ^ start % 2 ^ len = y.toNat := by
  rw [← BitVec.toNat_inj, BitVec.extractLsb'_toNat, Nat.shiftRight_eq_div_pow]

/-- One bit of a word, as a number. -/
theorem getLsbD_eq_decide {w : Nat} (x : BitVec w) (b : Nat) : x.getLsbD b = decide (x.toNat / 2 ^ b % 2 = 1) :=
  Nat.testBit_eq_decide_div_mod_eq

/-! ## CAUSE (R5) -/

/-- The word of one cause bit. -/
theorem causeMask_getLsbD (bit b : Nat) (h : bit < 8) : (causeMask bit).getLsbD b = (b == bit) := by
  rw [causeMask, BitVec.getLsbD_twoPow]
  by_cases same : bit = b
  · subst same; simp [h]
  · simp [same, Ne.symm same]

/-- A block sets its bit and leaves the others. -/
theorem Rgp.setCause_getLsbD (bit b : Nat) (r : Rgp) (h : bit < 8) :
    (r.setCause bit).cause.getLsbD b = (r.cause.getLsbD b || b == bit) := by
  rw [Rgp.setCause, BitVec.getLsbD_or, causeMask_getLsbD bit b h]

/-- What CAUSE holds once a block has set its bit. -/
theorem setCause_getLsbD (bit b : Nat) (c : Chip) (h : bit < 8) :
    (setCause bit c).rgp.cause.getLsbD b = (c.rgp.cause.getLsbD b || b == bit) := Rgp.setCause_getLsbD bit b c.rgp h

/-- A block's own bit is set. -/
theorem setCause_raised (bit : Nat) (c : Chip) (h : bit < 8) : (setCause bit c).raised bit := by
  rw [Chip.raised, setCause_getLsbD bit bit c h]
  simp

/-- A bit that is set stays set while a block sets its own. -/
theorem raised_setCause (bit b : Nat) (c : Chip) (h : bit < 8) (raised : c.raised b) : (setCause bit c).raised b := by
  rw [Chip.raised] at raised
  rw [Chip.raised, setCause_getLsbD bit b c h, raised]
  rfl

/-! ## DIRBASE (R4) -/

/-- Bits 5 to 0 of the low half are not writable. -/
theorem dirbaseMask_getLsbD : ∀ b < 32, (0xFFFFFFC0 : Word32).getLsbD b = decide (6 ≤ b) := by decide

/-- A write of the high half, bit by bit. -/
theorem writeHigh_getLsbD (value : Word32) (base : BitVec 40) (b : Nat) (h : b < 40) :
    (writeHigh value base).getLsbD b = if b < 32 then base.getLsbD b else value.getLsbD (b - 32) := by
  rw [writeHigh, BitVec.getLsbD_append]
  split
  case isTrue low => simp [low]
  case isFalse high => simp [show b - 32 < 8 by omega]

/-- A write of the low half, bit by bit. -/
theorem writeLow_getLsbD (value : Word32) (base : BitVec 40) (b : Nat) (h : b < 40) :
    (writeLow value base).getLsbD b = if b < 32 then decide (6 ≤ b) && value.getLsbD b else base.getLsbD b := by
  rw [writeLow, BitVec.getLsbD_append]
  split
  case isTrue low => rw [BitVec.getLsbD_and, dirbaseMask_getLsbD b low, Bool.and_comm]
  case isFalse high => simp [show b - 32 < 8 by omega, show 32 + (b - 32) = b by omega]

/-- A base is 64-byte aligned when its six low bits are 0. -/
theorem aligned_iff_getLsbD (base : BitVec 40) : base.toNat % 64 = 0 ↔ ∀ b < 6, base.getLsbD b = false := by
  constructor
  · intro aligned b hb
    rw [BitVec.getLsbD, ← Nat.mod_add_div base.toNat 64, aligned, Nat.zero_add, show (64 : Nat) = 2 ^ 6 from rfl,
      Nat.testBit_two_pow_mul]
    simp [show ¬ 6 ≤ b by omega]
  · intro low
    refine Nat.eq_of_testBit_eq fun b => ?_
    rw [show (64 : Nat) = 2 ^ 6 from rfl, Nat.testBit_mod_two_pow, Nat.zero_testBit]
    by_cases hb : b < 6
    · rw [show base.toNat.testBit b = base.getLsbD b from rfl, low b hb, Bool.and_false]
    · simp [hb]

/-- A write of DIRBASE in a state in which it takes effect. -/
theorem writeDirbase_writable (hi : Bool) (value : Word32) (c : Chip) (h : dirbaseWritable c.rgp.partState = true) :
    writeDirbase hi value c = c.onRgp fun r =>
      { r with dirbase := if hi then writeHigh value r.dirbase else writeLow value r.dirbase } := if_pos h

/-- A write of DIRBASE in a state in which it does not. -/
theorem writeDirbase_fixed (hi : Bool) (value : Word32) (c : Chip) (h : dirbaseWritable c.rgp.partState = false) :
    writeDirbase hi value c = c := if_neg (Bool.eq_false_iff.mp h)

/-- DIRBASE after a reset release (R17). -/
theorem resetDirbase_toNat (auto : Bool) (dirsel : BitVec 2) :
    (resetDirbase auto dirsel).toNat = if auto = true then dirsel.toNat * 0x1000000 else 0 := by
  cases auto with
  | false => rfl
  | true =>
    have small := dirsel.isLt
    simp only [resetDirbase, if_true, BitVec.toNat_ofNat]
    omega

end Sys2Proof.Machine
end

section
/-! SUPPORT. The commands of the register port: CONTROL by part state (R6), the resets (R17), and the start of a binding
(R9, R10). -/

namespace Sys2Proof.Machine

/-! ## CONTROL (R6) -/

@[simp] theorem noteControl_lastCode (code : BitVec 8) (a : Acceptance) (c : Chip) :
    (noteControl code a c).rgp.lastCode = code := rfl
@[simp] theorem noteControl_acceptance (code : BitVec 8) (a : Acceptance) (c : Chip) :
    (noteControl code a c).rgp.acceptance = a := rfl

/-- CONTROL changes the last code and the acceptance alone. -/
theorem noteControl_eq (code : BitVec 8) (a : Acceptance) (c : Chip) :
    noteControl code a c = { c with rgp := { c.rgp with lastCode := code, acceptance := a } } := rfl

/-- A known command that is accepted. -/
theorem control_accepted {code : BitVec 8} {valid : Chip → Bool} {effect : Chip → Chip} {c : Chip} (q : List Instr)
    (released : c.rgp.resetHeld = false) (accepted : valid c = true) :
    registerWrite (controlCommand code valid effect) ⟨c, q⟩ =
      .next ⟨concludeStep (effect (noteControl code .accepted c)), q⟩ := by
  rw [registerWrite_released _ c q released, controlCommand, if_pos accepted]

/-- A known command that is refused, in a settled part. -/
theorem control_refused {code : BitVec 8} {valid : Chip → Bool} {effect : Chip → Chip} {c : Chip} (q : List Instr)
    (settled : c.settled) (released : c.rgp.resetHeld = false) (refused : valid c = false) :
    registerWrite (controlCommand code valid effect) ⟨c, q⟩ =
      .next ⟨{ c with rgp := { c.rgp with lastCode := code, acceptance := .refusedState } }, q⟩ := by
  have note : controlCommand code valid effect c = noteControl code .refusedState c :=
    if_neg (Bool.eq_false_iff.mp refused)
  rw [registerWrite_settled _ c q released settled (by rw [note]; rfl) (by rw [note]; rfl), note, noteControl_eq]

/-- What CONTROL shows after a known command whose effect leaves CONTROL alone. -/
theorem control_shows {code : BitVec 8} {valid : Chip → Bool} {effect : Chip → Chip} (c : Chip) (q : List Instr)
    (released : c.rgp.resetHeld = false)
    (keeps : ∀ d, (effect d).rgp.lastCode = d.rgp.lastCode ∧ (effect d).rgp.acceptance = d.rgp.acceptance) :
    ∃ d, registerWrite (controlCommand code valid effect) ⟨c, q⟩ = .next ⟨d, q⟩ ∧ d.rgp.lastCode = code ∧
      d.rgp.acceptance = if valid c = true then .accepted else .refusedState := by
  refine ⟨_, registerWrite_released _ c q released, ?_⟩
  unfold controlCommand
  split <;> simp [keeps]

/-- The states in which BIND is accepted. -/
theorem bindValid_iff (c : Chip) :
    bindValid c = true ↔ c.rgp.partState = .unbound ∨ c.rgp.partState = .faulted ∨
      (c.rgp.partState = .bound ∧ c.dlv.pendingEvents = []) := by
  unfold bindValid
  split <;> simp_all

/-- The state in which LISTEN is accepted. -/
theorem listenValid_iff (c : Chip) : listenValid c = true ↔ c.rgp.partState = .bound := beq_iff_eq

/-- The state in which STOP is accepted. -/
theorem stopValid_iff (c : Chip) : stopValid c = true ↔ c.rgp.partState = .listening := beq_iff_eq

/-- The states in which ORD polls and DLV writes. -/
theorem active_iff (c : Chip) :
    c.active = true ↔ c.rgp.partState = .bound ∨ c.rgp.partState = .listening ∨ c.rgp.partState = .stopping := by
  cases h : c.rgp.partState <;> simp [Chip.active, PartState.active, h]

/-! ## The start of a binding (R9, R10) -/

/-- MPT at the start of a binding: the directory read waits, and nothing else. -/
theorem startBinding_mpt (auto : Bool) (c : Chip) :
    (startBinding auto c).mpt =
      { Mpt.atReset with waitRgp := [directoryAccess c], lastGrant := c.mpt.lastGrant } := rfl

/-- The end of the step that starts a binding puts the directory read on the bus. -/
theorem concludeStep_directoryRead (d : Chip) (a : Access) (last : Requester) (quiet : d.dlv.progressAsked = false)
    (waits : d.mpt = { Mpt.atReset with waitRgp := [a], lastGrant := last }) :
    concludeStep d = { d with mpt := { Mpt.atReset with onBus := some a, lastGrant := .rgp } } := by
  rw [concludeStep_of_notAsked d quiet, waits,
    Mpt.grant_ofRgp { Mpt.atReset with waitRgp := [a], lastGrant := last } a rfl rfl rfl rfl rfl]
  rfl

/-- The part after an accepted BIND: the bind state, with the directory read on the bus. -/
theorem exec_bind {c : Chip} (q : List Instr) (released : c.rgp.resetHeld = false) (accepted : bindValid c = true) :
    exec .bind ⟨c, q⟩ = .next
      ⟨{ setCause causeState (startBinding false (noteControl 1 .accepted c)) with
          mpt := { Mpt.atReset with
            onBus := some (readAccess .directory c.rgp.dirbase.toNat 256), lastGrant := .rgp } }, q⟩ := by
  have executed : exec .bind ⟨c, q⟩ = .next ⟨concludeStep (bindEffect (noteControl 1 .accepted c)), q⟩ :=
    control_accepted q released accepted
  rw [executed, concludeStep_directoryRead _ (directoryAccess c) c.mpt.lastGrant rfl rfl]
  rfl

/-! ## The resets (R17) -/

/-- The two commands that release the part from reset. -/
theorem exec_release {i : Instr} {auto : Bool} {dirsel : BitVec 2} {c : Chip} (q : List Instr)
    (h : i = .powerOnReset auto dirsel ∨ (i = .reset auto dirsel ∧ c.rgp.resetHeld = false)) :
    exec i ⟨c, q⟩ = .next ⟨concludeStep (releaseReset auto dirsel c), q⟩ := by
  rcases h with rfl | ⟨rfl, released⟩
  · rfl
  · exact registerWrite_released _ c q released

/-- A reset release with AUTO 0 rests in UNBOUND. -/
theorem concludeStep_released (dirsel : BitVec 2) (c : Chip) :
    concludeStep (releaseReset false dirsel c) = releasedState false dirsel c :=
  concludeStep_of_settled _ ⟨rfl, .inr ⟨rfl, rfl, rfl, rfl⟩⟩

/-- A reset release with AUTO 1 starts a binding, with the directory read on the bus. -/
theorem concludeStep_autoBinding (dirsel : BitVec 2) (c : Chip) :
    concludeStep (releaseReset true dirsel c) =
      { startBinding true (releasedState true dirsel c) with
        mpt := { Mpt.atReset with
          onBus := some (readAccess .directory (dirsel.toNat * 0x1000000) 256), lastGrant := .rgp } } := by
  have start : releaseReset true dirsel c = startBinding true (releasedState true dirsel c) := rfl
  have addr : directoryAccess (releasedState true dirsel c) =
      readAccess .directory (dirsel.toNat * 0x1000000) 256 :=
    congrArg (readAccess .directory · 256) (resetDirbase_toNat true dirsel)
  rw [start, concludeStep_directoryRead _ _ _ rfl (startBinding_mpt _ _), addr]

/-- The registers after a reset release. -/
theorem releaseReset_registers (auto : Bool) (dirsel : BitVec 2) (c : Chip) :
    let d := concludeStep (releaseReset auto dirsel c)
    d.rgp.autoStrap = auto ∧ d.rgp.dirselStrap = dirsel ∧ d.rgp.resetHeld = false ∧ d.rgp.lastCode = 0 ∧
      d.rgp.acceptance = .none ∧ d.rgp.cause = 0 ∧ d.rgp.mask = 0 ∧ d.rgp.bindResult = .none ∧
      d.rgp.haltSource = .none ∧ d.rgp.dirbase = resetDirbase auto dirsel := by
  cases auto with
  | false =>
    rw [concludeStep_released]
    exact ⟨rfl, rfl, rfl, rfl, rfl, rfl, rfl, rfl, rfl, rfl⟩
  | true =>
    rw [concludeStep_autoBinding]
    exact ⟨rfl, rfl, rfl, rfl, rfl, rfl, rfl, rfl, rfl, rfl⟩

/-- With no bit of CAUSE set the line is not asserted. -/
theorem Rgp.irq_of_clear (r : Rgp) (cause : r.cause = 0) : r.irq = false := by
  simp [Rgp.irq, cause]

/-- The end of the step in which the reset pin goes low. -/
theorem exec_hold (c : Chip) (q : List Instr) : exec .powerOnResetHold ⟨c, q⟩ = .next ⟨holdReset c, q⟩ := by
  have settled : (holdReset c).settled := ⟨rfl, .inr ⟨rfl, rfl, rfl, rfl⟩⟩
  rw [← concludeStep_of_settled (holdReset c) settled]
  rfl

end Sys2Proof.Machine
end

section
/-! PROOFS. The statements about the register port (R3 to R10, R17) and about every command (R169, R170). -/

namespace Sys2Proof.Machine

/-! ## Every command -/

/-- Settles O3: by the forms a command can take. -/
theorem everyCommandCompletes : Obligations.EveryCommandCompletes := by
  intro i ⟨c, q⟩
  generalize outcome : exec i ⟨c, q⟩ = o
  have form : CommandForm i c q o := outcome ▸ exec_form i c q
  cases form with
  | ignored | event | answered => exact ⟨fun _ _ => ⟨_, rfl⟩, nofun, nofun⟩
  | wrongLength a b onBus data length =>
    exact ⟨fun _ fits => absurd (fits a b onBus data) length, fun _ h => ⟨(Host.Outcome.fault.inj h).symm, a, b, onBus,
      data, length⟩, nofun⟩
  | otherRow form =>
    exact ⟨fun wf => absurd wf (Bool.eq_false_iff.mp form), nofun, fun _ h => ⟨(Host.Outcome.refused.inj h).symm, form⟩⟩

/-! ## The reset state -/

/-- Settles O60: each invariant evaluates on the reset state, the 16 hubs and 256 channels as copies of one. -/
theorem resetMeetsEveryInvariant : Obligations.ResetMeetsEveryInvariant := by
  have hubs : Lki.atReset.hubs.all Hub.sound = true := by decide
  have channels (p : Channel → Bool) (h : p Channel.atReset = true) : Chc.atReset.channels.all p = true := by
    refine List.all_eq_true.mpr fun x listed => ?_
    rwa [List.eq_of_mem_replicate listed]
  exact ⟨⟨rfl, .inr ⟨rfl, rfl, rfl, rfl⟩⟩, rfl, ⟨rfl, by decide, by decide⟩, ⟨hubs, rfl, by decide⟩,
    ⟨List.length_replicate, channels _ (by decide), channels _ (by decide), channels _ (by decide)⟩, by decide,
    by decide, by decide, by decide, by decide, rfl⟩

/-! ## ID, STATUS and the ignored offsets (R3, R7) -/

/-- An offset of ID, of STATUS or beyond the registers is one whose writes are ignored. -/
theorem ignoredOffsets_contains : ∀ off : BitVec 5, off = 0x00 ∨ off = 0x08 ∨ 0x1C ≤ off.toNat →
    ignoredOffsets.contains off = true := by decide

/-- Settles O4: the fields of STATUS by arithmetic on its value. -/
theorem identificationAndIgnoredOffsets : Obligations.IdentificationAndIgnoredOffsets := by
  refine ⟨Rgp.read_id, Rgp.read_unused,
    fun off v s h => exec_ignoredRegisterWrite off v s (ignoredOffsets_contains off h), fun r => ?_⟩
  obtain ⟨value, part, bind, halt, auto, dirsel⟩ := r.statusWord_toNat
  simp only [Rgp.read_status, extractLsb'_eq_iff, value]
  refine ⟨?_, ?_, ?_, ?_, by omega, fun b hb => ?_⟩
  · rw [show _ / 2 ^ 0 % 2 ^ 3 = partStateCode r.partState by omega]
    cases r.partState <;> rfl
  · rw [show _ / 2 ^ 4 % 2 ^ 3 = bindResultCode r.bindResult by omega]
    cases r.bindResult <;> rfl
  · rw [show _ / 2 ^ 8 % 2 ^ 2 = haltSourceCode r.haltSource by omega]
    cases r.haltSource <;> rfl
  · rw [getLsbD_eq_decide, value, show _ / 2 ^ 12 % 2 = r.autoStrap.toNat by omega]
    cases r.autoStrap <;> rfl
  · rw [getLsbD_eq_decide, value, decide_eq_false_iff_not]
    rcases hb with rfl | rfl | rfl | rfl | high
    · omega
    · omega
    · omega
    · omega
    · have : 2 ^ 15 ≤ 2 ^ b := Nat.pow_le_pow_right (by decide) high
      rw [Nat.div_eq_of_lt (by omega)]
      decide

/-! ## CAUSE and MASK (R5) -/

/-- The line is asserted exactly while some bit is set in both registers. -/
theorem Rgp.irq_iff (r : Rgp) : r.irq = true ↔ ∃ b < 8, r.cause.getLsbD b = true ∧ r.mask.getLsbD b = true := by
  rw [Rgp.irq, bne_iff_ne]
  constructor
  · intro asserted
    refine Classical.byContradiction fun disjoint => ?_
    have zero : r.cause &&& r.mask = 0#8 := BitVec.eq_of_getLsbD_eq fun b hb => by
      rw [BitVec.getLsbD_and, BitVec.getLsbD_zero, Bool.and_eq_false_imp]
      exact fun cause => Bool.eq_false_iff.mpr fun mask => disjoint ⟨b, hb, cause, mask⟩
    exact asserted zero
  · rintro ⟨b, -, cause, mask⟩ zero
    have bit := congrArg (BitVec.getLsbD · b) zero
    simp [cause, mask] at bit

/-- Settles O5: the registers bit by bit, and the commands that start over by the parts they leave. -/
theorem interruptRegisters : Obligations.InterruptRegisters := by
  refine ⟨fun c q v settled released => ⟨?_, ?_⟩, Rgp.irq_iff,
    fun bit r h => ⟨fun b _ => r.setCause_getLsbD bit b h, rfl⟩, fun r b => ⟨?_, ?_⟩, ⟨rfl, rfl⟩,
    fun auto dirsel c q => ?_, fun i c q h => ?_, fun c q released accepted => ?_⟩
  · refine ⟨_, registerWrite_settled _ c q released settled rfl rfl, fun b hb => ?_, rfl⟩
    simp [hb, show b < 32 by omega]
  · refine ⟨_, registerWrite_settled _ c q released settled rfl rfl, fun b hb => ?_, rfl⟩
    simp [hb]
  · rw [Rgp.read_cause, getLsbD_setWidth_byte]
  · rw [Rgp.read_mask, getLsbD_setWidth_byte]
  · obtain ⟨-, -, -, -, -, cause, mask, -⟩ := releaseReset_registers auto dirsel c
    exact ⟨_, exec_release q (.inl rfl), cause, mask, Rgp.irq_of_clear _ cause⟩
  · rcases h with ⟨auto, dirsel, h⟩ | rfl
    · obtain ⟨-, -, -, -, -, cause, mask, -⟩ := releaseReset_registers auto dirsel c
      exact ⟨_, exec_release q (.inr h), cause, mask, Rgp.irq_of_clear _ cause⟩
    · exact ⟨_, exec_hold c q, rfl, rfl, Rgp.irq_of_clear _ rfl⟩
  · refine ⟨_, exec_bind q released accepted, rfl, fun b hb other => ?_⟩
    have bit := setCause_getLsbD causeState b (startBinding false (noteControl 1 .accepted c)) (by decide)
    rwa [beq_false_of_ne other, Bool.or_false] at bit

/-! ## CONTROL (R6) -/

/-- Settles O7: each command by the rule of CONTROL, its acceptance by the table of part states. -/
theorem controlAcceptsByPartState : Obligations.ControlAcceptsByPartState := by
  refine ⟨fun c q released => ⟨fun v other => ?_, ?_, ?_, ?_, ?_, fun auto dirsel => ?_⟩,
    fun c q settled released => ⟨fun v other => ?_, fun refused => ?_, fun refused => ?_, fun refused => ?_,
      fun refused => ?_⟩⟩
  · rw [exec_refusedCode v _ other, registerWrite_released _ c q released]
    exact ⟨_, rfl, by simp⟩
  · simp only [← bindValid_iff]
    exact control_shows c q released fun d => by simp
  · simp only [← listenValid_iff]
    exact control_shows c q released fun d => by simp
  · simp only [← stopValid_iff]
    exact control_shows c q released fun d => by simp
  · simp only [← active_iff]
    exact control_shows c q released fun d => by simp
  · obtain ⟨-, -, -, code, acceptance, -⟩ := releaseReset_registers auto dirsel c
    exact ⟨_, exec_release q (.inr ⟨rfl, released⟩), code, acceptance⟩
  · rw [exec_refusedCode v _ other, registerWrite_settled _ c q released settled rfl rfl, noteControl_eq]
  · refine control_refused q settled released (Bool.eq_false_iff.mpr fun accepted => ?_)
    rcases (bindValid_iff c).mp accepted with h | h | h <;> simp_all
  · exact control_refused q settled released (Bool.eq_false_iff.mpr fun h => refused ((listenValid_iff c).mp h))
  · exact control_refused q settled released (Bool.eq_false_iff.mpr fun h => refused ((stopValid_iff c).mp h))
  · refine control_refused q settled released (Bool.eq_false_iff.mpr fun accepted => ?_)
    rcases (active_iff c).mp accepted with h | h | h <;> simp_all

/-! ## The resets (R17) -/

/-- The registers of a held part read their reset values. -/
theorem holdReset_reads (c : Chip) :
    (holdReset c).rgp.readRegister 0x04 = 0 ∧ (holdReset c).rgp.readRegister 0x0C = 0 ∧
      (holdReset c).rgp.readRegister 0x10 = 0 ∧ (holdReset c).rgp.readRegister 0x14 = 0 ∧
      (holdReset c).rgp.readRegister 0x18 = 0 := by
  have base : (holdReset c).rgp.dirbase = 0 := rfl
  refine ⟨rfl, ?_, ?_, rfl, rfl⟩
  · rw [Rgp.read_dirbaseLo, base]
    rfl
  · rw [Rgp.read_dirbaseHi, base]
    decide

/-- Settles O8: the held part is settled, and a register write to a held part does nothing before the step ends. -/
theorem resetPinHold : Obligations.ResetPinHold := by
  refine ⟨fun c q => ?_, fun c q settled held => ?_⟩
  · obtain ⟨control, low, high, cause, mask⟩ := holdReset_reads c
    exact ⟨_, exec_hold c q, rfl, rfl, rfl, rfl, Rgp.irq_of_clear _ rfl, control, low, high, cause, mask, rfl,
      rfl, rfl, rfl, rfl, rfl, rfl, rfl, rfl, rfl⟩
  have ignored (f : Chip → Chip) : registerWrite f ⟨c, q⟩ = .next ⟨c, q⟩ :=
    registerWrite_held_settled f c q held settled
  exact ⟨fun _ _ => ignored _, ignored _, ignored _, ignored _, ignored _, fun v =>
    ⟨fun other => (exec_refusedCode v _ other).trans (ignored _), ignored _, ignored _, fun _ => ignored _⟩⟩

/-- Settles O9: the release with AUTO 0 leaves a settled part, and the one with AUTO 1 the directory read. -/
theorem resetReleaseLatchesTheStraps : Obligations.ResetReleaseLatchesTheStraps := by
  intro auto dirsel i c q h
  obtain ⟨autoStrap, dirselStrap, held, code, acceptance, cause, mask, result, halt, base⟩ :=
    releaseReset_registers auto dirsel c
  refine ⟨_, exec_release q h, autoStrap, dirselStrap, held, ?_, cause, mask, Rgp.irq_of_clear _ cause, result, halt,
    base ▸ resetDirbase_toNat auto dirsel, ?_⟩
  · rw [Rgp.controlWord, code, acceptance]
    rfl
  · cases auto with
    | false =>
      rw [concludeStep_released]
      exact ⟨rfl, rfl, rfl, ⟨rfl, rfl, rfl, rfl⟩, rfl, rfl, rfl, rfl, rfl, rfl, rfl, fun _ => ⟨rfl, rfl⟩, nofun⟩
    | true =>
      rw [concludeStep_autoBinding]
      exact ⟨rfl, rfl, rfl, ⟨rfl, rfl, rfl, rfl⟩, rfl, rfl, rfl, rfl, rfl, rfl, rfl, nofun, fun _ => ⟨rfl, rfl⟩⟩

/-- Settles O10: by the part that an accepted BIND leaves. -/
theorem bindClearsThePart : Obligations.BindClearsThePart := by
  intro c q released accepted
  exact ⟨_, exec_bind q released ((bindValid_iff c).mpr accepted), rfl, rfl, rfl, rfl, rfl, rfl, rfl, rfl, rfl, rfl,
    rfl, rfl, rfl, rfl, ⟨rfl, rfl, rfl, rfl⟩, rfl, rfl, rfl, rfl, rfl, rfl, rfl, rfl⟩

/-! ## DIRBASE (R4) -/

/-- A write of DIRBASE keeps it aligned: the low half leaves 0 in bits 5 to 0, the high half leaves them alone. -/
theorem writeDirbase_aligned (hi : Bool) (value : Word32) (c : Chip) (aligned : c.dirbaseAligned) :
    (writeDirbase hi value c).dirbaseAligned := by
  cases writable : dirbaseWritable c.rgp.partState with
  | false => rwa [writeDirbase_fixed hi value c writable]
  | true =>
    rw [Chip.dirbaseAligned, aligned_iff_getLsbD] at aligned ⊢
    rw [writeDirbase_writable hi value c writable]
    intro b hb
    cases hi with
    | true => exact (writeHigh_getLsbD value _ b (by omega)).trans (by simp [show b < 32 by omega, aligned b hb])
    | false =>
      exact (writeLow_getLsbD value _ b (by omega)).trans (by simp [show b < 32 by omega, show ¬ 6 ≤ b by omega])

/-- What leaves DIRBASE alone keeps it aligned. -/
theorem Chip.dirbaseAligned_of_eq {c d : Chip} (aligned : c.dirbaseAligned) (same : d.rgp.dirbase = c.rgp.dirbase) :
    d.dirbaseAligned := by rwa [Chip.dirbaseAligned, same]

/-- A reset release leaves DIRBASE aligned. -/
theorem resetDirbase_aligned (auto : Bool) (dirsel : BitVec 2) : (resetDirbase auto dirsel).toNat % 64 = 0 := by
  rw [resetDirbase_toNat]
  split <;> omega

/-- The event of every command keeps DIRBASE aligned: the resets set it, the writes of DIRBASE keep its low bits, and
nothing else changes it. -/
theorem eventEffect_aligned (i : Instr) (c : Chip) (aligned : c.dirbaseAligned) :
    (eventEffect i c).dirbaseAligned := by
  have written (f : Chip → Chip) (h : (f c).dirbaseAligned) :
      (if c.rgp.resetHeld then c else f c).dirbaseAligned := by split <;> assumption
  have control (code : BitVec 8) (valid : Chip → Bool) (effect : Chip → Chip)
      (keeps : ∀ d, (effect d).rgp.dirbase = d.rgp.dirbase) : (controlCommand code valid effect c).dirbaseAligned := by
    unfold controlCommand
    split
    · exact Chip.dirbaseAligned_of_eq aligned (keeps _)
    · exact aligned
  have release (auto : Bool) (dirsel : BitVec 2) : (releaseReset auto dirsel c).dirbaseAligned := by
    have base : (releaseReset auto dirsel c).rgp.dirbase = resetDirbase auto dirsel := by cases auto <;> rfl
    rw [Chip.dirbaseAligned, base]
    exact resetDirbase_aligned auto dirsel
  cases i with
  | powerOnReset auto dirsel => exact release auto dirsel
  | reset auto dirsel => exact written _ (release auto dirsel)
  | bind => exact written _ (control _ _ _ fun d => by simp)
  | listen => exact written _ (control _ _ _ fun d => by simp)
  | stop => exact written _ (control _ _ _ fun d => by simp)
  | nudge => exact written _ (control _ _ _ fun d => by simp)
  | refusedCode | causeWrite | maskWrite => exact written _ aligned
  | dirbaseWrite hi value => exact written _ (writeDirbase_aligned hi value c aligned)
  | powerOnResetHold => exact Nat.zero_mod 64
  | hubFrameArrival port line => exact Chip.dirbaseAligned_of_eq (d := burstEnds port.val line c) aligned (by simp)
  | badFrameLimit hub => exact Chip.dirbaseAligned_of_eq (d := badLimitEvent hub.val c) aligned (by simp)
  | silenceTimerExpiry hub => exact Chip.dirbaseAligned_of_eq (d := silenceEvent hub.val c) aligned (by simp)
  | pollTimerExpiry => exact Chip.dirbaseAligned_of_eq (d := pollTimerEvent c) aligned (by simp)
  | noticeCountReached stream => exact Chip.dirbaseAligned_of_eq (d := takeNotice stream c) aligned (by simp)
  | cfReadAnswer =>
    exact engineOn_induct Chip.dirbaseAligned (fun task d h => Chip.dirbaseAligned_of_eq h (by simp)) _
      (Chip.dirbaseAligned_of_eq aligned (by simp))
  | _ => exact aligned

/-- No block's handling of an answer changes DIRBASE. -/
theorem handlerOf_dirbase (p : Purpose) (a : Access) (r : Option (List Byte)) (c : Chip) :
    (handlerOf p a r c).rgp.dirbase = c.rgp.dirbase := by
  cases p with
  | reloadGrid g last | reloadStation n last | reloadHub h last => cases last <;> simp [handlerOf]
  | _ => simp [handlerOf]

/-- The end of an access does not change DIRBASE. -/
theorem accessEnds_dirbase (p : Purpose) (a : Access) (r : Option (List Byte)) (c : Chip) :
    (accessEnds (handlerOf p) a r c).rgp.dirbase = c.rgp.dirbase := by
  unfold accessEnds accessResult accessFails
  (repeat' split) <;> simp [handlerOf_dirbase]

/-- Every command that answers a next state keeps DIRBASE aligned. -/
theorem exec_aligned (i : Instr) (c d : Chip) (q r : List Instr) (aligned : c.dirbaseAligned)
    (next : exec i ⟨c, q⟩ = .next ⟨d, r⟩) : d.dirbaseAligned := by
  have form : CommandForm i c q (.next ⟨d, r⟩) := next ▸ exec_form i c q
  cases form with
  | ignored => exact aligned
  | event => exact Chip.dirbaseAligned_of_eq (eventEffect_aligned i c aligned) (by simp)
  | answered a r _ => exact Chip.dirbaseAligned_of_eq aligned (accessEnds_dirbase _ a r c)

/-- Settles O6: the writes bit by bit, and the alignment by what a command can do. -/
theorem directoryBaseRegister : Obligations.DirectoryBaseRegister := by
  refine ⟨fun c q hi v settled released => ⟨fun writable => ?_, fun fixed => ?_⟩, fun r b => ⟨?_, ?_⟩,
    fun auto dirsel c q => ?_, fun c q released accepted => ?_, exec_aligned⟩
  · have effect := writeDirbase_writable hi v c (by rcases writable with h | h | h <;> rw [h] <;> rfl)
    refine ⟨_, registerWrite_settled _ c q released settled (by simp) (by simp), fun b hb => ?_, by rw [effect]; rfl⟩
    rw [effect]
    cases hi with
    | true => exact writeHigh_getLsbD v _ b hb
    | false => exact writeLow_getLsbD v _ b hb
  · have effect := writeDirbase_fixed hi v c (by rcases fixed with h | h | h <;> rw [h] <;> rfl)
    exact (registerWrite_settled _ c q released settled (by simp) (by simp)).trans (by rw [effect])
  · rw [Rgp.read_dirbaseLo, BitVec.getLsbD_setWidth]
  · rw [Rgp.read_dirbaseHi, getLsbD_highByte]
  · obtain ⟨-, -, -, -, -, -, -, -, -, base⟩ := releaseReset_registers auto dirsel c
    exact ⟨_, exec_release q (.inl rfl), base ▸ resetDirbase_toNat auto dirsel⟩
  · exact ⟨_, exec_bind q released accepted, rfl, rfl⟩

end Sys2Proof.Machine
end

section
/-! SUPPORT. The answers to accesses (R170, R171): the command that presents one, the faults it leaves, and the entry to
FAULTED (R16). -/

namespace Sys2Proof.Machine

/-! ## Answers by purpose -/

/-- The error answer to the access on the bus ends it, whatever it is for. -/
theorem exec_answerTo_error (c : Chip) (q : List Instr) (a : Access) (onBus : c.mpt.onBus = some a) :
    exec (answerTo a.purpose none) ⟨c, q⟩ = .next ⟨accessEnds (handlerOf a.purpose) a none c, q⟩ := by
  cases p : a.purpose with
  | directory | bindSettings | bindGrid | bindHub | bindStation | row | refine | reloadConfig | slotRead | returnBlock
  | rawState => exact answerRead_error _ _ c q a onBus (by rw [p]; rfl)
  | reloadGrid g last | reloadStation n last | reloadHub h last =>
    cases last <;> exact answerRead_error _ _ c q a onBus (by rw [p]; rfl)
  | slotResult | slotState | record | progressFirst | progressMiddle | progressLast | rawHeader | rawTick | rawFull =>
    exact answerWrite_on _ _ false c q a onBus (by rw [p]; rfl)

/-- A failure that does not halt the part is recorded and handed on. -/
theorem accessFails_recorded (handler : Access → Option (List Byte) → Chip → Chip) (a : Access) (c : Chip)
    (h : haltSourceOf a.purpose = none) :
    accessFails handler a c = handler a none (recordFault (faultSourceOf a.purpose) .bus a.addr c) := by
  simp [accessFails, h]

/-- A failure that halts the part is recorded before the entry to FAULTED. -/
theorem accessFails_halts (handler : Access → Option (List Byte) → Chip → Chip) (a : Access) (c : Chip)
    (hs : HaltSource) (h : haltSourceOf a.purpose = some hs) :
    accessFails handler a c = enterFaulted hs (recordFaultNow (faultSourceOf a.purpose) .bus a.addr c) := by
  simp [accessFails, h]

/-! ## Fault records -/

/-- Recording a fault does not look at the bus. -/
theorem Mpt.record_bus (src : FaultSource) (kind : FaultKind) (addr : Nat) (hz : Option Nat) (m : Mpt)
    (bus : Option Access) :
    ({ m with onBus := bus } : Mpt).record src kind addr hz = { m.record src kind addr hz with onBus := bus } := by
  unfold Mpt.record
  split
  · rfl
  · dsimp only
    split <;> rfl

/-- MPT after a fault recorded at once, on the bus that the failed access has freed. -/
theorem recordFaultNow_freeBus_mpt (src : FaultSource) (kind : FaultKind) (addr : Nat) (c : Chip) :
    (recordFaultNow src kind addr (freeBus c)).mpt = { c.mpt.record src kind addr c.lki.horizon with onBus := none } :=
  Mpt.record_bus src kind addr c.lki.horizon c.mpt none

/-- Outside BOUND, LISTENING and STOPPING a fault is shown at once (R173). -/
theorem recordFault_inactive (src : FaultSource) (kind : FaultKind) (addr : Nat) (c : Chip) (h : c.active = false) :
    recordFault src kind addr c = recordFaultNow src kind addr c := if_neg (Bool.eq_false_iff.mp h)

/-- A fault recorded at once sets FAULT. -/
theorem recordFaultNow_raised (src : FaultSource) (kind : FaultKind) (addr : Nat) (c : Chip) :
    (recordFaultNow src kind addr c).raised causeFault := setCause_raised causeFault _ (by decide)

/-! ## The entry to FAULTED (R16) -/

/-- The part that has entered FAULTED is settled but for an access that was on the bus. -/
theorem enterFaulted_settled (hs : HaltSource) (c : Chip) : (enterFaulted hs c).settled :=
  ⟨rfl, .inr ⟨rfl, rfl, rfl, rfl⟩⟩

/-- A halting failure, to the end of its step. -/
theorem accessEnds_halts (handler : Access → Option (List Byte) → Chip → Chip) (a : Access) (c : Chip) (hs : HaltSource)
    (running : c.rgp.partState ≠ .faulted) (h : haltSourceOf a.purpose = some hs) :
    accessEnds handler a none c =
      enterFaulted hs (recordFaultNow (faultSourceOf a.purpose) .bus a.addr (freeBus c)) := by
  rw [accessEnds_error handler a c running, accessFails_halts handler a _ hs h,
    concludeStep_of_settled _ (enterFaulted_settled _ _)]

/-- The image shows the fault records, and of MPT nothing else but the overflow count. -/
theorem recordFaultNow_freeBus_image (src : FaultSource) (kind : FaultKind) (addr : Nat) (c : Chip) :
    (recordFaultNow src kind addr (freeBus c)).image =
      Chip.image { c with mpt := c.mpt.record src kind addr c.lki.horizon } := by
  rw [recordFaultNow, setCause_image, show freeBus c = { c with mpt := { c.mpt with onBus := none } } from rfl,
    Chip.onMpt, Mpt.record_bus]
  rfl

/-! ## The reads of a binding (R10 to R13) -/

/-- A binding that fails leaves the part as R13 says, to the end of the step. -/
theorem failBinding_fails (result : BindResult) (c : Chip) :
    (concludeStep (failBinding result c)).bindFailed result := by
  simp only [Chip.bindFailed, Chip.raised, concludeStep_frame]
  exact ⟨rfl, rfl, rfl, setCause_raised causeState _ (by decide), rfl, rfl, rfl, rfl, rfl⟩

/-- A binding that fails keeps every cause bit. -/
theorem failBinding_raised (result : BindResult) (b : Nat) (c : Chip) (raised : c.raised b) :
    (failBinding result c).raised b := raised_setCause causeState b _ (by decide) raised

/-- The next table read of a binding is requested. -/
theorem bindRead_carries (st : BindStage) (a : Access) (c : Chip) : (concludeStep (bindRead st a c)).mpt.carries a :=
  concludeStep_carries _ a ((request_carries .rgp a _ a).mpr (.inr rfl))

/-- The settings block is kept, and the next read is that of grid record 0. -/
theorem loadSettingsBlock_binding (b : List Byte) (c : Chip) :
    (loadSettingsBlock b c).rgp.binding = c.rgp.binding.map fun k => ⟨k.auto, .grid 0, b⟩ := by
  cases h : c.rgp.binding <;> simp [loadSettingsBlock, bindRead, request, setStage, h]

/-- A grid record before the last is loaded. -/
theorem loadGrid_next (g : Nat) (b : List Byte) (c : Chip) (h : g < 3) :
    loadGrid g b c = bindRead (.grid (g + 1)) (bindGridAccess c.layout (g + 1))
      (c.onTcu fun t => { t with grids := modifyAt (fun _ => judgeGrid b) t.grids g }) := if_pos h

/-- With the last grid record a valid settings block is put in force. -/
theorem loadGrid_valid (b : List Byte) (c : Chip)
    (h : settingsValid (modifyAt (fun _ => judgeGrid b) c.tcu.grids 3) (boundSettings c) = true) :
    loadGrid 3 b c = bindRead (.hub 0) (bindHubAccess c.layout 0) (c.onTcu fun t =>
      { t with grids := modifyAt (fun _ => judgeGrid b) t.grids 3, settings := some (boundSettings c) }) := by
  rw [loadGrid, if_neg (Nat.lt_irrefl 3)]
  exact if_pos h

/-- With the last grid record a settings block that is not valid ends the binding. -/
theorem loadGrid_bad (b : List Byte) (c : Chip)
    (h : settingsValid (modifyAt (fun _ => judgeGrid b) c.tcu.grids 3) (boundSettings c) = false) :
    loadGrid 3 b c = failBinding .badConfig
      (c.onTcu fun t => { t with grids := modifyAt (fun _ => judgeGrid b) t.grids 3 }) := by
  rw [loadGrid, if_neg (Nat.lt_irrefl 3)]
  exact if_neg (Bool.eq_false_iff.mp h)

/-- A hub entry is loaded, and the next read is that of the next hub, or of the first station. -/
theorem loadHub_eq (h : Nat) (b : List Byte) (c : Chip) :
    loadHub h b c =
      (if h < 15 then bindRead (.hub (h + 1)) (bindHubAccess c.layout (h + 1))
        else bindRead (.station 0) (bindStationAccess c.layout 0))
        (c.onTcu fun t => { t with hubEntries := modifyAt (fun _ => some (parseHubEntry b)) t.hubEntries h }) := by
  unfold loadHub
  split <;> rfl

/-- A station entry is loaded into TCU and into its channel. -/
def stationLoaded (n : Nat) (b : List Byte) (c : Chip) : Chip :=
  onChannel n (Channel.capture (parseStation b))
    (c.onTcu fun t => { t with stationEntries := modifyAt (fun _ => some (parseStation b)) t.stationEntries n })

/-- A station entry is loaded, and the next read follows, or after the last one the first image. -/
theorem loadStation_eq (n : Nat) (b : List Byte) (c : Chip) :
    loadStation n b c =
      (if n < 255 then bindRead (.station (n + 1)) (bindStationAccess c.layout (n + 1)) else writeFirstImage)
        (stationLoaded n b c) := by
  unfold loadStation
  split <;> rfl

/-- A signature that is wrong fails the first check. -/
theorem directoryCheck_signature (b : List Byte) (h : leValue b 0x00 4 ≠ 0x3C5AE107) :
    directoryCheck b = some .badSignature := if_pos h

/-- A version that is wrong fails the second check. -/
theorem directoryCheck_version (b : List Byte) (signature : leValue b 0x00 4 = 0x3C5AE107) (h : leValue b 0x04 4 ≠ 1) :
    directoryCheck b = some .badVersion := by
  simp [directoryCheck, directorySignature, signature, h]

/-- A window that is not valid fails the third check, and two valid ones pass it. -/
theorem directoryCheck_windows (b : List Byte) (signature : leValue b 0x00 4 = 0x3C5AE107)
    (version : leValue b 0x04 4 = 1) :
    directoryCheck b =
      if (windowValid (directoryWindows b).read && windowValid (directoryWindows b).write) = true then none
      else some .badWindow := by
  simp only [directoryCheck, directorySignature, signature, version, ne_eq, not_true_eq_false, if_false]
  cases windowValid (directoryWindows b).read && windowValid (directoryWindows b).write <;> rfl

/-- A directory whose check fails ends the binding. -/
theorem judgeDirectory_failed (b : List Byte) (c : Chip) (result : BindResult) (h : directoryCheck b = some result) :
    judgeDirectory b c = failBinding result c := by simp [judgeDirectory, h]

/-- A directory whose checks pass and whose layout is judged. -/
theorem judgeDirectory_layout (b : List Byte) (c : Chip) (h : directoryCheck b = none) :
    judgeDirectory b c =
      if layoutValid (directoryWindows b) (directoryLayout b) (directoryPicks b) (directoryEvents b) = true then
        bindRead .settings (readAccess .bindSettings (directoryLayout b).settings 256)
          (adoptDirectory b (copyWindows b c))
      else failBinding .badLayout (copyWindows b c) := by simp [judgeDirectory, h]

end Sys2Proof.Machine
end

section
/-! PROOFS. The statements about the reads of a binding (R10 to R13) and about the halting faults (R16, R171, R175). -/

namespace Sys2Proof.Machine

/-! ## The directory -/

/-- Settles O14: check by check, each failure through `failBinding_fails`. -/
theorem directoryIsJudgedInOrder : Obligations.DirectoryIsJudgedInOrder := by
  intro c q a b onBus purpose len length running
  have next : exec (.directoryReadDone (.data b)) ⟨c, q⟩ = .next ⟨concludeStep (judgeDirectory b (freeBus c)), q⟩ := by
    rw [show judgeDirectory b (freeBus c) = directoryAnswered a (some b) (freeBus c) from rfl,
      ← accessEnds_data directoryAnswered a b c running]
    exact answerRead_data _ _ c q a b onBus (by rw [purpose]; rfl) (length.trans len.symm)
  have fails (result : BindResult) (check : directoryCheck b = some result) :
      (concludeStep (judgeDirectory b (freeBus c))).bindFailed result := by
    rw [judgeDirectory_failed b _ result check]
    exact failBinding_fails result _
  refine ⟨_, next, fun signature => fails _ (directoryCheck_signature b signature),
    fun signature version => fails _ (directoryCheck_version b signature version), fun signature version => ⟨?_, ?_⟩,
    by simp, by simp, by simp, by simp⟩
  · exact fun windows => fails _ (by rw [directoryCheck_windows b signature version, windows]; rfl)
  · intro windows
    rw [judgeDirectory_layout b _ (by rw [directoryCheck_windows b signature version, windows]; rfl)]
    refine ⟨fun layout => ?_, fun layout => ?_⟩
    · rw [if_neg (Bool.eq_false_iff.mp layout)]
      exact failBinding_fails _ _
    · rw [if_pos layout]
      refine ⟨by simp, ?_, ?_, ?_, ?_, bindRead_carries ..⟩ <;> simp only [concludeStep_frame] <;> rfl

/-- Settles O15: the fault is recorded at once, since the part is BINDING, and the binding then fails. -/
theorem bindingReadErrorEndsTheBinding : Obligations.BindingReadErrorEndsTheBinding := by
  intro c q a onBus binding source
  have running : c.rgp.partState ≠ .faulted := by simp [binding]
  have inactive : (freeBus c).active = false := by simp [freeBus, Chip.active, PartState.active, binding]
  have recorded : haltSourceOf a.purpose = none := by
    cases p : a.purpose <;> simp_all [faultSourceOf, haltSourceOf]
  have handler (d : Chip) : handlerOf a.purpose a none d = failBinding .readFault d := by
    cases p : a.purpose <;> simp_all [faultSourceOf, handlerOf, directoryAnswered, bindTableAnswered]
  refine ⟨_, exec_answerTo_error c q a onBus, ?_⟩
  rw [accessEnds_error _ a c running, accessFails_recorded _ a _ recorded, handler,
    recordFault_inactive _ _ _ _ inactive, source]
  refine ⟨failBinding_fails _ _, ?_, ?_, ?_, by simp, by simp, by simp, by simp, by simp⟩
  · rw [Chip.raised, (concludeStep_frame _).1]
    exact failBinding_raised _ _ _ (recordFaultNow_raised ..)
  · simp only [concludeStep_frame, failBinding_frame, recordFaultNow_freeBus_mpt]
  · simp only [concludeStep_frame, failBinding_frame, recordFaultNow_freeBus_mpt]

/-! ## The tables -/

/-- The data answer to a table read of a binding. -/
theorem exec_bindTableReadDone (c : Chip) (q : List Instr) (a : Access) (b : List Byte) (onBus : c.mpt.onBus = some a)
    (length : b.length = a.len) (running : c.rgp.partState ≠ .faulted) (table : isBindTable a.purpose = true) :
    exec (.bindTableReadDone (.data b)) ⟨c, q⟩ =
      .next ⟨concludeStep (bindTableAnswered a (some b) (freeBus c)), q⟩ := by
  rw [← accessEnds_data bindTableAnswered a b c running]
  exact answerRead_data _ _ c q a b onBus table length

/-- Settles O16: purpose by purpose, each with its boundary index. -/
theorem bindTableReadsLoadTheTables : Obligations.BindTableReadsLoadTheTables := by
  intro c q a b onBus length running
  have next (table : isBindTable a.purpose = true) := exec_bindTableReadDone c q a b onBus length running table
  refine ⟨fun p => ?settings, fun g hg p => ?grid, fun p => ?lastGrid, fun h hh p => ?hub, fun n hn p => ?station⟩ <;>
    rw [next (by rw [p]; rfl)] <;> refine ⟨_, rfl, ?_⟩ <;> simp only [bindTableAnswered, p]
  case settings =>
    refine ⟨?_, by simp, by simp, bindRead_carries ..⟩
    rw [(concludeStep_frame _).1]
    exact loadSettingsBlock_binding b _
  case grid =>
    rw [loadGrid_next g b _ hg]
    exact ⟨by simp, by simp, bindRead_carries ..⟩
  case lastGrid =>
    refine ⟨fun bad => ?_, fun valid => ?_⟩
    · rw [loadGrid_bad b (freeBus c) bad]
      exact failBinding_fails _ _
    · rw [loadGrid_valid b (freeBus c) valid]
      exact ⟨by simp; rfl, bindRead_carries ..⟩
  case hub =>
    rw [loadHub_eq]
    by_cases last : h = 15
    · subst last
      exact ⟨by simp, bindRead_carries ..⟩
    · rw [if_pos (show h < 15 by omega), if_neg last]
      exact ⟨by simp, bindRead_carries ..⟩
  case station =>
    rw [loadStation_eq]
    by_cases more : n < 255
    · rw [if_pos more]
      exact ⟨by simp [stationLoaded], fun _ => ⟨by simp [stationLoaded, onChannel], bindRead_carries ..⟩,
        fun last => absurd more (by omega)⟩
    · rw [if_neg more]
      refine ⟨by simp [stationLoaded], fun h => absurd h more,
        fun _ => ⟨?_, ?_, ?_, by simp [stationLoaded, onChannel]⟩⟩
      · simp only [concludeStep_frame]
        rfl
      · exact concludeStep_progress _ (.inl rfl)
      · simp only [concludeStep_frame]
        rfl

/-! ## Halting faults -/

/-- The writes whose failure halts the part, with the source the fault is recorded under. -/
theorem haltingWrite {p : Purpose} {hs : HaltSource}
    (h : ((∃ k, p = .slotResult k ∨ ∃ done, p = .slotState k done) ∧ hs = .orders) ∨
      ((p = .progressFirst ∨ p = .progressMiddle ∨ p = .progressLast) ∧ hs = .progress)) :
    haltSourceOf p = some hs ∧ faultSourceOf p = if hs = .orders then .orders else .progress := by
  rcases h with ⟨⟨k, rfl | ⟨done, rfl⟩⟩, rfl⟩ | ⟨rfl | rfl | rfl, rfl⟩ <;> exact ⟨rfl, rfl⟩

/-- Settles O52: the part that `enterFaulted` leaves, with the fault recorded before it. -/
theorem haltingFaultEntersFaulted : Obligations.HaltingFaultEntersFaulted := by
  intro c q a hs onBus running halting
  obtain ⟨halts, source⟩ := haltingWrite halting
  refine ⟨_, exec_answerTo_error c q a onBus, ?_⟩
  rw [accessEnds_halts _ a c hs running halts, source]
  generalize hsrc : (if hs = .orders then FaultSource.orders else .progress) = src
  have fault : (recordFaultNow src .bus a.addr (freeBus c)).raised causeFault := recordFaultNow_raised ..
  have records : (recordFaultNow src .bus a.addr (freeBus c)).mpt.records =
      (c.mpt.record src .bus a.addr c.lki.horizon).records := by
    rw [recordFaultNow_freeBus_mpt]
  have image := recordFaultNow_freeBus_image src .bus a.addr c
  refine ⟨rfl, rfl, raised_setCause causeState causeFault _ (by decide) fault, setCause_raised causeState _ (by decide),
    records, by simp [freeBus], ⟨rfl, rfl, rfl, rfl⟩, by simp, rfl,
    rfl, rfl, congrArg (fun banks => { c.sce with banks }) List.map_const', rfl, rfl, rfl, rfl, rfl, rfl, rfl, rfl, rfl,
    (enterFaulted_image hs _).trans (congrArg _ image), rfl, rfl, rfl, rfl, rfl, rfl, rfl⟩

end Sys2Proof.Machine
end

section
/-! SUPPORT. Occasions (R38, R131, R151, R164): what the start of a poll, a return block read, a change of hub state and
the asking for a progress block write leave; and the finish of the waiting requests (R75, R77). -/

namespace Sys2Proof.Machine

/-! ## Progress block writes asked for in a step (R164) -/

/-- DLV has asked for a progress block write and changed nothing else: one is in flight or begins, and with one in
flight already it is to be followed by another. -/
def Dlv.AsksOnly (before after : Dlv) : Prop :=
  after = { before with progressAsked := after.progressAsked, rewrite := after.rewrite } ∧
    (before.progress.isSome = true ∨ after.progressAsked = true) ∧
    (before.progress.isSome = true → after.rewrite = true)

/-- One occasion asks. -/
theorem Dlv.asksOnly_ask (d : Dlv) : d.AsksOnly d.ask :=
  ⟨d.ask_eq, by cases h : d.progress.isSome <;> simp [h], fun h => by simp [h]⟩

/-- A further occasion asks no less. -/
theorem Dlv.AsksOnly.ask {before after : Dlv} (h : before.AsksOnly after) : before.AsksOnly after.ask := by
  obtain ⟨same, due, again⟩ := h
  refine ⟨?_, ?_, fun inFlight => by simp [again inFlight]⟩
  · rw [after.ask_eq, same]
  · rcases due with h | h <;> simp [h]

/-- The end of a step in which DLV has only asked, in BOUND, LISTENING or STOPPING. -/
theorem concludeStep_onlyShows {before : Dlv} (c : Chip) (active : c.active = true) (asks : before.AsksOnly c.dlv) :
    before.onlyShows (concludeStep c).dlv := by
  obtain ⟨same, due, again⟩ := asks
  have progress : c.dlv.progress = before.progress := by rw [same]
  have rewrite : (concludeStep c).dlv.rewrite = c.dlv.rewrite := by simp
  refine ⟨⟨concludeStep_progress c (due.imp (progress ▸ ·) (⟨active, ·⟩)), fun h => rewrite.trans (again h)⟩, ?_⟩
  rw [rewrite, concludeStep_dlv c]
  exact congrArg (fun d : Dlv => { d with
    progressAsked := false
    progress := (concludeStep c).dlv.progress
    rewrite := c.dlv.rewrite
    updateCount := (concludeStep c).dlv.updateCount
    faultUnshown := (concludeStep c).dlv.faultUnshown }) same

/-! ## Changes of state (R8, R38) -/

/-- RGP after the part has entered a state. -/
theorem enterState_rgp (st : PartState) (c : Chip) :
    (enterState st c).rgp = { c.rgp with partState := st, cause := c.rgp.cause ||| causeMask causeState } := by
  simp only [enterState, askProgress_frame]
  rfl

/-- Entering BOUND, LISTENING or STOPPING asks for a progress block write. -/
theorem enterState_dlv (st : PartState) (c : Chip) (active : st.active = true) : (enterState st c).dlv = c.dlv.ask :=
  askProgress_dlv (changeState st c) active

/-- The notice of hub changes touches CAUSE alone of RGP. -/
theorem noteLinkChange_rgp (before : List HubState) (c : Chip) :
    (noteLinkChange before c).rgp = { c.rgp with cause := (noteLinkChange before c).rgp.cause } := by
  unfold noteLinkChange
  split <;> simp [setCause, Rgp.setCause]

/-- LINK is set when a hub state has changed in BOUND, LISTENING or STOPPING (R38). -/
theorem noteLinkChange_cause (before : List HubState) (c : Chip) (b : Nat) :
    (noteLinkChange before c).rgp.cause.getLsbD b =
      (c.rgp.cause.getLsbD b || (b == causeLink && (c.active && decide (hubStates c ≠ before)))) := by
  unfold noteLinkChange
  split
  case isTrue changed =>
    rw [(askProgress_frame _).1, setCause_getLsbD causeLink b c (by decide), changed, Bool.and_true]
  case isFalse same => rw [Bool.eq_false_iff.mpr same, Bool.and_false, Bool.or_false]

/-- The notice of hub changes keeps every cause bit. -/
theorem noteLinkChange_raised (before : List HubState) (c : Chip) (b : Nat) (raised : c.raised b) :
    (noteLinkChange before c).raised b := by
  rw [Chip.raised] at raised
  rw [Chip.raised, noteLinkChange_cause, raised, Bool.true_or]

/-- The notice of hub changes asks no less. -/
theorem noteLinkChange_asksOnly {before : Dlv} (states : List HubState) (c : Chip) (asks : before.AsksOnly c.dlv) :
    before.AsksOnly (noteLinkChange states c).dlv := by
  unfold noteLinkChange
  split
  case isTrue changed =>
    rw [Bool.and_eq_true] at changed
    rw [askProgress_dlv (setCause causeLink c) changed.1]
    exact asks.ask
  case isFalse => exact asks

/-! ## The hubs that LISTEN has seek (R14, R22) -/

/-- Each hub by its entry. -/
theorem seekEnabled_getElem? (entries : List (Option HubEntry)) (hubs : List Hub) (n : Nat) (e : Option HubEntry)
    (h : Hub) (entry : entries[n]? = some e) (hub : hubs[n]? = some h) :
    (seekEnabled entries hubs)[n]? = some (if hubEnabled e = true ∧ h.state = .disabled then
      { h with state := .seeking, buffer := [], marker := none } else h) := by
  induction hubs generalizing entries n with
  | nil => simp at hub
  | cons h0 hs ih =>
    cases entries with
    | nil => simp at entry
    | cons e0 es =>
      cases n with
      | succ n => simpa [seekEnabled] using ih es n (by simpa using entry) (by simpa using hub)
      | zero =>
        obtain rfl : e0 = e := by simpa using entry
        obtain rfl : h0 = h := by simpa using hub
        cases state : h0.state <;> cases enabled : hubEnabled e0 <;> simp [seekEnabled, Hub.seek, state, enabled]

/-! ## The return block read (R151) -/

/-- What an occasion for a return block read leaves of DLV. -/
theorem beginReturnRead_dlv (c : Chip) (active : c.active = true) :
    (beginReturnRead c).dlv = { c.dlv with returnRead := true, reread := c.dlv.reread || c.dlv.returnRead } := by
  cases inFlight : c.dlv.returnRead <;> simp [beginReturnRead, active, inFlight]

/-- With no return block read in flight one is requested. -/
theorem beginReturnRead_requests (c : Chip) (active : c.active = true) (idle : c.dlv.returnRead = false) :
    (beginReturnRead c).mpt.carries (readAccess .returnBlock c.layout.returnBlock 64) := by
  rw [beginReturnRead, if_pos active, if_neg (Bool.eq_false_iff.mp idle), request_carries]
  exact .inr rfl

/-- An occasion for a return block read loses no access. -/
theorem beginReturnRead_carries (c : Chip) (x : Access) (h : c.mpt.carries x) : (beginReturnRead c).mpt.carries x := by
  unfold beginReturnRead
  split
  · split
    · exact h
    · exact (request_carries ..).mpr (.inl h)
  · exact h

/-! ## The start of a poll (R131, R139) -/

/-- During a poll an occasion for one sets the repeat mark. -/
theorem beginPoll_busy (c : Chip) (active : c.active = true) (busy : c.ord.poll.isSome = true) :
    beginPoll c = c.onOrd fun o => { o with repeatMark := true } := by
  simp [beginPoll, active, busy]

/-- With no poll in progress and no drain pending the table is read. -/
theorem beginPoll_idle (c : Chip) (active : c.active = true) (idle : c.ord.poll = none)
    (drained : c.ord.drainPending = none) : beginPoll c = readTable (beginReturnRead c) := by
  simp [beginPoll, active, idle, drained]

/-- With a drain pending no slot is read. -/
theorem beginPoll_draining (c : Chip) (active : c.active = true) (idle : c.ord.poll = none)
    (draining : c.ord.drainPending.isSome = true) : beginPoll c = beginReturnRead c := by
  simp [beginPoll, active, idle, draining]

/-- A poll that begins with no return block read in flight requests one. -/
theorem beginPoll_reads (c : Chip) (active : c.active = true) (idle : c.ord.poll = none)
    (unread : c.dlv.returnRead = false) :
    (beginPoll c).mpt.carries (readAccess .returnBlock c.layout.returnBlock 64) := by
  have read := beginReturnRead_requests c active unread
  cases drain : c.ord.drainPending with
  | none =>
    rw [beginPoll_idle c active idle drain, readTable, requestAll_carries]
    exact .inl read
  | some o => rwa [beginPoll_draining c active idle (by rw [drain]; rfl)]

/-- A poll that reads the table is in progress and counted. -/
theorem readTable_ord (c : Chip) :
    (readTable c).ord = { c.ord with poll := some [], polls := countUp c.ord.polls } := rfl

/-- A poll that reads the table requests the 32 slots. -/
theorem readTable_carries (c : Chip) (x : Access) :
    (readTable c).mpt.carries x ↔ c.mpt.carries x ∨
      ∃ k < 32, x = readAccess (.slotRead k) (c.layout.orders + 64 * k) 64 := by
  rw [readTable, requestAll_carries, pollAccesses, List.mem_map]
  simp only [mem_numbersFrom, slotCount, Layout.slotBase, eq_comm (a := x), Nat.zero_le, true_and, Nat.zero_add]
  rfl

/-! ## Waiting requests that finish (R75, R77) -/

/-- A counter increased twice. -/
theorem addCount_addCount (c : Word32) (m n : Nat) : addCount (addCount c m) n = addCount c (m + n) := by
  apply BitVec.eq_of_toNat_eq
  simp only [addCount_toNat]
  omega

/-- A delivery changes of DLV's counters the lost events alone. -/
theorem deliverContent_counters (content : EventContent) (c : Chip) :
    (deliverContent content c).1.dlv.counters =
      { c.dlv.counters with lostEvents := (deliverContent content c).1.dlv.counters.lostEvents } := by
  unfold deliverContent
  split
  case isTrue => split <;> simp
  case isFalse =>
    unfold deliverFull
    dsimp only
    (repeat' split) <;> simp [countLostEvent]

/-- A reported outcome is counted and delivered (R155). -/
theorem deliverOutcome_reported (o : EventOutcome) (c : Chip)
    (h : unreportedKind (reportWeakInForce c) o.outcome = false) :
    deliverOutcome o c = deliverContent (.scan o) (c.onDlvCounters fun n => n.countOutcome o.outcome) :=
  if_neg (Bool.eq_false_iff.mp h)

/-- A waiting request that finishes STOPPED is counted (R155). -/
theorem finishWaiting_stopped (r : Request) (c : Chip) :
    (finishWaiting .stopped r c).dlv.counters.stopped = countUp c.dlv.counters.stopped := by
  simp only [finishWaiting, completeScan_frame, clearTarget, Chip.onCcu_dlv]
  rw [deliverOutcome_reported (waitingOutcome r .stopped) _ rfl, deliverContent_counters]
  rfl

/-- CCU after a waiting request has finished. -/
theorem finishWaiting_ccu (o : ScanOutcome) (r : Request) (c : Chip) :
    (finishWaiting o r c).ccu = { c.ccu with
      queue := c.ccu.queue.filter fun x => x.number != r.number
      target := if c.ccu.target.map CollapseTarget.number = some r.number then none else c.ccu.target } := by
  simp only [finishWaiting, completeScan_frame, clearTarget, Chip.onCcu_ccu, deliverOutcome_frame, takeRequest]
  split <;> rfl

/-- CCU after the requests of a list have finished. -/
theorem finishWaitingAll_ccu (o : ScanOutcome) (l : List Request) (c : Chip) :
    (finishWaitingAll o l c).ccu = { c.ccu with
      queue := c.ccu.queue.filter fun x => l.all fun r => x.number != r.number
      target := if (l.any fun r => decide (c.ccu.target.map CollapseTarget.number = some r.number)) = true then none
        else c.ccu.target } := by
  induction l generalizing c with
  | nil =>
    have kept : (c.ccu.queue.filter fun x => ([] : List Request).all fun r => x.number != r.number) = c.ccu.queue :=
      List.filter_eq_self.mpr fun _ _ => rfl
    exact congrArg (fun queue => { c.ccu with queue }) kept.symm
  | cons r l ih =>
    rw [finishWaitingAll, ih, finishWaiting_ccu]
    by_cases named : c.ccu.target.map CollapseTarget.number = some r.number
    · simp [named, List.filter_filter, Bool.and_comm]
    · simp only [if_neg named, List.any_cons, decide_eq_false named, Bool.false_or, List.filter_filter, List.all_cons,
        Bool.and_comm]

/-- Each request that finishes STOPPED is counted (R155). -/
theorem finishWaitingAll_stopped (l : List Request) (c : Chip) :
    (finishWaitingAll .stopped l c).dlv.counters.stopped = addCount c.dlv.counters.stopped l.length := by
  induction l generalizing c with
  | nil => simp [finishWaitingAll]
  | cons r l ih =>
    rw [finishWaitingAll, ih, finishWaiting_stopped, countUp, addCount_addCount, List.length_cons, Nat.add_comm]

end Sys2Proof.Machine
end

section
/-! PROOFS. The statements about LISTEN, STOP and NUDGE (R14, R15) and about the end of a binding (R13, R17). -/

namespace Sys2Proof.Machine

/-- The part that has entered a state is in it. -/
theorem enterState_active (st : PartState) (c : Chip) : (enterState st c).active = st.active := by
  rw [Chip.active, enterState_rgp]

/-- Entering a state sets STATE. -/
theorem enterState_raised (st : PartState) (c : Chip) : (concludeStep (enterState st c)).raised causeState := by
  rw [Chip.raised, (concludeStep_frame _).1, enterState_rgp]
  exact setCause_raised causeState c (by decide)

/-! ## LISTEN -/

/-- LISTEN but for the notice of hub changes: LISTENING is entered, and the enabled hubs seek. -/
def listened (c : Chip) : Chip := seekHubs ((enterState .listening c).onCcu fun u => { u with prevCount := 0 })

/-- LISTEN ends with the notice of hub changes. -/
theorem listenEffect_eq (c : Chip) : listenEffect c = noteLinkChange (hubStates c) (listened c) := by
  simp [listenEffect, beginListening, linkEvent, listened, hubStates]

/-- LISTENING is entered. -/
theorem listened_rgp (c : Chip) :
    (listened c).rgp = { c.rgp with partState := .listening, cause := c.rgp.cause ||| causeMask causeState } := by
  rw [← enterState_rgp, listened, (seekHubs_frame _).1, Chip.onCcu_rgp]

/-- The part listens. -/
theorem listened_active (c : Chip) : (listened c).active = true := by rw [Chip.active, listened_rgp]; rfl

/-- The enabled hubs seek, and H stands. -/
theorem listened_lki (c : Chip) :
    (listened c).lki = { c.lki with hubs := seekEnabled c.tcu.hubEntries c.lki.hubs } := by
  simp [listened, seekHubs]

/-- Entering LISTENING asks for a progress block write. -/
theorem listened_asksOnly (c : Chip) : c.dlv.AsksOnly (listened c).dlv := by
  have dlv : (listened c).dlv = c.dlv.ask := by
    simp only [listened, seekHubs_frame, Chip.onCcu_dlv]
    exact enterState_dlv .listening c rfl
  exact dlv ▸ c.dlv.asksOnly_ask

/-- Settles O11: LISTENING is entered, each hub acts on its entry, and the notice of hub changes follows. -/
theorem listenSeeksTheEnabledHubs : Obligations.ListenSeeksTheEnabledHubs := by
  intro c q released bound _ _
  let n := noteControl 2 .accepted c
  have next : exec .listen ⟨c, q⟩ = .next ⟨concludeStep (listenEffect n), q⟩ :=
    control_accepted q released ((listenValid_iff c).mpr bound)
  have asks : c.dlv.AsksOnly (listenEffect n).dlv := by
    rw [listenEffect_eq]
    exact noteLinkChange_asksOnly _ _ (listened_asksOnly n)
  have active : (listenEffect n).active = true := by
    rw [listenEffect_eq]
    simpa using listened_active n
  have rgp : (concludeStep (listenEffect n)).rgp = (noteLinkChange (hubStates n) (listened n)).rgp := by
    rw [(concludeStep_frame _).1, listenEffect_eq]
  have lki : (concludeStep (listenEffect n)).lki = (listened n).lki := by
    rw [listenEffect_eq]
    simp
  obtain ⟨shows, dlv⟩ := concludeStep_onlyShows _ active asks
  refine ⟨_, next, ?_, fun b hb => ?_, fun k h e hub entry => ?_, by simp [n], ?_, by simp [n], by simp [n],
    by simp [n], by simp [n], by simp [n], by simp [n], by simp [n], shows, dlv⟩
  · rw [rgp, noteLinkChange_rgp, listened_rgp]
    rfl
  · rw [rgp, noteLinkChange_cause, listened_rgp, listened_active, lki, BitVec.getLsbD_or,
      causeMask_getLsbD causeState b (by decide), Bool.true_and]
    rfl
  · rw [lki, listened_lki]
    exact seekEnabled_getElem? _ _ k e h entry hub
  · rw [listenEffect_eq]
    simp [n, listened]

/-! ## STOP -/

/-- STOP disables every hub, and H stands. -/
theorem haltDetection_lki (c : Chip) : (haltDetection c).lki = c.lki.disableAll := by simp [haltDetection]

/-- The queue is empty after STOP, and a target that waited is none. -/
theorem haltDetection_ccu (c : Chip) :
    (haltDetection c).ccu = { c.ccu with
      queue := []
      target := if (c.ccu.queue.any fun r => decide (c.ccu.target.map CollapseTarget.number = some r.number)) = true
        then none else c.ccu.target } := by
  have empty : c.ccu.queue.filter (fun x => c.ccu.queue.all fun r => x.number != r.number) = [] := by
    refine List.filter_eq_nil_iff.mpr fun x listed apart => ?_
    simpa using List.all_eq_true.mp apart x listed
  rw [haltDetection, finishWaitingAll_ccu]
  simp only [linkEvent_frame, Chip.onLki_ccu, empty]

/-- Each waiting request is counted STOPPED. -/
theorem haltDetection_stopped (c : Chip) :
    (haltDetection c).dlv.counters.stopped = addCount c.dlv.counters.stopped c.ccu.queue.length := by
  rw [haltDetection, finishWaitingAll_stopped]
  simp

/-- STOP enters STOPPING with a context in service and BOUND with none. -/
theorem stopEffect_eq (c : Chip) :
    stopEffect c = enterState (if c.sce.banks.any Option.isSome = true then .stopping else .bound)
      (haltDetection c) := by
  have inService : anyInService (haltDetection c) = c.sce.banks.any Option.isSome := by simp [anyInService]
  rw [stopEffect, inService]
  split <;> rfl

/-- Settles O12: `haltDetection`, and then the entry to STOPPING or BOUND. -/
theorem stopHaltsDetection : Obligations.StopHaltsDetection := by
  intro c q released listening
  let n := noteControl 3 .accepted c
  let st : PartState := if c.sce.banks.any Option.isSome = true then .stopping else .bound
  have next : exec .stop ⟨c, q⟩ = .next ⟨concludeStep (enterState st (haltDetection n)), q⟩ :=
    stopEffect_eq n ▸ control_accepted q released ((stopValid_iff c).mpr listening)
  have active : st.active = true := by simp only [st]; split <;> rfl
  obtain ⟨⟨shows, -⟩, -⟩ := concludeStep_onlyShows (enterState st (haltDetection n))
    ((enterState_active st _).trans active) (enterState_dlv st _ active ▸ Dlv.asksOnly_ask _)
  have ccu : (concludeStep (enterState st (haltDetection n))).ccu = (haltDetection n).ccu := by simp
  rw [haltDetection_ccu] at ccu
  refine ⟨_, next, ?_, enterState_raised st _, fun k h hub => ?_, by simp [n], ccu ▸ rfl,
    ccu ▸ rfl, ccu ▸ rfl, ccu ▸ rfl, by simp [n], by simp [n], by simp [n], by simp [n], by simp [n], by simp [n], ?_,
    shows⟩
  · rw [(concludeStep_frame _).1, enterState_rgp]
  · have lki : (concludeStep (enterState st (haltDetection n))).lki = (haltDetection n).lki := by simp
    rw [lki, haltDetection_lki, Lki.disableAll, List.getElem?_map]
    exact congrArg (Option.map Hub.disable) hub
  · simpa [n] using haltDetection_stopped n

/-! ## NUDGE -/

/-- What an accepted NUDGE leaves of DLV: an occasion for the return block read, and with no poll in progress a
second one. -/
theorem nudgeEffect_dlv (c : Chip) (active : c.active = true) :
    (nudgeEffect c).dlv =
      { c.dlv with returnRead := true, reread := c.dlv.reread || c.dlv.returnRead || c.ord.poll.isNone } := by
  rw [nudgeEffect, beginReturnRead_dlv _ (by simpa using active)]
  cases poll : c.ord.poll with
  | some slots =>
    rw [beginPoll_busy c active (by rw [poll]; rfl)]
    simp
  | none =>
    have begun : (beginPoll c).dlv = (beginReturnRead c).dlv := by
      cases drain : c.ord.drainPending with
      | none => rw [beginPoll_idle c active poll drain]; simp
      | some o => rw [beginPoll_draining c active poll (by rw [drain]; rfl)]
    rw [begun, beginReturnRead_dlv c active]
    simp

/-- Settles O13: by the three ways a poll can begin. -/
theorem nudgePollsAndReadsTheReturnBlock : Obligations.NudgePollsAndReadsTheReturnBlock := by
  intro c q released active
  let n := noteControl 4 .accepted c
  have next : exec .nudge ⟨c, q⟩ = .next ⟨concludeStep (nudgeEffect n), q⟩ := control_accepted q released active
  have dlv := nudgeEffect_dlv n active
  have begun (x : Access) (h : (beginPoll n).mpt.carries x) : (concludeStep (nudgeEffect n)).mpt.carries x :=
    concludeStep_carries _ x (beginReturnRead_carries _ x h)
  have ord : (concludeStep (nudgeEffect n)).ord = (beginPoll n).ord := by simp [nudgeEffect]
  refine ⟨_, next, by simp [noteControl_eq, n], ?_, fun idle drained => ⟨?_, fun k hk => begun _ ?_⟩, fun busy => ?_,
    fun idle draining => ?_, fun unread => ?_, by simp [n], by simp [n], by simp [n], by simp [n], by simp [n],
    by simp [n], by simp [n], by simp [n], ?_, fun quiet => ?_⟩
  · rw [concludeStep_dlv, dlv]
  · rw [ord, beginPoll_idle n active idle drained, readTable_ord]
    simp [n]
  · rw [beginPoll_idle n active idle drained, readTable_carries]
    exact .inr ⟨k, hk, by simp [Chip.layout, n]⟩
  · rw [ord, beginPoll_busy n active busy]
    rfl
  · rw [ord, beginPoll_draining n active idle draining]
    simp [n]
  · cases poll : n.ord.poll with
    | none => exact begun _ (beginPoll_reads n active poll unread)
    | some slots =>
      refine concludeStep_carries _ _ ?_
      rw [nudgeEffect, beginPoll_busy n active (by rw [poll]; rfl)]
      exact beginReturnRead_requests _ active unread
  · rw [concludeStep_dlv, dlv]
    rfl
  · rw [concludeStep_of_notAsked _ (by rw [dlv]; exact quiet)]
    exact dlv

/-! ## The end of a binding -/

/-- A binding that succeeds but for what AUTO adds: the result, the new state, and the first poll. -/
def bindingSucceeded (k : Binding) (c : Chip) : Chip :=
  beginPoll (startPollTimer (changeState (if k.auto = true then .listening else .bound)
    (c.onRgp fun r => { r with bindResult := .ok, binding := none })))

/-- With AUTO the part listens besides. -/
theorem succeedBinding_eq (k : Binding) (c : Chip) :
    succeedBinding k c = if k.auto = true then beginListening (bindingSucceeded k c) else bindingSucceeded k c := rfl

/-- RGP after a binding that succeeds. -/
theorem bindingSucceeded_rgp (k : Binding) (c : Chip) :
    (bindingSucceeded k c).rgp = { c.rgp with
      bindResult := .ok
      binding := none
      partState := if k.auto = true then .listening else .bound
      cause := c.rgp.cause ||| causeMask causeState } := by
  rw [bindingSucceeded, (beginPoll_frame _).1]
  rfl

/-- The first poll of a binding that succeeds, with the poll timer running. -/
theorem bindingSucceeded_poll (k : Binding) (c : Chip) (idle : c.ord.poll = none)
    (drained : c.ord.drainPending = none) :
    (bindingSucceeded k c).ord =
        { c.ord with timer := some (pollPeriodInForce c), poll := some [], polls := countUp c.ord.polls } ∧
      (bindingSucceeded k c).dlv.returnRead = true := by
  let started := startPollTimer (changeState (if k.auto = true then .listening else .bound)
    (c.onRgp fun r => { r with bindResult := .ok, binding := none }))
  have active : started.active = true := by
    cases auto : k.auto <;> simp [started, Chip.active, changeState, PartState.active, auto]
  have poll : bindingSucceeded k c = readTable (beginReturnRead started) := beginPoll_idle started active idle drained
  have ord : (beginReturnRead started).ord = started.ord := by simp
  rw [poll, readTable_ord, ord]
  exact ⟨rfl, by simp [beginReturnRead_dlv started active]⟩

/-- What listening adds to a part, in RGP and LKI. -/
theorem beginListening_adds (c : Chip) :
    (∀ b, c.raised b → (beginListening c).raised b) ∧
      (beginListening c).lki = { c.lki with hubs := seekEnabled c.tcu.hubEntries c.lki.hubs } :=
  ⟨fun b raised => noteLinkChange_raised _ _ b raised, by simp [beginListening, seekHubs]⟩

/-- What a binding that succeeds leaves of the registers, of the poll and of the hubs. -/
theorem succeedBinding_spec (k : Binding) (c : Chip) (idle : c.ord.poll = none) (drained : c.ord.drainPending = none) :
    let d := succeedBinding k c
    d.rgp.bindResult = .ok ∧ d.rgp.binding = none ∧
      d.rgp.partState = (if k.auto = true then .listening else .bound) ∧ d.raised causeState ∧
      d.ord = { c.ord with timer := some (pollPeriodInForce c), poll := some [], polls := countUp c.ord.polls } ∧
      d.dlv.returnRead = true ∧
      d.lki.hubs = (if k.auto = true then seekEnabled c.tcu.hubEntries c.lki.hubs else c.lki.hubs) := by
  have rgp := bindingSucceeded_rgp k c
  have raised : (bindingSucceeded k c).raised causeState := by
    rw [Chip.raised, rgp]
    exact setCause_raised causeState c (by decide)
  obtain ⟨ord, read⟩ := bindingSucceeded_poll k c idle drained
  have lki : (bindingSucceeded k c).lki = c.lki := by simp [bindingSucceeded]
  have tcu : (bindingSucceeded k c).tcu = c.tcu := by simp [bindingSucceeded]
  rw [succeedBinding_eq]
  cases auto : k.auto with
  | false => exact ⟨by simp [rgp], by simp [rgp], by simp [rgp, auto], raised, ord, read, by simp [lki]⟩
  | true =>
    obtain ⟨keeps, hubs⟩ := beginListening_adds (bindingSucceeded k c)
    exact ⟨by simp [rgp], by simp [rgp], by simp [rgp, auto], keeps _ raised, by simp [ord], by simp [read],
      by simp [hubs, lki, tcu]⟩

/-- The last word of the first image, answered: the write completes, the binding succeeds, and a rewrite may follow. -/
theorem exec_firstImage (c : Chip) (q : List Instr) (a : Access) (k : Binding) (w : ProgressWrite)
    (onBus : c.mpt.onBus = some a) (purpose : a.purpose = .progressLast) (binding : c.rgp.partState = .binding)
    (under : c.rgp.binding = some k) (inFlight : c.dlv.progress = some w) :
    exec (.progressWriteDone true) ⟨c, q⟩ =
      .next ⟨concludeStep (rewriteProgress (succeedBinding k (completeProgress w (freeBus c)))), q⟩ := by
  have answered : exec (.progressWriteDone true) ⟨c, q⟩ = .next ⟨accessEnds progressAnswered a (some []) c, q⟩ :=
    answerWrite_on _ _ true c q a onBus (by rw [purpose]; rfl)
  rw [answered, accessEnds_data _ a _ c (by simp [binding])]
  simp [progressAnswered, completeBinding, inFlight, under]

/-- Settles O17: the binding succeeds on the part whose write has completed. -/
theorem firstImageCompletesTheBinding : Obligations.FirstImageCompletesTheBinding := by
  intro c q a k w onBus purpose binding under inFlight idle drained
  refine ⟨_, exec_firstImage c q a k w onBus purpose binding under inFlight, ?_⟩
  obtain ⟨result, ended, state, raised, ord, read, hubs⟩ :=
    succeedBinding_spec k (completeProgress w (freeBus c)) (by simpa using idle) (by simpa using drained)
  have rgp : (concludeStep (rewriteProgress (succeedBinding k (completeProgress w (freeBus c))))).rgp =
      (succeedBinding k (completeProgress w (freeBus c))).rgp := by simp
  have period : pollPeriodInForce (completeProgress w (freeBus c)) = pollPeriodInForce c := by simp [pollPeriodInForce]
  refine ⟨rgp ▸ result, rgp ▸ ended, rgp ▸ state, by rw [Chip.raised, rgp]; exact raised, ?_, ?_, by simp, by simp,
    by simp, by simp, ?_, by simp, by simp⟩
  · simp [ord, period]
  · simp [read]
  · simp [hubs]

end Sys2Proof.Machine
end

section
/-! SUPPORT. The bounds of the scan queue, the row cache, the pending event queue and the streams (R71, R113, R148,
R157): each operation that touches one of them, and that it keeps the bounds. An operation whose frame keeps the bounded
fields needs no lemma of its own: `Chip.Bounded.keeps` reads it off the frame. -/

namespace Sys2Proof.Machine

/-! ## The bounds together -/

/-- The four bounds hold, that of the streams for each stream. -/
structure Chip.Bounded (c : Chip) : Prop where
  queue : c.ccu.queueBounded
  cache : c.tcu.cacheBounded
  pending : c.dlv.pendingBounded
  pick : c.dlv.pick.sound
  event : c.dlv.event.sound

/-- The bounds as the statement has them. -/
theorem Chip.bounded_iff (c : Chip) :
    c.Bounded ↔ c.ccu.queueBounded ∧ c.tcu.cacheBounded ∧ c.dlv.pendingBounded ∧ c.dlv.streamsSound :=
  ⟨fun ⟨queue, cache, pending, pick, event⟩ => ⟨queue, cache, pending, pick, event⟩,
    fun ⟨queue, cache, pending, pick, event⟩ => ⟨queue, cache, pending, pick, event⟩⟩

/-- What leaves the bounded fields alone keeps the bounds. -/
theorem Chip.Bounded.keeps {c d : Chip} (h : c.Bounded) (same : d.ccu.queue = c.ccu.queue ∧
    d.tcu.cache = c.tcu.cache ∧ d.dlv.pendingEvents = c.dlv.pendingEvents ∧ d.dlv.pick = c.dlv.pick ∧
    d.dlv.event = c.dlv.event) : d.Bounded := by
  obtain ⟨queue, cache, pending, pick, event⟩ := same
  obtain ⟨hqueue, hcache, hpending, hpick, hevent⟩ := h
  exact ⟨by rwa [Ccu.queueBounded, queue], by rwa [Tcu.cacheBounded, cache], by rwa [Dlv.pendingBounded, pending],
    pick ▸ hpick, event ▸ hevent⟩

/-- A change of CCU that leaves at most eight requests waiting. -/
theorem Chip.Bounded.onCcu {c : Chip} (f : Ccu → Ccu) (h : c.Bounded) (queue : (f c.ccu).queueBounded) :
    (c.onCcu f).Bounded := ⟨queue, h.cache, h.pending, h.pick, h.event⟩

/-- A change of TCU that leaves at most 64 rows in the cache. -/
theorem Chip.Bounded.onTcu {c : Chip} (f : Tcu → Tcu) (h : c.Bounded) (cache : (f c.tcu).cacheBounded) :
    (c.onTcu f).Bounded := ⟨h.queue, cache, h.pending, h.pick, h.event⟩

/-- A list with room for one more, with one more. -/
theorem length_snoc_le {α : Type} {l : List α} {n : Nat} (x : α) (room : l.length < n) :
    (l ++ [x]).length ≤ n := by
  rw [List.length_append]
  exact room

theorem setCause_bounded (bit : Nat) {c : Chip} (h : c.Bounded) : (setCause bit c).Bounded := h.keeps (by simp)

theorem askProgress_bounded {c : Chip} (h : c.Bounded) : (askProgress c).Bounded := h.keeps (by simp)

/-! ## Streams (R147, R148, R152) -/

/-- A record more is within a stream that has room. -/
theorem StreamState.written_sound (s : StreamState) (room : s.hasRoom = true) :
    ({ s with written := s.written + 1 } : StreamState).sound := by
  have room : (s.written - s.released).toNat < s.slots := of_decide_eq_true room
  have next : s.written + 1 - s.released = (s.written - s.released) + 1 := by bv_omega
  have step : ((s.written - s.released) + 1).toNat ≤ (s.written - s.released).toNat + 1 := by
    rw [BitVec.toNat_add]
    exact Nat.mod_le _ _
  simp only [StreamState.sound, next]
  omega

/-- A stream that adopts a released total has no more records outstanding than before. -/
theorem StreamState.adopt_sound (r : Word32) (s : StreamState) (sound : s.sound) : (s.adopt r).sound := by
  simp only [StreamState.sound, StreamState.adopt] at sound ⊢
  split
  case isTrue => simp
  case isFalse within =>
    have within : (r - s.released).toNat ≤ (s.written - s.released).toNat := by
      simpa [StreamState.beyond] using within
    have left : s.written - r = (s.written - s.released) - (r - s.released) := by bv_omega
    rw [left, BitVec.toNat_sub_of_le within]
    omega

/-- The no-room mark is no part of the totals. -/
theorem clearNoRoom_sound (s : StreamState) (sound : s.sound) : (clearNoRoom s).sound := sound

/-- A change of one stream that keeps it sound. -/
theorem onStream_bounded (id : StreamId) (f : StreamState → StreamState) {c : Chip} (h : c.Bounded)
    (sound : (c.dlv.stream id).sound → (f (c.dlv.stream id)).sound) : (onStream id f c).Bounded := by
  cases id with
  | pick => exact ⟨h.queue, h.cache, h.pending, sound h.pick, h.event⟩
  | event => exact ⟨h.queue, h.cache, h.pending, h.pick, sound h.event⟩

/-- A sequence taken leaves the room of a stream. -/
theorem takeSequence_hasRoom (id : StreamId) (c : Chip) :
    ((takeSequence id c).dlv.stream id).hasRoom = (c.dlv.stream id).hasRoom := by cases id <;> rfl

theorem takeSequence_bounded (id : StreamId) {c : Chip} (h : c.Bounded) : (takeSequence id c).Bounded :=
  onStream_bounded id _ h fun sound => sound

/-- A record is assigned only where the stream has room. -/
theorem assignRecord_bounded (id : StreamId) (bytes : List Byte) {c : Chip} (h : c.Bounded)
    (room : (c.dlv.stream id).hasRoom = true) : (assignRecord id bytes c).Bounded := by
  unfold assignRecord
  exact onStream_bounded id _ (h.keeps (by simp)) fun _ => StreamState.written_sound _ (by simpa using room)

theorem markNoRoom_bounded (id : StreamId) {c : Chip} (h : c.Bounded) : (markNoRoom id c).Bounded := by
  unfold markNoRoom
  split
  · exact h
  · exact setCause_bounded _ (onStream_bounded id _ h fun sound => sound)

theorem meetNoRoom_bounded (id : StreamId) {c : Chip} (h : c.Bounded) : (meetNoRoom id c).Bounded := by
  unfold meetNoRoom
  exact (markNoRoom_bounded id h).keeps (by simp)

/-! ## Picks (R54, R154) -/

theorem deliverPick_bounded (p : Pick) {c : Chip} (h : c.Bounded) : (deliverPick p c).Bounded := by
  unfold deliverPick
  split
  case isTrue room =>
    exact assignRecord_bounded .pick _ (takeSequence_bounded .pick h) ((takeSequence_hasRoom .pick c).trans room)
  case isFalse => exact meetNoRoom_bounded .pick (h.keeps (by simp))

theorem formPick_bounded (f : FormedPick) {c : Chip} (h : c.Bounded) : (formPick f c).Bounded := by
  unfold formPick
  dsimp only
  split
  · exact deliverPick_bounded f.pick (h.keeps (by simp))
  · exact h.keeps (by simp)

theorem formPicks_bounded (l : List FormedPick) {c : Chip} (h : c.Bounded) : (formPicks l c).Bounded := by
  induction l generalizing c with
  | nil => exact h
  | cons f l ih => exact ih (formPick_bounded f h)

theorem conditionTick_bounded (t : Nat) (samples : List (Option (BitVec 24))) {c : Chip} (h : c.Bounded) :
    (conditionTick t samples c).Bounded := formPicks_bounded _ (h.keeps (by simp))

theorem reloadChannel_bounded (n : Nat) (e : StationEntry) {c : Chip} (h : c.Bounded) :
    (reloadChannel n e c).Bounded := by
  unfold reloadChannel
  split
  · exact formPicks_bounded _ (h.keeps (by simp))
  · exact h.keeps (by simp)

/-! ## The pending event queue (R156 to R158) -/

theorem setPendingEvents_bounded (l : List EventRecord) {c : Chip} (h : c.Bounded) (few : l.length ≤ 8) :
    (setPendingEvents l c).Bounded := ⟨h.queue, h.cache, few, h.pick, h.event⟩

/-- The pending write leaves at most the records it began with. -/
theorem writePending_bounded (l : List EventRecord) {c : Chip} (h : c.Bounded) (few : l.length ≤ 8) :
    (writePending l c).Bounded := by
  induction l generalizing c with
  | nil => exact setPendingEvents_bounded [] h few
  | cons r rest ih =>
    unfold writePending
    split
    case isTrue room =>
      exact ih (assignRecord_bounded .event _ h room) (Nat.le_of_succ_le few)
    case isFalse =>
      have waits := setPendingEvents_bounded (r :: rest) h few
      split
      · exact waits
      · exact meetNoRoom_bounded .event waits

theorem pendingWrite_bounded {c : Chip} (h : c.Bounded) : (pendingWrite c).Bounded :=
  writePending_bounded _ h h.pending

/-- A record joins where fewer than eight wait. -/
theorem joinPending_bounded (content : EventContent) {c : Chip} (h : c.Bounded)
    (few : c.dlv.pendingEvents.length < 8) : (joinPending content c).Bounded :=
  setPendingEvents_bounded _ (takeSequence_bounded .event h) (length_snoc_le _ few)

theorem appendRecord_bounded (content : EventContent) {c : Chip} (h : c.Bounded)
    (few : c.dlv.pendingEvents.length < 8) : (appendRecord content c).Bounded := by
  have joined := joinPending_bounded content h few
  unfold appendRecord
  dsimp only
  split
  · exact pendingWrite_bounded joined
  · exact meetNoRoom_bounded .event joined

theorem appendDisplacing_bounded (content : EventContent) {c : Chip} (h : c.Bounded)
    (few : c.dlv.pendingEvents.length < 8) : (appendDisplacing content c).Bounded := by
  have joined := joinPending_bounded content h few
  unfold appendDisplacing
  dsimp only
  split
  · exact pendingWrite_bounded joined
  · exact joined

/-- The weakest record is one of those that wait. -/
theorem weakestRecord_mem (l : List EventRecord) (w : EventRecord) (weakest : weakestRecord l = some w) : w ∈ l := by
  induction l generalizing w with
  | nil => cases weakest
  | cons r rest ih =>
    rw [weakestRecord] at weakest
    split at weakest
    case h_1 => simp_all
    case h_2 v found =>
      split at weakest
      · simp_all
      · exact List.mem_cons_of_mem _ (ih w (found.trans (by simpa using weakest)))

/-- A record removed leaves fewer. -/
theorem removeRecord_length_lt (w : EventRecord) (l : List EventRecord) (listed : w ∈ l) :
    (removeRecord w.seq l).length < l.length :=
  List.length_filter_lt_length_iff_exists.mpr ⟨w, listed, by simp⟩

/-- A full queue drops the new record, or the weakest gives way to it. -/
theorem deliverFull_bounded (content : EventContent) {c : Chip} (h : c.Bounded) :
    (deliverFull content c).1.Bounded := by
  have counted : (countLostEvent (meetNoRoom .event c)).Bounded := (meetNoRoom_bounded .event h).keeps (by simp)
  unfold deliverFull
  dsimp only
  split
  case h_1 => exact counted
  case h_2 w weakest =>
    split
    case isTrue =>
      have fewer := Nat.lt_of_lt_of_le (removeRecord_length_lt w _ (weakestRecord_mem _ w weakest)) counted.pending
      exact appendDisplacing_bounded content (setPendingEvents_bounded _ counted (Nat.le_of_lt fewer)) fewer
    case isFalse => exact counted

theorem deliverContent_bounded (content : EventContent) {c : Chip} (h : c.Bounded) :
    (deliverContent content c).1.Bounded := by
  unfold deliverContent
  split
  case isTrue few =>
    split
    case isTrue direct =>
      have room : c.dlv.event.hasRoom = true := (Bool.and_eq_true_iff.mp direct).2
      exact assignRecord_bounded .event _ (takeSequence_bounded .event h) ((takeSequence_hasRoom .event c).trans room)
    case isFalse => exact appendRecord_bounded content h few
  case isFalse => exact deliverFull_bounded content h

theorem deliverOutcome_bounded (o : EventOutcome) {c : Chip} (h : c.Bounded) : (deliverOutcome o c).1.Bounded := by
  unfold deliverOutcome
  dsimp only
  split
  · exact h.keeps (by simp)
  · exact deliverContent_bounded _ (h.keeps (by simp))

theorem deliverMarker_bounded (tag : Word32) {c : Chip} (h : c.Bounded) : (deliverMarker tag c).1.Bounded :=
  deliverContent_bounded _ (h.keeps (by simp))

/-! ## Answers of DLV (R149, R150, R152) -/

theorem recordAnswered_bounded (a : Access) (r : Option (List Byte)) {c : Chip} (h : c.Bounded) :
    (recordAnswered a r c).Bounded := by
  unfold recordAnswered
  exact askProgress_bounded (onStream_bounded _ _ (h.keeps (by simp)) fun sound => sound)

theorem adoptReleased_bounded (id : StreamId) (r : Word32) {c : Chip} (h : c.Bounded) :
    (adoptReleased id r c).Bounded := by
  have adopted := onStream_bounded id (StreamState.adopt r) h (StreamState.adopt_sound r _)
  unfold adoptReleased
  dsimp only
  split
  · exact adopted.keeps (by simp)
  · exact adopted

theorem adoptReturnBlock_bounded (b : List Byte) {c : Chip} (h : c.Bounded) : (adoptReturnBlock b c).Bounded := by
  unfold adoptReturnBlock
  have adopted := adoptReleased_bounded .event (BitVec.ofNat 32 (leValue b 4 4))
    (adoptReleased_bounded .pick (BitVec.ofNat 32 (leValue b 0 4)) h)
  have picks := onStream_bounded .pick clearNoRoom adopted (clearNoRoom_sound _)
  exact pendingWrite_bounded (onStream_bounded .event clearNoRoom picks (clearNoRoom_sound _))

theorem returnBlockAnswered_bounded (a : Access) (r : Option (List Byte)) {c : Chip} (h : c.Bounded) :
    (returnBlockAnswered a r c).Bounded := by
  have counted : (c.onDlvCounters fun n => { n with returnReads := countUp n.returnReads }).Bounded := h.keeps (by simp)
  unfold returnBlockAnswered
  cases r with
  | some b => exact (adoptReturnBlock_bounded b counted).keeps (by simp)
  | none => exact counted.keeps (by simp)

theorem showTotal_bounded (id : StreamId) (total : Word32) {c : Chip} (h : c.Bounded) :
    (showTotal id total c).Bounded := by
  have shown (n : Nat) : (onStream id (fun s => { s with shown := total, notice := n }) c).Bounded :=
    onStream_bounded id _ h fun sound => sound
  rw [showTotal_spec]
  split
  · exact setCause_bounded _ (shown _)
  · exact shown _

theorem completeProgress_bounded (w : ProgressWrite) {c : Chip} (h : c.Bounded) : (completeProgress w c).Bounded := by
  have ended : ((c.onDlv fun d => { d with progress := none }).onDlvCounters fun n =>
      { n with progressWrites := countUp n.progressWrites }).Bounded := h.keeps (by simp)
  unfold completeProgress
  exact (showTotal_bounded .event w.eventTotal (showTotal_bounded .pick w.pickTotal ended)).keeps (by simp)

theorem progressAnswered_bounded (a : Access) (r : Option (List Byte)) {c : Chip} (h : c.Bounded) :
    (progressAnswered a r c).Bounded := by
  unfold progressAnswered
  split
  case h_1 w _ => exact (completeProgress_bounded w h).keeps (by simp)
  case h_2 => exact h

theorem takeNotice_bounded (id : StreamId) {c : Chip} (h : c.Bounded) : (takeNotice id c).Bounded := by
  unfold takeNotice
  split
  · exact setCause_bounded _ (onStream_bounded id _ h fun sound => sound)
  · exact h

/-! ## The scan queue (R71, R74, R75) -/

/-- A request joins where fewer than eight wait. -/
theorem enqueue_bounded (r : Request) {c : Chip} (h : c.Bounded) (room : c.ccu.queue.length < queueSize) :
    (enqueue r c).Bounded := h.onCcu _ (length_snoc_le r room)

theorem takeRequest_bounded (number : Nat) {c : Chip} (h : c.Bounded) : (takeRequest number c).Bounded :=
  h.onCcu _ (Nat.le_trans (List.length_filter_le _ _) h.queue)

/-- A target cleared leaves the queue. -/
@[simp] theorem clearTarget_queue (number : Nat) (c : Chip) : (clearTarget number c).ccu.queue = c.ccu.queue := by
  simp only [clearTarget, Chip.onCcu_ccu]
  split <;> rfl

theorem finishWaiting_bounded (o : ScanOutcome) (r : Request) {c : Chip} (h : c.Bounded) :
    (finishWaiting o r c).Bounded :=
  (deliverOutcome_bounded (waitingOutcome r o) (takeRequest_bounded r.number h)).keeps (by simp [finishWaiting])

theorem finishWaitingAll_bounded (o : ScanOutcome) (l : List Request) {c : Chip} (h : c.Bounded) :
    (finishWaitingAll o l c).Bounded := by
  induction l generalizing c with
  | nil => exact h
  | cons r l ih => exact ih (finishWaiting_bounded o r h)

/-- A waiting request that finishes leaves the queue. -/
theorem finishWaiting_queue_lt (o : ScanOutcome) (r : Request) (c : Chip) (waits : r ∈ c.ccu.queue) :
    (finishWaiting o r c).ccu.queue.length < c.ccu.queue.length := by
  rw [finishWaiting_ccu]
  exact List.length_filter_lt_length_iff_exists.mpr ⟨r, waits, by simp⟩

/-! ## The row cache (R113 to R115, R117) -/

/-- A hit moves a row that is in the cache. -/
theorem touchEntry_length_le (e : CacheEntry) (cache : List CacheEntry) (listed : e ∈ cache) :
    (touchEntry e cache).length ≤ cache.length := by
  have fewer : (cache.filter fun x => !CacheEntry.isFor e.grid e.node x).length < cache.length :=
    List.length_filter_lt_length_iff_exists.mpr ⟨e, listed, by simp [CacheEntry.isFor]⟩
  exact length_snoc_le e fewer

theorem hitRow_bounded (e : CacheEntry) {c : Chip} (h : c.Bounded) (listed : e ∈ c.tcu.cache) :
    (hitRow e c).Bounded := h.onTcu _ (Nat.le_trans (touchEntry_length_le e _ listed) h.cache)

theorem requestRow_bounded (grid node : Nat) {c : Chip} (h : c.Bounded) : (requestRow grid node c).1.Bounded := by
  unfold requestRow
  split
  · exact h
  · split
    · exact h
    · split
      case h_1 e found => exact hitRow_bounded e h (List.mem_of_find?_eq_some found)
      case h_2 => exact h.keeps (by simp)

/-- A full cache evicts a row for the one it takes. -/
theorem keepRow_cacheBounded (e : CacheEntry) (t : Tcu) (h : t.cacheBounded) : (t.keepRow e).cacheBounded := by
  unfold Tcu.keepRow
  split
  case isTrue room => exact length_snoc_le e room
  case isFalse full =>
    simp only [Tcu.cacheBounded, List.length_append, List.length_tail, List.length_singleton, cacheSize] at h full ⊢
    omega

theorem endFetch_cacheBounded (row : Option (List (BitVec 16))) (t : Tcu) (h : t.cacheBounded) :
    (t.endFetch row).cacheBounded := by
  unfold Tcu.endFetch
  split
  · split
    · exact keepRow_cacheBounded _ t h
    · exact h
  · exact h

theorem performRowScope_bounded (scope : RowScope) {c : Chip} (h : c.Bounded) : (performRowScope scope c).Bounded :=
  Chip.Bounded.onTcu _ (h.keeps (by simp)) (Nat.le_trans (List.length_filter_le _ _) h.cache)

theorem runRowScope_bounded (o : InvalOrder) (scope : RowScope) (word : Nat) {c : Chip} (h : c.Bounded) :
    (runRowScope o scope word c).1.Bounded :=
  (performRowScope_bounded scope h).keeps (by simp [runRowScope])

end Sys2Proof.Machine
end

section
/-! SUPPORT. The bounds through the scan engine, the settlement of ticks, the tables and the orders (R71, R113, R148,
R157): every operation of these that touches a bounded field, in the order of the definitions. -/

namespace Sys2Proof.Machine

/-! ## The scan engine (R83 to R102) -/

theorem finishScan_bounded (bank : Nat) (sc : Scan) (o : ScanOutcome) (arrivals : List Arrival) {c : Chip}
    (h : c.Bounded) : (finishScan bank sc o arrivals c).Bounded := by
  unfold finishScan
  exact (deliverOutcome_bounded (scanOutcome sc o arrivals) h).keeps (by simp)

theorem startScan_bounded (r : Request) {c : Chip} (h : c.Bounded) : (startScan r c).1.Bounded := by
  have taken := takeRequest_bounded r.number h
  unfold startScan
  dsimp only
  split
  · exact h
  · split
    · exact finishScan_bounded _ _ _ _ (taken.keeps (by simp))
    · split
      · exact finishScan_bounded _ _ _ _ (taken.keeps (by simp))
      · split
        · exact finishScan_bounded _ _ _ _ (taken.keeps (by simp))
        · exact taken.keeps (by simp)

theorem resumeScan_bounded (bank : Nat) (sc : Scan) {c : Chip} (h : c.Bounded) :
    (resumeScan bank sc c).1.Bounded := by
  unfold resumeScan
  dsimp only
  split
  · exact finishScan_bounded _ _ _ _ (h.keeps (by simp))
  · exact h.keeps (by simp)

theorem selectAction_bounded {c : Chip} (h : c.Bounded) : (selectAction c).1.Bounded := by
  unfold selectAction
  split
  · exact h
  · split
    · exact h
    · exact resumeScan_bounded _ _ h
    · exact startScan_bounded _ h

theorem requestScanRow_bounded (bank grid node : Nat) (phase : ScanPhase) (next : List (BitVec 16) → EngineTask)
    {c : Chip} (h : c.Bounded) : (requestScanRow bank grid node phase next c).1.Bounded := by
  unfold requestScanRow
  dsimp only
  have widened : (onScan bank (fun sc => { sc.widenRange grid node with phase := phase }) c).Bounded :=
      h.keeps (by simp)
  have asked := requestRow_bounded grid node widened
  split
  all_goals
    rename_i reply
    rw [reply] at asked
    exact asked.keeps (by simp)

/-- An action of the RUNNING scan asks for a row, or finishes the scan, or changes banks and ports alone. -/
theorem scanAction_bounded (task : EngineTask) (bank : Nat) (sc : Scan) {c : Chip} (h : c.Bounded) :
    (scanAction task bank sc c).1.Bounded := by
  cases task with
  | select => exact h
  | node => exact requestScanRow_bounded _ _ _ _ _ h
  | rowIn row => exact h.keeps (d := (rowAction bank sc row c).1) (by simp)
  | nodeEnd => exact h.keeps (d := (nodeEndAction bank sc c).1) (by simp)
  | boundary =>
    simp only [scanAction, boundaryAction]
    split
    · exact finishScan_bounded _ _ _ _ h
    · split <;> exact h.keeps (by simp)
  | stageEnd => exact h.keeps (d := (stageEndAction bank sc c).1) (by simp)
  | refined e => exact h.keeps (d := (refinedAction bank sc e c).1) (by simp)
  | arrival o =>
    simp only [scanAction, arrivalAction]
    split
    · exact h
    · exact requestScanRow_bounded _ _ _ _ _ h
  | listRow o row => exact h.keeps (d := (listAction bank sc o row 0 [] c).1) (by simp)
  | conclude o arrivals =>
    simp only [scanAction, concludeAction]
    split <;> exact finishScan_bounded _ _ _ _ h

theorem engineAction_bounded (task : EngineTask) (c : Chip) (h : c.Bounded) : (engineAction task c).1.Bounded := by
  unfold engineAction
  split
  · exact selectAction_bounded h
  · split
    · exact scanAction_bounded _ _ _ h
    · exact h

theorem engine_bounded (task : EngineTask) {c : Chip} (h : c.Bounded) : (engine task c).Bounded :=
  engine_induct Chip.Bounded engineAction_bounded task c h

theorem offerRipe_bounded {c : Chip} (h : c.Bounded) : (offerRipe c).Bounded := by
  unfold offerRipe
  split
  · exact engine_bounded _ h
  · exact h

theorem rowArrived_bounded (row : List (BitVec 16)) {c : Chip} (h : c.Bounded) : (rowArrived row c).Bounded := by
  unfold rowArrived
  split
  · split
    case h_1 | h_2 => exact engine_bounded _ h
    all_goals exact h
  · exact h

theorem rowFetchAnswered_bounded (a : Access) (r : Option (List Byte)) {c : Chip} (h : c.Bounded) :
    (rowFetchAnswered a r c).Bounded := by
  have ended (row : Option (List (BitVec 16))) : (c.onTcu (Tcu.endFetch row)).Bounded :=
    h.onTcu _ (endFetch_cacheBounded row _ h.cache)
  cases r with
  | some b => exact rowArrived_bounded _ (ended _)
  | none => exact rowArrived_bounded _ ((ended none).keeps (by simp))

theorem refineAnswered_bounded (a : Access) (r : Option (List Byte)) {c : Chip} (h : c.Bounded) :
    (refineAnswered a r c).Bounded := by
  unfold refineAnswered
  split
  · split
    · exact engine_bounded _ h
    · exact h
  · exact h

/-! ## Declarations (R64 to R72) -/

/-- A declaration is made where fewer than eight requests wait. -/
theorem declare_bounded (s : Settings) (t v level : Nat) {c : Chip} (h : c.Bounded)
    (room : c.ccu.queue.length < queueSize) : (declare s t v level c).Bounded := by
  have joined := enqueue_bounded (declaredRequest s (nextRequestNumber c.ccu.requestCounter) t v level) h room
  exact offerRipe_bounded (joined.keeps (by simp))

/-- The request of the lowest level is one of the list. -/
theorem lowestRequest_mem (l : List Request) (r : Request) (lowest : lowestRequest l = some r) : r ∈ l := by
  induction l generalizing r with
  | nil => cases lowest
  | cons x rest ih =>
    rw [lowestRequest] at lowest
    split at lowest
    case h_1 => simp_all
    case h_2 w found =>
      split at lowest
      · simp_all
      · exact List.mem_cons_of_mem _ (ih r (found.trans (by simpa using lowest)))

/-- A full queue loses the request that gives way before the new one joins. -/
theorem declareFull_bounded (s : Settings) (t v level : Nat) {c : Chip} (h : c.Bounded) :
    (declareFull s t v level c).Bounded := by
  unfold declareFull
  split
  case h_1 r lowest =>
    have waits : r ∈ c.ccu.queue := (List.mem_filter.mp (lowestRequest_mem _ r lowest)).1
    exact declare_bounded s t v level ((finishWaiting_bounded .displaced r h).keeps (by simp))
      (Nat.lt_of_lt_of_le (finishWaiting_queue_lt .displaced r c waits) h.queue)
  case h_2 => exact h.keeps (by simp)

theorem declareCrossing_bounded (s : Settings) (t v level : Nat) {c : Chip} (h : c.Bounded) :
    (declareCrossing s t v level c).Bounded := by
  unfold declareCrossing
  split
  case isTrue room => exact declare_bounded s t v level h room
  case isFalse => exact declareFull_bounded s t v level h

/-- A merge changes requests, and not their number. -/
theorem mergeCrossing_bounded (g : CollapseTarget) (v level : Nat) {c : Chip} (h : c.Bounded) :
    (mergeCrossing g v level c).Bounded := by
  unfold mergeCrossing
  have merged := h.onCcu (fun u =>
    { u with queue := u.queue.map (mergeWaiting g.number v level), merges := countUp u.merges })
    (Nat.le_trans (Nat.le_of_eq (List.length_map _)) h.queue)
  exact merged.keeps (by simp)

theorem crossing_bounded (s : Settings) (t v : Nat) {c : Chip} (h : c.Bounded) : (crossing s t v c).Bounded := by
  unfold crossing
  split
  · split
    · exact mergeCrossing_bounded _ _ _ h
    · exact declareCrossing_bounded _ _ _ _ h
  · exact declareCrossing_bounded _ _ _ _ h

theorem takeTickNotice_bounded (n : TickNotice) {c : Chip} (h : c.Bounded) : (takeTickNotice n c).Bounded := by
  unfold takeTickNotice
  split
  case h_1 => exact h
  case h_2 s _ =>
    have crossed := crossing_bounded s n.tick (voteCount n.tick s.window c.chc.channels) h
    dsimp only
    split
    · exact crossed.keeps (by simp)
    · exact h.keeps (by simp)

/-! ## Settlement and the links (R28 to R38) -/

theorem settleTick_bounded (t : Nat) {c : Chip} (h : c.Bounded) : (settleTick t c).Bounded := by
  have noticed : (handTickNotice t (conditionTick t (tickSamples t c) c)).Bounded :=
    takeTickNotice_bounded _ (conditionTick_bounded t (tickSamples t c) h)
  unfold settleTick
  exact noticed.keeps (by simp)

theorem settleTicks_bounded (t n : Nat) {c : Chip} (h : c.Bounded) : (settleTicks t n c).Bounded := by
  induction n generalizing t c with
  | zero => exact h
  | succ n ih => exact ih _ (settleTick_bounded t h)

theorem settle_bounded (h0 h1 : Nat) {c : Chip} (h : c.Bounded) : (settle h0 h1 c).Bounded := by
  unfold settle
  exact offerRipe_bounded ((settleTicks_bounded h0 (h1 - h0) h).keeps (by simp))

theorem updateHorizon_bounded {c : Chip} (h : c.Bounded) : (updateHorizon c).Bounded := by
  unfold updateHorizon
  split
  · split
    · exact settle_bounded _ _ h
    · exact h
  · exact h
  · exact h.keeps (by simp)
  · exact h

theorem stallCheck_bounded {c : Chip} (h : c.Bounded) : (stallCheck c).Bounded :=
  updateHorizon_bounded (h.keeps (by simp))

theorem linkEvent_bounded (f : Chip → Chip) {c : Chip} (h : (f c).Bounded) : (linkEvent f c).Bounded :=
  h.keeps (by simp)

theorem fallBackHub_bounded (n : Nat) {c : Chip} (h : c.Bounded) : (fallBackHub n c).Bounded :=
  updateHorizon_bounded (h.keeps (by simp))

theorem fallBackIfDue_bounded (n : Nat) {c : Chip} (h : c.Bounded) : (fallBackIfDue n c).Bounded := by
  unfold fallBackIfDue
  split
  · exact fallBackHub_bounded n h
  · exact h

theorem takeGoodFrame_bounded (port : Nat) (b : List Byte) {c : Chip} (h : c.Bounded) :
    (takeGoodFrame port b c).Bounded := by
  unfold takeGoodFrame
  dsimp only
  split
  · exact stallCheck_bounded (h.keeps (by simp))
  · exact h.keeps (by simp)

theorem takeFrame_bounded (port : Nat) (b : List Byte) {c : Chip} (h : c.Bounded) : (takeFrame port b c).Bounded := by
  have due := fallBackIfDue_bounded port h
  unfold takeFrame
  dsimp only
  split
  case h_1 => exact takeGoodFrame_bounded port b due
  all_goals exact due.keeps (by simp)

theorem burstEnds_bounded (port : Nat) (line : List Bool) {c : Chip} (h : c.Bounded) :
    (burstEnds port line c).Bounded := by
  unfold burstEnds
  split
  · exact h
  · split
    · exact linkEvent_bounded _ (takeFrame_bounded port _ h)
    · exact h

theorem badLimitEvent_bounded (n : Nat) {c : Chip} (h : c.Bounded) : (badLimitEvent n c).Bounded := by
  unfold badLimitEvent
  split
  · exact linkEvent_bounded _ (fallBackHub_bounded n h)
  · exact h

theorem silenceEvent_bounded (n : Nat) {c : Chip} (h : c.Bounded) : (silenceEvent n c).Bounded := by
  unfold silenceEvent
  split
  · exact linkEvent_bounded _ (fallBackHub_bounded n h)
  · exact h

/-! ## Invalidations and reloads (R118 to R126) -/

theorem takeInval_bounded (o : InvalOrder) {c : Chip} (h : c.Bounded) : (takeInval o c).1.Bounded := by
  unfold takeInval
  split
  · exact h
  · split
    · exact runRowScope_bounded _ _ _ h
    · split
      · exact runRowScope_bounded _ _ _ h
      · split
        · split <;> exact runRowScope_bounded _ _ _ h
        · (repeat' split) <;> exact h.keeps (by simp)

theorem handInval_bounded (o : InvalOrder) {c : Chip} (h : c.Bounded) : (handInval o c).1.Bounded := by
  unfold handInval
  split
  · exact h.keeps (by simp)
  · exact takeInval_bounded o h

theorem takeWaiting_bounded (l : List InvalOrder) {c : Chip} (h : c.Bounded) : (takeWaiting l c).Bounded := by
  induction l generalizing c with
  | nil => exact Chip.Bounded.keeps (d := c.onTcu fun t => { t with waiting := [] }) h (by simp)
  | cons o rest ih =>
    have waiting : (c.onTcu fun t => { t with waiting := rest }).Bounded := h.keeps (by simp)
    have taken := takeInval_bounded o waiting
    unfold takeWaiting
    split
    all_goals
      rename_i report
      rw [report] at taken
    · exact ih (taken.keeps (by simp))
    · exact taken

theorem endReload_bounded (o : InvalOrder) (r : Option SlotResult) {c : Chip} (h : c.Bounded) :
    (endReload o r c).Bounded := by
  cases r with
  | some r => exact takeWaiting_bounded _ (h.keeps (by simp))
  | none => exact Chip.Bounded.keeps (d := c.onTcu fun t => { t with reload := none }) h (by simp)

theorem settleRowScope_bounded (o : InvalOrder) (numbers : List Nat) (r : SlotResult) {c : Chip} (h : c.Bounded) :
    (settleRowScope o numbers r c).1.Bounded := h.keeps (by simp)

theorem countInvalidation_bounded {c : Chip} (h : c.Bounded) : (countInvalidation c).Bounded := h.keeps (by simp)

theorem noteReloadRead_bounded (r : Option (List Byte)) {c : Chip} (h : c.Bounded) :
    (noteReloadRead r c).Bounded := h.keeps (by simp)

theorem performGriddefs_bounded (r : Reload) {c : Chip} (h : c.Bounded) : (performGriddefs r c).Bounded := by
  have loaded : (c.onTcu fun t => { t with grids := reloadedGrids r.got c.tcu.grids }).Bounded := h.keeps (by simp)
  exact endReload_bounded _ _
    (settleRowScope_bounded _ _ _ (countInvalidation_bounded (performRowScope_bounded _ loaded)))

theorem griddefsAnswered_bounded (a : Access) (r : Option (List Byte)) {c : Chip} (h : c.Bounded) :
    (griddefsAnswered a r c).Bounded := by
  unfold griddefsAnswered
  dsimp only
  split
  · exact performGriddefs_bounded _ (noteReloadRead_bounded r h)
  · exact noteReloadRead_bounded r h

theorem presentStations_bounded (n : Nat) (l : List (Option (List Byte))) {c : Chip} (h : c.Bounded) :
    (presentStations n l c).Bounded := by
  induction l generalizing n c with
  | nil => exact h
  | cons b l ih =>
    cases b with
    | none => exact ih (n + 1) h
    | some b => exact ih (n + 1) (reloadChannel_bounded n _ (h.keeps (by simp)))

theorem stationsAnswered_bounded (a : Access) (r : Option (List Byte)) {c : Chip} (h : c.Bounded) :
    (stationsAnswered a r c).Bounded := by
  unfold stationsAnswered performStations
  dsimp only
  split
  · exact endReload_bounded _ _
      (countInvalidation_bounded (presentStations_bounded _ _ (noteReloadRead_bounded r h)))
  · exact noteReloadRead_bounded r h

theorem adoptHubs_bounded (new : List (Option HubEntry)) {c : Chip} (h : c.Bounded) : (adoptHubs new c).Bounded :=
  updateHorizon_bounded (h.keeps (by simp))

theorem hubsAnswered_bounded (a : Access) (r : Option (List Byte)) {c : Chip} (h : c.Bounded) :
    (hubsAnswered a r c).Bounded := by
  unfold hubsAnswered performHubs
  dsimp only
  split
  · exact endReload_bounded _ _
      (countInvalidation_bounded (linkEvent_bounded _ (adoptHubs_bounded _ (noteReloadRead_bounded r h))))
  · exact noteReloadRead_bounded r h

theorem applyConfig_bounded (r : Option (List Byte)) {c : Chip} (h : c.Bounded) : (applyConfig r c).1.Bounded := by
  unfold applyConfig
  split
  · exact h
  · split
    · exact linkEvent_bounded _ (stallCheck_bounded (h.keeps (by simp)))
    · exact h

theorem configAnswered_bounded (a : Access) (r : Option (List Byte)) {c : Chip} (h : c.Bounded) :
    (configAnswered a r c).Bounded := by
  unfold configAnswered
  split
  · exact endReload_bounded _ _ (countInvalidation_bounded (applyConfig_bounded r h))
  · exact h

end Sys2Proof.Machine
end

section
/-! SUPPORT. The bounds through the orders, the bindings and the effects of the commands (R71, R113, R148, R157). -/

namespace Sys2Proof.Machine

/-! ## The orders (R132 to R142) -/

/-- An order is created where fewer than eight requests wait. -/
theorem takeScanOrder_bounded (slot : Nat) (seq : BitVec 8) (o : ScanOrder) {c : Chip} (h : c.Bounded) :
    (takeScanOrder slot seq o c).1.Bounded := by
  unfold takeScanOrder
  split
  case isTrue room => exact enqueue_bounded _ h room
  case isFalse => exact h

theorem dispatchScan_bounded (slot : Nat) (seq : BitVec 8) (o : ScanOrder) {c : Chip} (h : c.Bounded) :
    (dispatchScan slot seq o c).Bounded := by
  have taken := takeScanOrder_bounded slot seq o h
  unfold dispatchScan
  split
  · exact h.keeps (by simp)
  · split
    all_goals
      rename_i answer
      rw [answer] at taken
    · exact offerRipe_bounded (taken.keeps (by simp))
    · exact taken.keeps (by simp)

theorem dispatchInval_bounded (o : InvalOrder) {c : Chip} (h : c.Bounded) : (dispatchInval o c).Bounded := by
  have marked : (if o.drain && o.isRowScope then c.onOrd fun k => { k with drainPending := some (o.slot, o.seq) }
      else c).Bounded := by
    split
    · exact h.keeps (by simp)
    · exact h
  have handed := handInval_bounded o marked
  unfold dispatchInval
  dsimp only
  split
  all_goals
    rename_i report
    rw [report] at handed
    exact handed.keeps (by simp)

theorem selectIfIdle_bounded {c : Chip} (h : c.Bounded) : (selectIfIdle c).Bounded := by
  unfold selectIfIdle
  split
  · exact h
  · exact engine_bounded _ h

theorem cancelInService_bounded (slot : Nat) (seq : BitVec 8) (number bank : Nat) (sc : Scan) {c : Chip}
    (h : c.Bounded) : (cancelInService slot seq number bank sc c).Bounded := by
  have finished := finishScan_bounded bank sc .cancelled [] h
  unfold cancelInService
  split
  · exact h.keeps (by simp)
  · exact selectIfIdle_bounded (finished.keeps (by simp))

theorem dispatchCancel_bounded (slot : Nat) (seq : BitVec 8) (number : Nat) {c : Chip} (h : c.Bounded) :
    (dispatchCancel slot seq number c).Bounded := by
  unfold dispatchCancel cancelRequest
  split
  · exact h.keeps (by simp)
  · split
    case h_1 r _ => exact (finishWaiting_bounded .cancelled r h).keeps (by simp)
    case h_2 =>
      split
      · exact cancelInService_bounded _ _ _ _ _ h
      · exact h.keeps (by simp)

theorem dispatchMark_bounded (slot : Nat) (seq : BitVec 8) (tag : Word32) {c : Chip} (h : c.Bounded) :
    (dispatchMark slot seq tag c).Bounded := by
  have delivered := deliverMarker_bounded tag h
  unfold dispatchMark
  split
  all_goals
    rename_i answer
    rw [answer] at delivered
    exact delivered.keeps (by simp)

theorem dispatchOrder_bounded (slot : Nat) (b : List Byte) {c : Chip} (h : c.Bounded) :
    (dispatchOrder slot b c).Bounded := by
  unfold dispatchOrder
  dsimp only
  split
  · exact dispatchScan_bounded _ _ _ h
  · split
    · exact dispatchInval_bounded _ h
    · split
      · exact dispatchCancel_bounded _ _ _ h
      · split
        · exact dispatchMark_bounded _ _ _ h
        · split <;> exact h.keeps (by simp)

theorem judgeSlot_bounded (slot : Nat) (b : List Byte) {c : Chip} (h : c.Bounded) : (judgeSlot slot b c).Bounded := by
  unfold judgeSlot
  split
  · exact dispatchOrder_bounded slot b h
  · exact h.keeps (by simp)

theorem takeSlot_bounded (slot : Nat) (b : List Byte) (others : List (Nat × List Byte)) {c : Chip} (h : c.Bounded) :
    (takeSlot slot b others c).Bounded := by
  have answered : (writeDuplicates others c).Bounded := h.keeps (by simp)
  unfold takeSlot
  exact (judgeSlot_bounded slot b answered).keeps (by simp)

theorem takeRun_bounded (n : Nat) (slots : List (Option (List Byte))) {c : Chip} (h : c.Bounded) :
    (takeRun n slots c).Bounded := by
  induction n generalizing c with
  | zero => exact h
  | succ n ih =>
    unfold takeRun
    split
    case h_1 => exact h
    case h_2 slot b others _ =>
      have taken := takeSlot_bounded slot b others h
      dsimp only
      split
      · exact taken
      · exact ih taken

theorem runPoll_bounded (slots : List (Option (List Byte))) {c : Chip} (h : c.Bounded) : (runPoll slots c).Bounded := by
  have begun : (c.onOrd fun o => { o with takeRun := some [] }).Bounded := h.keeps (by simp)
  have taken := takeRun_bounded slotCount slots begun
  unfold runPoll
  exact taken.keeps (by simp)

theorem slotReadAnswered_bounded (a : Access) (r : Option (List Byte)) {c : Chip} (h : c.Bounded) :
    (slotReadAnswered a r c).Bounded := by
  unfold slotReadAnswered
  split
  · exact h
  · dsimp only
    split
    · exact h.keeps (by simp)
    · exact runPoll_bounded _ (h.keeps (by simp))

/-! ## Bindings (R9 to R13) -/

/-- With no stream no record is outstanding. -/
theorem StreamState.atReset_sound : StreamState.atReset.sound := Nat.zero_le _

/-- A binding that fails empties the cache and forgets the streams. -/
theorem failBinding_bounded (result : BindResult) {c : Chip} (h : c.Bounded) : (failBinding result c).Bounded :=
  ⟨h.queue, Nat.zero_le _, h.pending, StreamState.atReset_sound, StreamState.atReset_sound⟩

/-- A valid layout gives totals that do not exceed the slot counts (R11, check 5). -/
theorem layoutValid_totals (w : Windows) (l : Layout) (p e : DirectoryStream) (valid : layoutValid w l p e = true) :
    (adoptStream p).sound ∧ (adoptStream e).sound := by
  obtain ⟨-, totals⟩ := Bool.and_eq_true_iff.mp valid
  obtain ⟨picks, events⟩ := Bool.and_eq_true_iff.mp totals
  exact ⟨of_decide_eq_true picks, of_decide_eq_true events⟩

/-- The streams are adopted once the layout has been found valid. -/
theorem judgeDirectory_bounded (b : List Byte) {c : Chip} (h : c.Bounded) : (judgeDirectory b c).Bounded := by
  have copied : (copyWindows b c).Bounded := h.keeps (by simp)
  unfold judgeDirectory
  split
  · exact failBinding_bounded _ h
  · dsimp only
    split
    case isTrue valid =>
      obtain ⟨picks, events⟩ := layoutValid_totals _ _ _ _ valid
      have adopted : (adoptDirectory b (copyWindows b c)).Bounded :=
        ⟨copied.queue, copied.cache, copied.pending, picks, events⟩
      exact adopted.keeps (by simp)
    case isFalse => exact failBinding_bounded _ copied

theorem directoryAnswered_bounded (a : Access) (r : Option (List Byte)) {c : Chip} (h : c.Bounded) :
    (directoryAnswered a r c).Bounded := by
  cases r with
  | none => exact failBinding_bounded _ h
  | some b => exact judgeDirectory_bounded b h

theorem loadGrid_bounded (g : Nat) (b : List Byte) {c : Chip} (h : c.Bounded) : (loadGrid g b c).Bounded := by
  unfold loadGrid
  dsimp only
  split
  · exact h.keeps (by simp)
  · split
    · exact h.keeps (by simp)
    · exact failBinding_bounded _ (h.keeps (by simp))

theorem bindTableAnswered_bounded (a : Access) (r : Option (List Byte)) {c : Chip} (h : c.Bounded) :
    (bindTableAnswered a r c).Bounded := by
  unfold bindTableAnswered
  split
  · exact failBinding_bounded _ h
  · split
    case h_2 g _ => exact loadGrid_bounded g _ h
    case h_5 => exact h
    all_goals exact h.keeps (by simp)

/-! ## The end of an access (R170, R171, R175) -/

/-- Each block's handling of an answer keeps the bounds. -/
theorem handlerOf_bounded (p : Purpose) (a : Access) (r : Option (List Byte)) {c : Chip} (h : c.Bounded) :
    (handlerOf p a r c).Bounded := by
  cases p with
  | directory => exact directoryAnswered_bounded a r h
  | bindSettings | bindGrid | bindHub | bindStation => exact bindTableAnswered_bounded a r h
  | row => exact rowFetchAnswered_bounded a r h
  | refine => exact refineAnswered_bounded a r h
  | reloadGrid _ last =>
    cases last with
    | true => exact griddefsAnswered_bounded a r h
    | false => exact noteReloadRead_bounded r h
  | reloadStation _ last =>
    cases last with
    | true => exact stationsAnswered_bounded a r h
    | false => exact noteReloadRead_bounded r h
  | reloadHub _ last =>
    cases last with
    | true => exact hubsAnswered_bounded a r h
    | false => exact noteReloadRead_bounded r h
  | reloadConfig => exact configAnswered_bounded a r h
  | slotRead => exact slotReadAnswered_bounded a r h
  | slotResult | slotState => exact h.keeps (d := slotWriteAnswered a r c) (by simp)
  | returnBlock => exact returnBlockAnswered_bounded a r h
  | record => exact recordAnswered_bounded a r h
  | progressFirst | progressMiddle => exact h
  | progressLast => exact progressAnswered_bounded a r h
  | rawState => exact h.keeps (d := rawStateAnswered a r c) (by simp)
  | rawHeader | rawTick => exact h.keeps (d := rawHalfAnswered a r c) (by simp)
  | rawFull => exact h.keeps (d := rawFullAnswered a r c) (by simp)

/-- The entry to FAULTED empties the queue and the pending records, and keeps the cache and the streams. -/
theorem enterFaulted_bounded (hs : HaltSource) {c : Chip} (h : c.Bounded) : (enterFaulted hs c).Bounded :=
  ⟨Nat.zero_le _, h.cache, Nat.zero_le _, h.pick, h.event⟩

theorem concludeStep_bounded {c : Chip} (h : c.Bounded) : (concludeStep c).Bounded := h.keeps (by simp)

theorem accessFails_bounded (p : Purpose) (a : Access) {c : Chip} (h : c.Bounded) :
    (accessFails (handlerOf p) a c).Bounded := by
  unfold accessFails
  split
  · exact enterFaulted_bounded _ (h.keeps (by simp))
  · exact handlerOf_bounded p a none (h.keeps (by simp))

theorem accessEnds_bounded (p : Purpose) (a : Access) (r : Option (List Byte)) {c : Chip} (h : c.Bounded) :
    (accessEnds (handlerOf p) a r c).Bounded := by
  have freed : (freeBus c).Bounded := h.keeps (by simp)
  refine concludeStep_bounded ?_
  unfold accessResult
  split
  · split
    · exact freed
    · exact handlerOf_bounded p a _ freed
  · split
    · exact freed.keeps (by simp)
    · exact accessFails_bounded p a freed

/-! ## The effects of the commands -/

/-- A part just reset or bound holds nothing. -/
theorem bindState_bounded (auto : Bool) (c : Chip) : (bindState auto c).Bounded :=
  ⟨Nat.zero_le _, Nat.zero_le _, Nat.zero_le _, StreamState.atReset_sound, StreamState.atReset_sound⟩

theorem startBinding_bounded (auto : Bool) (c : Chip) : (startBinding auto c).Bounded := by
  have bound := bindState_bounded auto c
  unfold startBinding
  exact bound.keeps (by simp)

theorem releaseReset_bounded (auto : Bool) (dirsel : BitVec 2) (c : Chip) : (releaseReset auto dirsel c).Bounded := by
  cases auto with
  | true => exact startBinding_bounded true _
  | false =>
    exact ⟨Nat.zero_le _, Nat.zero_le _, Nat.zero_le _, StreamState.atReset_sound, StreamState.atReset_sound⟩

theorem bindEffect_bounded (c : Chip) : (bindEffect c).Bounded := setCause_bounded _ (startBinding_bounded false c)

/-- STOP finishes every waiting request. -/
theorem stopEffect_bounded {c : Chip} (h : c.Bounded) : (stopEffect c).Bounded := by
  have halted : (haltDetection c).Bounded := finishWaitingAll_bounded _ _ (linkEvent_bounded _ (h.keeps (by simp)))
  rw [stopEffect_eq]
  exact halted.keeps (by simp)

/-- The event of every command keeps the bounds. -/
theorem eventEffect_bounded (i : Instr) {c : Chip} (h : c.Bounded) : (eventEffect i c).Bounded := by
  have written (f : Chip → Chip) (effect : (f c).Bounded) : (if c.rgp.resetHeld then c else f c).Bounded := by
    split <;> assumption
  have control (code : BitVec 8) (valid : Chip → Bool) (effect : Chip → Chip)
      (keeps : ∀ d : Chip, d.Bounded → (effect d).Bounded) : (controlCommand code valid effect c).Bounded := by
    unfold controlCommand
    split
    · exact keeps _ (h.keeps (by simp))
    · exact h.keeps (by simp)
  cases i with
  | powerOnReset auto dirsel => exact releaseReset_bounded auto dirsel c
  | reset auto dirsel => exact written _ (releaseReset_bounded auto dirsel c)
  | bind => exact written _ (control _ _ _ fun d _ => bindEffect_bounded d)
  | listen => exact written _ (control _ _ _ fun d hd => hd.keeps (by simp))
  | stop => exact written _ (control _ _ _ fun d hd => stopEffect_bounded hd)
  | nudge => exact written _ (control _ _ _ fun d hd => hd.keeps (by simp))
  | refusedCode value => exact written (noteControl (value.setWidth 8) .refusedCode) (h.keeps (by simp))
  | causeWrite value =>
    exact written (Chip.onRgp fun r => { r with cause := r.cause &&& ~~~(value.setWidth 8) }) (h.keeps (by simp))
  | maskWrite value => exact written (Chip.onRgp fun r => { r with mask := value.setWidth 8 }) (h.keeps (by simp))
  | dirbaseWrite hi value => exact written (writeDirbase hi value) (h.keeps (by simp))
  | hubFrameArrival port line => exact burstEnds_bounded port.val line h
  | badFrameLimit hub => exact badLimitEvent_bounded hub.val h
  | silenceTimerExpiry hub => exact silenceEvent_bounded hub.val h
  | cfReadAnswer =>
    exact engineOn_induct Chip.Bounded engineAction_bounded _ (h.keeps (d := (cfAnswered c).1) (by simp))
  | pollTimerExpiry => exact h.keeps (d := pollTimerEvent c) (by simp)
  | noticeCountReached stream => exact takeNotice_bounded stream h
  | powerOnResetHold =>
    exact ⟨Nat.zero_le _, Nat.zero_le _, Nat.zero_le _, StreamState.atReset_sound, StreamState.atReset_sound⟩
  | _ => exact h

/-- Every command that answers a next state keeps the bounds. -/
theorem exec_bounded (i : Instr) {c d : Chip} {q r : List Instr} (h : c.Bounded)
    (next : exec i ⟨c, q⟩ = .next ⟨d, r⟩) : d.Bounded := by
  have form : CommandForm i c q (.next ⟨d, r⟩) := next ▸ exec_form i c q
  cases form with
  | ignored => exact h
  | event => exact concludeStep_bounded (eventEffect_bounded i h)
  | answered a r _ => exact accessEnds_bounded _ a r h

end Sys2Proof.Machine
end

section
/-! PROOFS. The statement that a step keeps the bounds of the queues and the streams (R71, R113, R148, R157). -/

namespace Sys2Proof.Machine

/-- Settles O58: the bounds together are kept by every command, and an empty queue leaves the part as it is. -/
theorem queuesAndStreamsStayBounded : Obligations.QueuesAndStreamsStayBounded := by
  rintro ⟨c, pending⟩ ⟨d, rest⟩ bounds next
  have h : c.Bounded := c.bounded_iff.mpr bounds
  refine d.bounded_iff.mp ?_
  cases pending with
  | nil =>
    cases next
    exact h
  | cons i q => exact exec_bounded i h next

end Sys2Proof.Machine
end

section
/-! SUPPORT. The level of a vote count (R65), the start of a declaration's span (R68), and the candidates of a selection
(R70, R82, R84). -/

namespace Sys2Proof.Machine

/-! ## The level of a crossing (R65) -/

/-- The row of the level table that a vote count of at least Nmin falls in. -/
theorem levelOf_row (s : Settings) (v : Nat) (crosses : s.nmin ≤ v) :
    (levelOf s v = 0 ∧ s.n0 ≤ v) ∨ (levelOf s v = 1 ∧ s.n1 ≤ v ∧ v < s.n0) ∨
      (levelOf s v = 2 ∧ s.n2 ≤ v ∧ v < s.n1 ∧ v < s.n0) ∨
      (levelOf s v = 3 ∧ s.nmin ≤ v ∧ v < s.n2 ∧ v < s.n1 ∧ v < s.n0) := by
  unfold levelOf
  split
  case isTrue => omega
  case isFalse =>
    split
    case isTrue => omega
    case isFalse => split <;> omega

/-! ## The start of a declaration's span (R68) -/

/-- A reference tick of at least the back settings: the span starts at their difference. -/
theorem spanStart_of_le {refTick back : Nat} (step : Nat) (h : back ≤ refTick) :
    spanStart refTick back step = refTick - back := if_pos h

/-- A reference tick before the back settings: the span starts at the residue of their difference by the step. -/
theorem spanStart_of_lt {refTick back step : Nat} (h : refTick < back) (positive : 1 ≤ step) :
    (spanStart refTick back step : Int) = ((refTick : Int) - back) % step := by
  have below : (back - refTick) % step ≤ step := Nat.le_of_lt (Nat.mod_lt _ positive)
  have late : ((back - refTick : Nat) : Int) = back - refTick := Int.ofNat_sub (Nat.le_of_lt h)
  rw [spanStart, if_neg (Nat.not_le.mpr h), Int.natCast_emod, Int.ofNat_sub below, Int.natCast_emod, late]
  rw [Int.sub_emod_emod, Int.sub_eq_add_neg, Int.add_emod_left, Int.neg_sub]

/-- Every start is an origin time of the declaration. -/
theorem spanStart_form (refTick back step : Nat) (positive : 1 ≤ step) :
    ∃ k : Nat, (spanStart refTick back step : Int) = refTick - back + k * step := by
  rcases Nat.lt_or_ge refTick back with late | early
  case inr =>
    refine ⟨0, ?_⟩
    rw [spanStart_of_le step early, Int.ofNat_sub early, Int.natCast_zero, Int.zero_mul, Int.add_zero]
  case inl =>
    have negative : ((refTick : Int) - back) / step < 0 := Int.ediv_neg_of_neg_of_pos (by omega) (by omega)
    refine ⟨(-(((refTick : Int) - back) / step)).toNat, ?_⟩
    rw [spanStart_of_lt late positive, Int.toNat_of_nonneg (by omega), Int.emod_def,
      Int.neg_mul, ← Int.sub_eq_add_neg, Int.mul_comm]

/-- No origin time from tick 0 on is before the start. -/
theorem spanStart_le (refTick back step k : Nat) (positive : 1 ≤ step)
    (started : 0 ≤ (refTick : Int) - back + k * step) :
    (spanStart refTick back step : Int) ≤ refTick - back + k * step := by
  rcases Nat.lt_or_ge refTick back with late | early
  case inr =>
    rw [spanStart_of_le step early, Int.ofNat_sub early]
    exact Int.le_add_of_nonneg_right (Int.mul_nonneg (Int.natCast_nonneg k) (Int.natCast_nonneg step))
  case inl =>
    rw [spanStart_of_lt late positive, ← Int.add_mul_emod_self_right _ k step]
    rw [Int.emod_def]
    exact Int.sub_le_self _ (Int.mul_nonneg (by omega) (Int.ediv_nonneg started (by omega)))

/-! ## Candidates (R70, R82) -/

/-- A level is held when a bank in service holds it. -/
theorem inServiceLevels_contains (banks : List (Option Scan)) (level : Nat) :
    (inServiceLevels banks).contains level = true ↔ ∃ sc, some sc ∈ banks ∧ sc.request.level = level := by
  rw [List.contains_iff_mem, inServiceLevels, List.mem_filterMap]
  simp only [Option.map_eq_some_iff]
  exact ⟨fun ⟨_, listed, sc, bank, same⟩ => ⟨sc, bank ▸ listed, same⟩,
    fun ⟨sc, listed, same⟩ => ⟨some sc, listed, sc, rfl, same⟩⟩

/-- A level is free when no bank in service holds it. -/
theorem inServiceLevels_contains_eq_false (banks : List (Option Scan)) (level : Nat) :
    (inServiceLevels banks).contains level = false ↔ ∀ sc, some sc ∈ banks → sc.request.level ≠ level := by
  rw [← Bool.not_eq_true, inServiceLevels_contains]
  exact ⟨fun h sc listed same => h ⟨sc, listed, same⟩, fun h ⟨sc, listed, same⟩ => h sc listed same⟩

theorem Request.ripe_iff (horizon : Option Nat) (r : Request) :
    r.ripe horizon = true ↔ ∃ h, horizon = some h ∧ r.refTick + r.settleLag < h := by
  cases horizon <;> simp [Request.ripe]

theorem eligible_iff (c : Chip) (r : Request) :
    eligible c r = true ↔ (∃ h, c.lki.horizon = some h ∧ r.refTick + r.settleLag < h) ∧
      ∀ sc, some sc ∈ c.sce.banks → sc.request.level ≠ r.level := by
  rw [eligible, Bool.and_eq_true_iff, Request.ripe_iff, Bool.not_eq_true', inServiceLevels_contains_eq_false]

/-! ## The first request of the highest level (R84) -/

theorem highestRequest_eq_none (l : List Request) : highestRequest l = none ↔ l = [] := by
  cases l with
  | nil => exact iff_of_true rfl rfl
  | cons r rest =>
    rw [highestRequest]
    split
    · simp
    · split <;> simp

/-- A request stands first of the highest level among those of a list that satisfy a condition: higher than those
before it, no lower than those after it. -/
def FirstHighest (p : Request → Bool) (r : Request) (l : List Request) : Prop :=
  ∃ before after, l = before ++ r :: after ∧ p r = true ∧ (∀ x ∈ before, p x = true → r.level < x.level) ∧
    ∀ x ∈ after, p x = true → r.level ≤ x.level

/-- The highest of a list is no lower than any that satisfies the condition. -/
theorem FirstHighest.le {p : Request → Bool} {r : Request} {l : List Request} (h : FirstHighest p r l) (x : Request)
    (listed : x ∈ l) (candidate : p x = true) : r.level ≤ x.level := by
  obtain ⟨before, after, rfl, -, first, rest⟩ := h
  rcases List.mem_append.mp listed with earlier | later
  · exact Nat.le_of_lt (first x earlier candidate)
  · rcases List.mem_cons.mp later with rfl | later
    · exact Nat.le_refl _
    · exact rest x later candidate

/-- A request before that is lower, or no candidate, leaves the highest. -/
theorem FirstHighest.cons {p : Request → Bool} {r : Request} {l : List Request} (h : FirstHighest p r l) (x : Request)
    (lower : p x = true → r.level < x.level) : FirstHighest p r (x :: l) := by
  obtain ⟨before, after, rfl, candidate, first, rest⟩ := h
  exact ⟨x :: before, after, rfl, candidate, List.forall_mem_cons.mpr ⟨lower, first⟩, rest⟩

/-- A candidate before that none of the others is higher than is the highest. -/
theorem FirstHighest.head {p : Request → Bool} {x : Request} {l : List Request} (candidate : p x = true)
    (highest : ∀ y ∈ l, p y = true → x.level ≤ y.level) : FirstHighest p x (x :: l) :=
  ⟨[], l, rfl, candidate, by simp, highest⟩

/-- The search finds the first candidate of the highest level. -/
theorem highestRequest_filter (p : Request → Bool) (r : Request) (l : List Request)
    (found : highestRequest (l.filter p) = some r) : FirstHighest p r l := by
  induction l generalizing r with
  | nil => cases found
  | cons x rest ih =>
    rw [List.filter_cons] at found
    split at found
    case isFalse no => exact (ih r found).cons x fun candidate => absurd candidate no
    case isTrue candidate =>
      rw [highestRequest] at found
      split at found
      case h_1 none =>
        obtain rfl : x = r := Option.some.inj found
        have alone : ∀ y ∈ rest, ¬ p y = true := List.filter_eq_nil_iff.mp ((highestRequest_eq_none _).mp none)
        exact .head candidate fun y listed other => absurd other (alone y listed)
      case h_2 w best =>
        have highest := ih w best
        split at found
        case isTrue lower =>
          obtain rfl : w = r := Option.some.inj found
          exact highest.cons x fun _ => lower
        case isFalse notLower =>
          obtain rfl : x = r := Option.some.inj found
          exact .head candidate fun y listed other => Nat.le_trans (Nat.not_lt.mp notLower) (highest.le y listed other)

/-! ## The highest PARKED bank (R84) -/

/-- Every bank of a list that is in service is RUNNING. -/
def NoneParked (banks : List (Option Scan)) : Prop := ∀ sc, some sc ∈ banks → sc.running = true

/-- No PARKED bank of a list is higher than a level. -/
def ParkedFrom (level : Nat) (banks : List (Option Scan)) : Prop :=
  ∀ sc, some sc ∈ banks → sc.running = false → level ≤ sc.request.level

theorem noneParked_cons_some (sc : Scan) (rest : List (Option Scan)) :
    NoneParked (some sc :: rest) ↔ sc.running = true ∧ NoneParked rest := by
  simp [NoneParked, or_imp, forall_and]

theorem parkedFrom_cons_some (level : Nat) (sc : Scan) (rest : List (Option Scan)) :
    ParkedFrom level (some sc :: rest) ↔
      (sc.running = false → level ≤ sc.request.level) ∧ ParkedFrom level rest := by
  simp [ParkedFrom, or_imp, forall_and]

/-- The search finds no bank exactly when none is PARKED. -/
theorem highestParked_eq_none (i : Nat) (banks : List (Option Scan)) :
    highestParked i banks = none ↔ NoneParked banks := by
  induction banks generalizing i with
  | nil => simp [highestParked, NoneParked]
  | cons b rest ih =>
    cases b with
    | none => simpa [highestParked, NoneParked] using ih (i + 1)
    | some sc =>
      rw [noneParked_cons_some, ← ih (i + 1), highestParked]
      split
      case h_1 none => cases sc.running <;> simp [none]
      case h_2 best => rw [best]; split <;> simp

theorem ParkedFrom.mono {low high : Nat} {banks : List (Option Scan)} (h : ParkedFrom high banks) (le : low ≤ high) :
    ParkedFrom low banks := fun sc listed parked => Nat.le_trans le (h sc listed parked)

theorem NoneParked.parkedFrom {banks : List (Option Scan)} (h : NoneParked banks) (level : Nat) :
    ParkedFrom level banks := fun sc listed parked => absurd (h sc listed) (by simp [parked])

/-- The search finds a PARKED bank that no PARKED bank is higher than. -/
theorem highestParked_eq_some (i j : Nat) (w : Scan) (banks : List (Option Scan))
    (found : highestParked i banks = some (j, w)) :
    (∃ n, j = i + n ∧ banks[n]? = some (some w)) ∧ w.running = false ∧ ParkedFrom w.request.level banks := by
  induction banks generalizing i j w with
  | nil => cases found
  | cons b rest ih =>
    cases b with
    | none =>
      obtain ⟨⟨n, rfl, at_n⟩, parked, highest⟩ := ih (i + 1) j w found
      exact ⟨⟨n + 1, by omega, at_n⟩, parked, by simpa [ParkedFrom] using highest⟩
    | some sc =>
      simp only [parkedFrom_cons_some]
      rw [highestParked] at found
      split at found
      case h_1 none =>
        split at found
        case isTrue => cases found
        case isFalse parked =>
          cases found
          have rest := ((highestParked_eq_none (i + 1) rest).mp none).parkedFrom w.request.level
          exact ⟨⟨0, rfl, rfl⟩, by simpa using parked, fun _ => Nat.le_refl _, rest⟩
      case h_2 k best found_best =>
        obtain ⟨⟨n, rfl, at_n⟩, parked, highest⟩ := ih (i + 1) k best found_best
        split at found
        case isTrue kept =>
          cases found
          have lower : sc.running = false → w.request.level ≤ sc.request.level := by
            intro stopped
            simp only [stopped, Bool.false_or, decide_eq_true_eq] at kept
            exact Nat.le_of_lt kept
          exact ⟨⟨n + 1, by omega, at_n⟩, parked, lower, highest⟩
        case isFalse taken =>
          cases found
          obtain ⟨stopped, notLower⟩ : w.running = false ∧ w.request.level ≤ best.request.level := by
            simpa using taken
          exact ⟨⟨0, rfl, rfl⟩, stopped, fun _ => Nat.le_refl _, highest.mono notLower⟩

/-! ## The winner of a selection (R84) -/

/-- A selection finds no winner exactly when no bank is PARKED and no waiting request is eligible. -/
theorem selectWinner_eq_none (c : Chip) :
    selectWinner c = none ↔ NoneParked c.sce.banks ∧ ∀ r ∈ c.ccu.queue, eligible c r = false := by
  have noRequest : highestRequest (c.ccu.queue.filter (eligible c)) = none ↔
      ∀ r ∈ c.ccu.queue, eligible c r = false := by simp [highestRequest_eq_none]
  rw [← highestParked_eq_none 0, ← noRequest, selectWinner]
  split
  case h_1 bank request => simp only [bank, request]; split <;> simp
  case h_2 bank request => simp [bank]
  case h_3 bank request => simp [request]
  case h_4 bank request => simp [bank, request]

/-- A bank that wins is the highest PARKED bank, and no eligible request is higher. -/
theorem selectWinner_eq_parked (c : Chip) (i : Nat) (sc : Scan) (h : selectWinner c = some (.parked i sc)) :
    highestParked 0 c.sce.banks = some (i, sc) ∧
      ∀ r ∈ c.ccu.queue, eligible c r = true → sc.request.level ≤ r.level := by
  rw [selectWinner] at h
  split at h
  case h_1 j w r bank request =>
    split at h
    case isTrue => cases h
    case isFalse notLower =>
      cases h
      have highest := highestRequest_filter (eligible c) r _ request
      exact ⟨bank, fun x listed candidate => Nat.le_trans (Nat.not_lt.mp notLower) (highest.le x listed candidate)⟩
  case h_2 j w bank request =>
    cases h
    have alone := List.filter_eq_nil_iff.mp ((highestRequest_eq_none _).mp request)
    exact ⟨bank, fun x listed candidate => absurd candidate (alone x listed)⟩
  case h_3 => cases h
  case h_4 => cases h

/-- A request that wins is the first highest eligible one, and every PARKED bank is lower. -/
theorem selectWinner_eq_waiting (c : Chip) (r : Request) (h : selectWinner c = some (.waiting r)) :
    FirstHighest (eligible c) r c.ccu.queue ∧ ParkedFrom (r.level + 1) c.sce.banks := by
  rw [selectWinner] at h
  split at h
  case h_1 j w x bank request =>
    split at h
    case isTrue lower =>
      cases h
      obtain ⟨-, -, highest⟩ := highestParked_eq_some 0 j w _ bank
      exact ⟨highestRequest_filter _ r _ request, highest.mono lower⟩
    case isFalse => cases h
  case h_2 => cases h
  case h_3 x bank request =>
    cases h
    exact ⟨highestRequest_filter _ r _ request, ((highestParked_eq_none 0 _).mp bank).parkedFrom _⟩
  case h_4 => cases h

end Sys2Proof.Machine
end

section
/-! PROOFS. The statements about the level of a crossing, the start of a declared span and the selection (R65, R68, R70,
R82, R84). -/

namespace Sys2Proof.Machine

/-- Settles O28: the rows of the level table exclude each other under the order of the thresholds. -/
theorem levelOfACrossing : Obligations.LevelOfACrossing := by
  intro s v h2 h1 h0 crosses
  have row := levelOf_row s v crosses
  omega

/-- Settles O30: before tick 0 the start is the residue by the step, the least origin time that is not below 0. -/
theorem declaredSpanStartsAtTickZeroOrLater : Obligations.DeclaredSpanStartsAtTickZeroOrLater := by
  intro refTick back step positive
  refine ⟨spanStart_form refTick back step positive, spanStart_of_le step, fun late => ?_,
    fun k => spanStart_le refTick back step k positive⟩
  have residue := spanStart_of_lt late positive
  have below := Int.emod_lt_of_pos ((refTick : Int) - back) (Int.natCast_pos.mpr positive)
  omega

/-- Settles O34: the searches of the banks and of the queue find the highest of each, and the selection compares the
two. -/
theorem selectionTakesTheHighestLevel : Obligations.SelectionTakesTheHighestLevel := by
  intro c
  refine ⟨selectWinner_eq_none c, fun bank sc h => ?_, fun r h => ?_, eligible_iff c⟩
  · obtain ⟨found, requests⟩ := selectWinner_eq_parked c bank sc h
    obtain ⟨⟨n, rfl, at_n⟩, parked, highest⟩ := highestParked_eq_some 0 bank sc _ found
    exact ⟨by simpa using at_n, parked, highest, requests⟩
  · obtain ⟨first, banks⟩ := selectWinner_eq_waiting c r h
    exact ⟨banks, first⟩

end Sys2Proof.Machine
end

section
/-! SUPPORT. The counters of CCU through a declaration (R64 to R72): the scan engine, which a declaration wakes, takes
requests out of the queue and clears the collapse target, and changes nothing else of CCU. -/

namespace Sys2Proof.Machine

/-! ## CCU through the scan engine -/

/-- CCU without its queue and its collapse target: the previous count and the counters. -/
def Ccu.counts (u : Ccu) : Ccu := { u with queue := [], target := none }

/-- Two CCUs of the same counts agree in each of them. -/
theorem Ccu.eq_of_counts {u w : Ccu} (same : u.counts = w.counts) :
    u.merges = w.merges ∧ u.declarations = w.declarations ∧ u.lost = w.lost ∧ u.displaced = w.displaced ∧
      u.requestCounter = w.requestCounter :=
  ⟨(congrArg Ccu.merges same :), (congrArg Ccu.declarations same :), (congrArg Ccu.lost same :),
    (congrArg Ccu.displaced same :), (congrArg Ccu.requestCounter same :)⟩

@[simp] theorem clearTarget_counts (number : Nat) (c : Chip) :
    (clearTarget number c).ccu.counts = c.ccu.counts := by
  simp only [clearTarget, Chip.onCcu_ccu]
  split <;> rfl

@[simp] theorem takeRequest_counts (number : Nat) (c : Chip) :
    (takeRequest number c).ccu.counts = c.ccu.counts := rfl

@[simp] theorem enqueue_counts (r : Request) (c : Chip) :
    (enqueue r c).ccu.counts = { c.ccu with requestCounter := r.number }.counts := rfl

@[simp] theorem finishWaiting_counts (o : ScanOutcome) (r : Request) (c : Chip) :
    (finishWaiting o r c).ccu.counts = c.ccu.counts := by
  rw [finishWaiting_ccu]
  rfl

@[simp] theorem finishScan_counts (bank : Nat) (sc : Scan) (o : ScanOutcome) (arrivals : List Arrival) (c : Chip) :
    (finishScan bank sc o arrivals c).ccu.counts = c.ccu.counts := by
  simp [finishScan]

@[simp] theorem startScan_counts (r : Request) (c : Chip) : (startScan r c).1.ccu.counts = c.ccu.counts := by
  unfold startScan
  dsimp only [finishAtOnce]
  split
  · rfl
  · split
    · simp
    · split
      · simp
      · split <;> simp

@[simp] theorem selectAction_counts (c : Chip) : (selectAction c).1.ccu.counts = c.ccu.counts := by
  unfold selectAction
  split
  · rfl
  · split
    · rfl
    · unfold resumeScan
      dsimp only [finishAtOnce]
      split <;> simp
    · exact startScan_counts _ c

/-- An action of the RUNNING scan finishes it, or leaves CCU alone. -/
theorem scanAction_counts (task : EngineTask) (bank : Nat) (sc : Scan) (c : Chip) :
    (scanAction task bank sc c).1.ccu.counts = c.ccu.counts := by
  cases task with
  | select => rfl
  | boundary =>
    simp only [scanAction, boundaryAction]
    split
    · exact finishScan_counts _ _ _ _ c
    · split <;> simp
  | arrival o =>
    simp only [scanAction, arrivalAction]
    split <;> simp
  | conclude o arrivals =>
    simp only [scanAction, concludeAction]
    split <;> exact finishScan_counts _ _ _ _ c
  | node | rowIn | nodeEnd | stageEnd | refined | listRow => simp [scanAction]

theorem engineAction_counts (task : EngineTask) (c : Chip) :
    (engineAction task c).1.ccu.counts = c.ccu.counts := by
  unfold engineAction
  split
  · exact selectAction_counts c
  · split
    · exact scanAction_counts _ _ _ c
    · rfl

@[simp] theorem engine_counts (task : EngineTask) (c : Chip) : (engine task c).ccu.counts = c.ccu.counts :=
  engine_induct (fun d => d.ccu.counts = c.ccu.counts) (fun t d h => (engineAction_counts t d).trans h) task c rfl

@[simp] theorem offerRipe_counts (c : Chip) : (offerRipe c).ccu.counts = c.ccu.counts := by
  unfold offerRipe
  split
  · exact engine_counts _ c
  · rfl

/-! ## A merge (R66, R67) -/

/-- A merge changes the votes and the level of a request, and not its number. -/
@[simp] theorem mergeWaiting_number (number v level : Nat) (r : Request) :
    (mergeWaiting number v level r).number = r.number := by
  unfold mergeWaiting
  split <;> rfl

/-- CCU after a merge. -/
theorem mergeCrossing_ccu (g : CollapseTarget) (v level : Nat) (c : Chip) :
    (mergeCrossing g v level c).ccu = { c.ccu with
      queue := c.ccu.queue.map (mergeWaiting g.number v level), merges := countUp c.ccu.merges } := rfl

/-- The requests that wait keep their numbers through a merge. -/
theorem mergeCrossing_numbers (g : CollapseTarget) (v level : Nat) (c : Chip) :
    (mergeCrossing g v level c).ccu.queue.map Request.number = c.ccu.queue.map Request.number := by
  rw [mergeCrossing_ccu, List.map_map]
  exact List.map_congr_left fun r _ => mergeWaiting_number _ _ _ r

/-! ## A declaration (R64, R68, R69, R72) -/

/-- A declaration counts itself and its number. -/
theorem declare_counts (s : Settings) (t v level : Nat) (c : Chip) :
    (declare s t v level c).ccu.counts = { c.ccu with
      requestCounter := nextRequestNumber c.ccu.requestCounter
      declarations := countUp c.ccu.declarations }.counts := by
  rw [declare, offerRipe_counts]
  rfl

theorem displaceable_iff (level : Nat) (r : Request) :
    displaceable level r = true ↔ r.order = none ∧ level < r.level := by
  simp [displaceable]

theorem lowestRequest_eq_none (l : List Request) : lowestRequest l = none ↔ l = [] := by
  cases l with
  | nil => exact iff_of_true rfl rfl
  | cons r rest =>
    rw [lowestRequest]
    split
    · simp
    · split <;> simp

/-- Some waiting request that gives way: a declaration in its place, and the displacement counted. -/
theorem declareFull_displaces (s : Settings) (t v level : Nat) (c : Chip)
    (gives : ∃ r ∈ c.ccu.queue, displaceable level r = true) :
    (declareFull s t v level c).ccu.counts = { c.ccu with
      requestCounter := nextRequestNumber c.ccu.requestCounter
      declarations := countUp c.ccu.declarations
      displaced := countUp c.ccu.displaced }.counts := by
  obtain ⟨r, waits, gives⟩ := gives
  unfold declareFull
  split
  case h_1 w lowest =>
    rw [declare_counts, Chip.onCcu_ccu, finishWaiting_ccu]
    rfl
  case h_2 empty => exact absurd gives (List.filter_eq_nil_iff.mp ((lowestRequest_eq_none _).mp empty) r waits)

/-- No waiting request that gives way: the declaration is lost, and nothing else changes. -/
theorem declareFull_loses (s : Settings) (t v level : Nat) (c : Chip)
    (stay : ∀ r ∈ c.ccu.queue, displaceable level r = false) :
    declareFull s t v level c = c.onCcu fun u => { u with lost := countUp u.lost } := by
  have noneLeft : lowestRequest (c.ccu.queue.filter (displaceable level)) = none :=
    (lowestRequest_eq_none _).mpr (List.filter_eq_nil_iff.mpr fun r waits => by simp [stay r waits])
  simp only [declareFull, noneLeft]

/-! ## A crossing (R64, R66) -/

/-- A crossing within the window of the target merges. -/
theorem crossing_merges (s : Settings) (t v : Nat) (c : Chip) (g : CollapseTarget) (target : c.ccu.target = some g)
    (within : t ≤ g.refTick + g.window) : crossing s t v c = mergeCrossing g v (levelOf s v) c := by
  simp only [crossing, target]
  exact if_pos (decide_eq_true within)

/-- A crossing beyond the window of the target, or without one, is a declaration. -/
theorem crossing_declares (s : Settings) (t v : Nat) (c : Chip)
    (beyond : ∀ g, c.ccu.target = some g → g.refTick + g.window < t) :
    crossing s t v c = declareCrossing s t v (levelOf s v) c := by
  unfold crossing
  split
  case h_1 g target =>
    have apart : collapses t g = false := decide_eq_false (Nat.not_le.mpr (beyond g target))
    rw [if_neg (by simp [apart])]
  case h_2 => rfl

/-! ## A tick notice (R63, R64) -/

/-- A tick that is not a crossing changes the previous count. -/
theorem takeTickNotice_of_noCrossing (n : TickNotice) (c : Chip) (s : Settings) (settings : c.tcu.settings = some s)
    (no : ¬ (s.nmin ≤ voteCount n.tick s.window c.chc.channels ∧ c.ccu.prevCount < s.nmin)) :
    takeTickNotice n c =
      c.onCcu fun u => { u with prevCount := voteCount n.tick s.window c.chc.channels } := by
  simp only [takeTickNotice, settings, if_neg no]

/-- A crossing is dealt with, and then the previous count changes. -/
theorem takeTickNotice_of_crossing (n : TickNotice) (c : Chip) (s : Settings) (settings : c.tcu.settings = some s)
    (crosses : s.nmin ≤ voteCount n.tick s.window c.chc.channels ∧ c.ccu.prevCount < s.nmin) :
    takeTickNotice n c = (crossing s n.tick (voteCount n.tick s.window c.chc.channels) c).onCcu fun u =>
      { u with prevCount := voteCount n.tick s.window c.chc.channels } := by
  simp only [takeTickNotice, settings, if_pos crosses]

/-- The previous count after a tick is the tick's count. -/
theorem takeTickNotice_prevCount (n : TickNotice) (c : Chip) (s : Settings) (settings : c.tcu.settings = some s) :
    (takeTickNotice n c).ccu.prevCount = voteCount n.tick s.window c.chc.channels := by
  simp only [takeTickNotice, settings, Chip.onCcu_ccu]

end Sys2Proof.Machine
end

section
/-! PROOFS. The statement about the crossings of a tick (R64, R66, R69, R71, R72, R80). -/

namespace Sys2Proof.Machine

/-- Settles O29: by the target's window, the room of the queue, and a request that gives way; the engine a declaration
wakes leaves the counters alone. -/
theorem eachCrossingIsCountedOnce : Obligations.EachCrossingIsCountedOnce := by
  intro c s n settings v d
  refine ⟨takeTickNotice_prevCount n c s settings, takeTickNotice_of_noCrossing n c s settings,
    fun enough rises => ?_⟩
  have crossed : d = (crossing s n.tick v c).onCcu fun u => { u with prevCount := v } :=
    takeTickNotice_of_crossing n c s settings ⟨enough, rises⟩
  clear_value v d
  subst crossed
  refine ⟨fun g target within => ?_, fun beyond => ?_⟩
  · rw [crossing_merges s n.tick v c g target within]
    exact ⟨rfl, rfl, rfl, rfl, rfl, rfl, mergeCrossing_numbers g v (levelOf s v) c⟩
  · rw [crossing_declares s n.tick v c beyond, declareCrossing]
    split
    case isTrue room =>
      obtain ⟨merges, declarations, lost, displaced, requestCounter⟩ :=
        Ccu.eq_of_counts (declare_counts s n.tick v (levelOf s v) c)
      exact ⟨merges, fun _ => ⟨declarations, lost, displaced, requestCounter⟩,
        fun full => absurd room (Nat.not_lt.mpr full)⟩
    case isFalse full =>
      by_cases gives : ∃ r ∈ c.ccu.queue, displaceable (levelOf s v) r = true
      case pos =>
        obtain ⟨merges, declarations, lost, displaced, requestCounter⟩ :=
          Ccu.eq_of_counts (declareFull_displaces s n.tick v (levelOf s v) c gives)
        refine ⟨merges, fun room => absurd room full, fun _ =>
          ⟨fun _ => ⟨declarations, lost, displaced, requestCounter⟩, fun stay => ?_⟩⟩
        obtain ⟨r, waits, gives⟩ := gives
        obtain ⟨unordered, lower⟩ := (displaceable_iff _ r).mp gives
        exact absurd lower (Nat.not_lt.mpr (stay r waits unordered))
      case neg =>
        have stay : ∀ r ∈ c.ccu.queue, displaceable (levelOf s v) r = false := by simpa using gives
        rw [declareFull_loses s n.tick v (levelOf s v) c stay]
        refine ⟨rfl, fun room => absurd room full, fun _ => ⟨fun ⟨r, waits, candidate⟩ => ?_, fun _ => rfl⟩⟩
        exact absurd ⟨r, waits, (displaceable_iff _ r).mpr candidate⟩ gives

end Sys2Proof.Machine
end

section
/-! SUPPORT. The four banks (R81, R82): what sound banks are, said of each two of them, and the operations of SCE that
change one: a scan that changes, parks or finishes, and a scan that a selection makes the RUNNING one. An operation
whose frame keeps SCE needs no lemma of its own: `BanksSound.keeps` reads it off the frame. -/

namespace Sys2Proof.Machine

/-! ## Sound banks -/

/-- Two scans may be in service together, so far as the first can tell: their levels differ, and the first, when
RUNNING, is the higher. -/
structure Scan.Apart (x y : Scan) : Prop where
  ne : x.request.level ≠ y.request.level
  higher : x.running = true → x.request.level < y.request.level

/-- Four banks, each two scans in service apart. -/
structure BanksSound (banks : List (Option Scan)) : Prop where
  four : banks.length = 4
  apart : ∀ {i j : Nat} {x y : Scan}, i ≠ j → banks[i]? = some (some x) → banks[j]? = some (some y) → x.Apart y

theorem pairwise_iff_getElem? {α : Type} (R : α → α → Prop) (l : List α) :
    l.Pairwise R ↔ ∀ (i j : Nat) (a b : α), i < j → l[i]? = some a → l[j]? = some b → R a b := by
  rw [List.pairwise_iff_getElem]
  constructor
  · intro h i j a b less ha hb
    obtain ⟨hi, rfl⟩ := List.getElem?_eq_some_iff.mp ha
    obtain ⟨hj, rfl⟩ := List.getElem?_eq_some_iff.mp hb
    exact h i j hi hj less
  · intro h i j hi hj less
    exact h i j _ _ less (List.getElem?_eq_getElem hi) (List.getElem?_eq_getElem hj)

/-- The levels in service are distinct when those of each two banks are. -/
theorem inServiceLevels_nodup (banks : List (Option Scan)) :
    (inServiceLevels banks).Nodup ↔ ∀ (i j : Nat) (x y : Scan), i < j → banks[i]? = some (some x) →
      banks[j]? = some (some y) → x.request.level ≠ y.request.level := by
  rw [inServiceLevels, List.Nodup, List.pairwise_filterMap, pairwise_iff_getElem?]
  simp only [Option.map_eq_some_iff, forall_exists_index, and_imp]
  exact ⟨fun h i j x y less hx hy => h i j _ _ less hx hy _ x rfl rfl _ y rfl rfl,
    fun h i j a b less ha hb n x hx hn m y hy hm => by subst hx hy hn hm; exact h i j x y less ha hb⟩

theorem length_le_one_iff_pairwise {α : Type} (l : List α) : l.length ≤ 1 ↔ l.Pairwise fun _ _ => False := by
  match l with
  | [] | [_] => simp
  | a :: b :: l => exact iff_of_false (by simp) fun h => List.rel_of_pairwise_cons h (List.mem_cons_self ..)

theorem bind_running_eq_some (b : Option Scan) (level : Nat) :
    (b.bind fun sc => if sc.running then some sc.request.level else none) = some level ↔
      ∃ sc, b = some sc ∧ sc.running = true ∧ sc.request.level = level := by
  cases b with
  | none => simp
  | some sc => cases run : sc.running <;> simp [run]

theorem bind_parked_eq_some (b : Option Scan) (level : Nat) :
    (b.bind fun sc => if sc.running then none else some sc.request.level) = some level ↔
      ∃ sc, b = some sc ∧ sc.running = false ∧ sc.request.level = level := by
  cases b with
  | none => simp
  | some sc => cases run : sc.running <;> simp [run]

/-- At most one bank is RUNNING when no two are. -/
theorem runningLevels_length (banks : List (Option Scan)) :
    (runningLevels banks).length ≤ 1 ↔ ∀ (i j : Nat) (x y : Scan), i < j → banks[i]? = some (some x) →
      banks[j]? = some (some y) → x.running = true → ¬ y.running = true := by
  rw [length_le_one_iff_pairwise, runningLevels, List.pairwise_filterMap, pairwise_iff_getElem?]
  simp only [bind_running_eq_some, forall_exists_index, and_imp]
  exact ⟨fun h i j x y less hx hy runs runs' => h i j _ _ less hx hy _ x rfl runs rfl _ y rfl runs' rfl,
    fun h i j a b less ha hb n x hx runs _ m y hy runs' _ => by subst hx hy; exact h i j x y less ha hb runs runs'⟩

theorem mem_runningLevels (banks : List (Option Scan)) (level : Nat) :
    level ∈ runningLevels banks ↔ ∃ (i : Nat) (sc : Scan),
      banks[i]? = some (some sc) ∧ sc.running = true ∧ sc.request.level = level := by
  rw [runningLevels, List.mem_filterMap]
  simp only [bind_running_eq_some, List.mem_iff_getElem?]
  exact ⟨fun ⟨_, ⟨i, listed⟩, sc, bank, rest⟩ => ⟨i, sc, bank ▸ listed, rest⟩,
    fun ⟨i, sc, listed, rest⟩ => ⟨some sc, ⟨i, listed⟩, sc, rfl, rest⟩⟩

theorem mem_parkedLevels (banks : List (Option Scan)) (level : Nat) :
    level ∈ parkedLevels banks ↔ ∃ (i : Nat) (sc : Scan),
      banks[i]? = some (some sc) ∧ sc.running = false ∧ sc.request.level = level := by
  rw [parkedLevels, List.mem_filterMap]
  simp only [bind_parked_eq_some, List.mem_iff_getElem?]
  exact ⟨fun ⟨_, ⟨i, listed⟩, sc, bank, rest⟩ => ⟨i, sc, bank ▸ listed, rest⟩,
    fun ⟨i, sc, listed, rest⟩ => ⟨some sc, ⟨i, listed⟩, sc, rfl, rest⟩⟩

/-- The lists of levels of the statement say what the banks say two by two. -/
theorem Sce.banksSound_iff (e : Sce) : e.banksSound ↔ BanksSound e.banks := by
  simp only [Sce.banksSound, inServiceLevels_nodup, runningLevels_length, mem_runningLevels, mem_parkedLevels]
  constructor
  · rintro ⟨four, distinct, one, above⟩
    refine ⟨four, fun {i j x y} ne hx hy => ⟨?_, fun runs => ?_⟩⟩
    · rcases Nat.lt_or_gt_of_ne ne with less | less
      · exact distinct i j x y less hx hy
      · exact (distinct j i y x less hy hx).symm
    · cases other : y.running with
      | false => exact above _ ⟨i, x, hx, runs, rfl⟩ _ ⟨j, y, hy, other, rfl⟩
      | true =>
        rcases Nat.lt_or_gt_of_ne ne with less | less
        · exact absurd other (one i j x y less hx hy runs)
        · exact absurd runs (one j i y x less hy hx other)
  · rintro ⟨four, apart⟩
    refine ⟨four, fun i j x y less hx hy => (apart (Nat.ne_of_lt less) hx hy).ne,
      fun i j x y less hx hy runs runs' => ?_, ?_⟩
    · exact Nat.lt_asymm ((apart (Nat.ne_of_lt less) hx hy).higher runs)
        ((apart (Nat.ne_of_gt less) hy hx).higher runs')
    · rintro _ ⟨i, x, hx, runs, rfl⟩ _ ⟨j, y, hy, parked, rfl⟩
      refine (apart ?_ hx hy).higher runs
      rintro rfl
      simp_all

/-! ## Changes that put no scan above another -/

/-- What leaves the banks alone leaves them sound. -/
theorem BanksSound.keeps {c d : Chip} (h : BanksSound c.sce.banks) (same : d.sce.banks = c.sce.banks) :
    BanksSound d.sce.banks := same ▸ h

/-- A change of a scan leaves its level, and does not make it RUNNING. -/
abbrev Scan.Stays (x y : Scan) : Prop := y.request.level = x.request.level ∧ (y.running = true → x.running = true)

/-- Banks are sound when every scan in them was there before, and has stayed. -/
theorem BanksSound.of_stays {banks after : List (Option Scan)} (h : BanksSound banks)
    (length : after.length = banks.length)
    (stays : ∀ (i : Nat) (y : Scan), after[i]? = some (some y) → ∃ x, banks[i]? = some (some x) ∧ x.Stays y) :
    BanksSound after := by
  refine ⟨length.trans h.four, fun {i j y z} ne hy hz => ?_⟩
  obtain ⟨x, hx, level, running⟩ := stays i y hy
  obtain ⟨w, hw, level', -⟩ := stays j z hz
  have apart := h.apart ne hx hw
  exact ⟨by rw [level, level']; exact apart.ne, fun runs => by rw [level, level']; exact apart.higher (running runs)⟩

/-- A scan of one bank changes, and stays. -/
theorem BanksSound.change {banks : List (Option Scan)} (h : BanksSound banks) (bank : Nat) (f : Scan → Scan)
    (stays : ∀ sc : Scan, sc.Stays (f sc)) : BanksSound (modifyAt (Option.map f) banks bank) := by
  refine h.of_stays (modifyAt_length ..) fun i y hy => ?_
  rw [modifyAt_getElem?] at hy
  split at hy
  · simp only [Option.map_eq_some_iff] at hy
    obtain ⟨_, hx, x, rfl, rfl⟩ := hy
    exact ⟨x, hx, stays x⟩
  · exact ⟨y, hy, rfl, id⟩

/-- The scans of all banks change, and stay. -/
theorem BanksSound.changeAll {banks : List (Option Scan)} (h : BanksSound banks) (f : Scan → Scan)
    (stays : ∀ sc : Scan, sc.Stays (f sc)) : BanksSound (banks.map (Option.map f)) := by
  refine h.of_stays (List.length_map _) fun i y hy => ?_
  simp only [List.getElem?_map, Option.map_eq_some_iff] at hy
  obtain ⟨_, hx, x, rfl, rfl⟩ := hy
  exact ⟨x, hx, stays x⟩

/-- A bank becomes FREE. -/
theorem BanksSound.free {banks : List (Option Scan)} (h : BanksSound banks) (bank : Nat) :
    BanksSound (modifyAt (fun _ => none) banks bank) := by
  refine h.of_stays (modifyAt_length ..) fun i y hy => ?_
  rw [modifyAt_getElem?] at hy
  split at hy
  · simp at hy
  · exact ⟨y, hy, rfl, id⟩

/-- All banks become FREE. -/
theorem BanksSound.freeAll {banks : List (Option Scan)} (h : BanksSound banks) :
    BanksSound (banks.map fun _ => none) :=
  h.of_stays (List.length_map _) fun i y hy => absurd hy (by simp [List.getElem?_replicate])

/-- With no other bank RUNNING, a bank runs a scan that is higher than those of the other banks. -/
theorem BanksSound.run {banks : List (Option Scan)} (h : BanksSound banks) (bank : Nat) (sc : Scan)
    (higher : ∀ (j : Nat) (y : Scan), j ≠ bank → banks[j]? = some (some y) →
      sc.request.level < y.request.level ∧ y.running = false) :
    BanksSound (modifyAt (fun _ => some sc) banks bank) := by
  refine ⟨(modifyAt_length ..).trans h.four, fun {i j x y} ne hx hy => ?_⟩
  rw [modifyAt_getElem?] at hx hy
  split at hx
  case isTrue at_i =>
    rw [if_neg fun at_j => ne (at_i.trans at_j.symm)] at hy
    obtain ⟨_, -, same⟩ := Option.map_eq_some_iff.mp hx
    obtain rfl : sc = x := Option.some.inj same
    have above := (higher j y (fun at_j => ne (at_i.trans at_j.symm)) hy).1
    exact ⟨Nat.ne_of_lt above, fun _ => above⟩
  case isFalse off_i =>
    split at hy
    case isTrue at_j =>
      obtain ⟨_, -, same⟩ := Option.map_eq_some_iff.mp hy
      obtain rfl : sc = y := Option.some.inj same
      obtain ⟨above, parked⟩ := higher i x off_i hx
      exact ⟨Nat.ne_of_gt above, fun runs => by simp [parked] at runs⟩
    case isFalse => exact h.apart ne hx hy

/-! ## The operations that change a bank -/

theorem onScan_banksSound (bank : Nat) (f : Scan → Scan) {c : Chip} (h : BanksSound c.sce.banks)
    (stays : ∀ sc : Scan, sc.Stays (f sc) := by exact fun _ => ⟨rfl, id⟩) : BanksSound (onScan bank f c).sce.banks :=
  h.change bank f stays

/-- A finish leaves the bank FREE. -/
theorem finishScan_banks (bank : Nat) (sc : Scan) (o : ScanOutcome) (arrivals : List Arrival) (c : Chip) :
    (finishScan bank sc o arrivals c).sce.banks = modifyAt (fun _ => none) c.sce.banks bank := by
  simp [finishScan, setBank]

theorem finishScan_banksSound (bank : Nat) (sc : Scan) (o : ScanOutcome) (arrivals : List Arrival) {c : Chip}
    (h : BanksSound c.sce.banks) : BanksSound (finishScan bank sc o arrivals c).sce.banks := by
  rw [finishScan_banks]
  exact h.free bank

theorem performRowScope_banksSound (scope : RowScope) {c : Chip} (h : BanksSound c.sce.banks) :
    BanksSound (performRowScope scope c).sce.banks :=
  h.changeAll _ fun sc => by split <;> exact ⟨rfl, id⟩

theorem mergeCrossing_banksSound (g : CollapseTarget) (v level : Nat) {c : Chip} (h : BanksSound c.sce.banks) :
    BanksSound (mergeCrossing g v level c).sce.banks :=
  h.changeAll _ fun sc => by unfold mergeService; split <;> exact ⟨rfl, id⟩

theorem enterFaulted_banksSound (hs : HaltSource) {c : Chip} (h : BanksSound c.sce.banks) :
    BanksSound (enterFaulted hs c).sce.banks := h.freeAll

/-! ## The scan a selection runs (R83 to R89) -/

/-- A search that finds no bank passed each scan by. -/
theorem findBank_eq_none (test : Scan → Bool) (i : Nat) (banks : List (Option Scan)) :
    findBank test i banks = none ↔ ∀ sc, some sc ∈ banks → test sc = false := by
  induction banks generalizing i with
  | nil => simp [findBank]
  | cons b rest ih =>
    cases b with
    | none => simp [findBank, ih]
    | some sc => cases met : test sc <;> simp [findBank, ih, met]

/-- With no bank RUNNING every scan in service is PARKED. -/
theorem parked_of_runningBank_none {c : Chip} (idle : runningBank c = none) (j : Nat) (y : Scan)
    (listed : c.sce.banks[j]? = some (some y)) : y.running = false :=
  (findBank_eq_none Scan.running 0 c.sce.banks).mp idle y (List.mem_of_getElem? listed)

/-- The PARKED bank that wins is higher than every other bank, which is PARKED too. -/
theorem resumeScan_banksSound (bank : Nat) (sc : Scan) {c : Chip} (h : BanksSound c.sce.banks)
    (idle : runningBank c = none) (wins : selectWinner c = some (.parked bank sc)) :
    BanksSound (resumeScan bank sc c).1.sce.banks := by
  obtain ⟨listed, -, highest, -⟩ := (selectionTakesTheHighestLevel c).2.1 bank sc wins
  have runs : BanksSound (modifyAt (fun _ => some (resumed sc)) c.sce.banks bank) := by
    refine h.run bank _ fun j y other hy => ?_
    have parked := parked_of_runningBank_none idle j y hy
    exact ⟨Nat.lt_of_le_of_ne (highest y (List.mem_of_getElem? hy) parked) (h.apart other.symm listed hy).ne, parked⟩
  unfold resumeScan
  dsimp only
  split
  · exact finishScan_banksSound bank _ _ _ runs
  · exact runs

/-- The request that wins is higher than every bank. -/
theorem startScan_banksSound (r : Request) {c : Chip} (h : BanksSound c.sce.banks) (idle : runningBank c = none)
    (wins : selectWinner c = some (.waiting r)) : BanksSound (startScan r c).1.sce.banks := by
  obtain ⟨highest, -⟩ := (selectionTakesTheHighestLevel c).2.2.1 r wins
  have runs (bank : Nat) (sc : Scan) (level : sc.request.level = r.level) :
      BanksSound (modifyAt (fun _ => some sc) c.sce.banks bank) := by
    refine h.run bank sc fun j y _ hy => ?_
    have parked := parked_of_runningBank_none idle j y hy
    exact ⟨level ▸ highest y (List.mem_of_getElem? hy) parked, parked⟩
  unfold startScan
  dsimp only [finishAtOnce]
  split
  · exact h
  · split
    · exact finishScan_banksSound _ _ _ _ (runs _ _ rfl)
    · split
      · exact finishScan_banksSound _ _ _ _ (runs _ _ rfl)
      · split
        · exact finishScan_banksSound _ _ _ _ (runs _ _ rfl)
        · exact runs _ _ rfl

theorem selectAction_banksSound {c : Chip} (h : BanksSound c.sce.banks) :
    BanksSound (selectAction c).1.sce.banks := by
  unfold selectAction
  split
  case isTrue => exact h
  case isFalse idle =>
    have idle : runningBank c = none := by simpa using idle
    split
    · exact h
    · next bank sc wins => exact resumeScan_banksSound bank sc h idle wins
    · next r wins => exact startScan_banksSound r h idle wins

/-! ## The actions of the RUNNING scan (R87 to R102) -/

theorem requestRow_banksSound (grid node : Nat) {c : Chip} (h : BanksSound c.sce.banks) :
    BanksSound (requestRow grid node c).1.sce.banks := h.keeps (by simp)

theorem requestRefine_banksSound (grid node : Nat) {c : Chip} (h : BanksSound c.sce.banks) :
    BanksSound (requestRefine grid node c).1.sce.banks := h.keeps (by simp)

theorem requestScanRow_banksSound (bank grid node : Nat) (phase : ScanPhase) (next : List (BitVec 16) → EngineTask)
    {c : Chip} (h : BanksSound c.sce.banks) : BanksSound (requestScanRow bank grid node phase next c).1.sce.banks := by
  have widened := onScan_banksSound bank (fun sc => { sc.widenRange grid node with phase := phase }) h
  have asked := requestRow_banksSound grid node widened
  unfold requestScanRow
  dsimp only
  split
  all_goals
    rename_i reply
    rw [reply] at asked
  · exact asked
  · exact onScan_banksSound _ _ asked
  · exact onScan_banksSound _ _ asked
  · exact asked

theorem rowAction_banksSound (bank : Nat) (sc : Scan) (row : List (BitVec 16)) {c : Chip}
    (h : BanksSound c.sce.banks) : BanksSound (rowAction bank sc row c).1.sce.banks := by
  unfold rowAction
  split
  · exact h
  · split <;> exact onScan_banksSound _ _ h

theorem boundaryAction_banksSound (bank : Nat) (sc : Scan) {c : Chip} (h : BanksSound c.sce.banks) :
    BanksSound (boundaryAction bank sc c).1.sce.banks := by
  unfold boundaryAction
  split
  · exact finishScan_banksSound _ _ _ _ h
  · split
    · exact onScan_banksSound bank (fun s => { s with running := false, phase := .boundary }) h
        fun _ => ⟨rfl, fun runs => by cases runs⟩
    · exact h

theorem requestScanRefine_banksSound (bank : Nat) (p : Peak) {c : Chip} (h : BanksSound c.sce.banks) :
    BanksSound (requestScanRefine bank p c).1.sce.banks := by
  have asks := onScan_banksSound bank (fun s => { s with phase := .refineEntry }) h
  have asked := requestRefine_banksSound p.grid p.node asks
  unfold requestScanRefine
  split
  all_goals
    rename_i reply
    rw [reply] at asked
    exact asked

theorem stageEndAction_banksSound (bank : Nat) (sc : Scan) {c : Chip} (h : BanksSound c.sce.banks) :
    BanksSound (stageEndAction bank sc c).1.sce.banks := by
  have best1 (p : Peak) := onScan_banksSound bank (fun s => { s with stage1 := some p }) h
  have best2 (p : Peak) := onScan_banksSound bank (fun s => { s with stage2 := some p }) h
  unfold stageEndAction
  split
  · unfold stage1End
    split
    · exact h
    · dsimp only
      split
      · exact best1 _
      · split
        · exact requestScanRefine_banksSound _ _ (best1 _)
        · exact onScan_banksSound _ _ (best1 _)
  · unfold stage2End
    split
    · exact onScan_banksSound _ _ h
    · dsimp only
      split
      · exact onScan_banksSound _ _ (best2 _)
      · exact best2 _

theorem refinedAction_banksSound (bank : Nat) (sc : Scan) (e : Option RefineEntry) {c : Chip}
    (h : BanksSound c.sce.banks) : BanksSound (refinedAction bank sc e c).1.sce.banks := by
  unfold refinedAction
  split
  · exact onScan_banksSound _ _ h
  · split
    · exact onScan_banksSound _ _ h
    · exact onScan_banksSound bank (stage2Setup _ _ (stage1Time sc)) h

theorem listAction_banksSound (bank : Nat) (sc : Scan) (o : ScanOutcome) (row : List (BitVec 16)) (ch : Nat)
    (found : List Arrival) {c : Chip} (h : BanksSound c.sce.banks) :
    BanksSound (listAction bank sc o row ch found c).1.sce.banks := by
  unfold listAction
  split <;> exact onScan_banksSound _ _ h

theorem scanAction_banksSound (task : EngineTask) (bank : Nat) (sc : Scan) {c : Chip} (h : BanksSound c.sce.banks) :
    BanksSound (scanAction task bank sc c).1.sce.banks := by
  cases task with
  | select => exact h
  | node => exact requestScanRow_banksSound _ _ _ _ _ h
  | rowIn row => exact rowAction_banksSound _ _ _ h
  | nodeEnd => exact onScan_banksSound _ _ h
  | boundary => exact boundaryAction_banksSound _ _ h
  | stageEnd => exact stageEndAction_banksSound _ _ h
  | refined e => exact refinedAction_banksSound _ _ _ h
  | arrival o =>
    simp only [scanAction, arrivalAction]
    split
    · exact h
    · exact requestScanRow_banksSound _ _ _ _ _ h
  | listRow o row => exact listAction_banksSound _ _ _ _ _ _ h
  | conclude o arrivals =>
    simp only [scanAction, concludeAction]
    split <;> exact finishScan_banksSound _ _ _ _ h

theorem engineAction_banksSound (task : EngineTask) (c : Chip) (h : BanksSound c.sce.banks) :
    BanksSound (engineAction task c).1.sce.banks := by
  unfold engineAction
  split
  · exact selectAction_banksSound h
  · split
    · exact scanAction_banksSound _ _ _ h
    · exact h

theorem engine_banksSound (task : EngineTask) {c : Chip} (h : BanksSound c.sce.banks) :
    BanksSound (engine task c).sce.banks :=
  engine_induct (fun d => BanksSound d.sce.banks) engineAction_banksSound task c h

theorem offerRipe_banksSound {c : Chip} (h : BanksSound c.sce.banks) : BanksSound (offerRipe c).sce.banks := by
  unfold offerRipe
  split
  · exact engine_banksSound _ h
  · exact h

/-! ## The answers the engine waits for -/

theorem endPair_banksSound (bank : Nat) (sc : Scan) (row : List (BitVec 16)) (t0 sum wsum contributors : Nat) {c : Chip}
    (h : BanksSound c.sce.banks) : BanksSound (endPair bank sc row t0 sum wsum contributors c).1.sce.banks := by
  have stacked := onScan_banksSound bank (fun s => { s with best := pairBest sc t0 sum wsum contributors }) h
  unfold endPair
  dsimp only
  split
  · split <;> exact onScan_banksSound _ _ stacked
  · exact stacked

theorem cfAnswered_banksSound {c : Chip} (h : BanksSound c.sce.banks) : BanksSound (cfAnswered c).1.sce.banks := by
  have raised (bank : Nat) (f : ScanFlags → ScanFlags) := onScan_banksSound bank (Scan.raise f) h
  unfold cfAnswered
  split
  · split
    · unfold stackRead
      dsimp only
      split
      · exact onScan_banksSound _ _ (raised _ _)
      · exact endPair_banksSound _ _ _ _ _ _ _ (raised _ _)
    · exact listAction_banksSound _ _ _ _ _ _ (raised _ _)
    all_goals exact h
  · exact h

theorem rowArrived_banksSound (row : List (BitVec 16)) {c : Chip} (h : BanksSound c.sce.banks) :
    BanksSound (rowArrived row c).sce.banks := by
  unfold rowArrived
  split
  · split
    case h_1 | h_2 => exact engine_banksSound _ h
    all_goals exact h
  · exact h

theorem rowFetchAnswered_banksSound (a : Access) (r : Option (List Byte)) {c : Chip} (h : BanksSound c.sce.banks) :
    BanksSound (rowFetchAnswered a r c).sce.banks := by
  have faulted {c : Chip} (h : BanksSound c.sce.banks) : BanksSound (faultRunning c).sce.banks := by
    unfold faultRunning
    split
    · exact onScan_banksSound _ _ h
    · exact h
  cases r with
  | some b => exact rowArrived_banksSound _ h
  | none => exact rowArrived_banksSound _ (faulted h)

theorem refineAnswered_banksSound (a : Access) (r : Option (List Byte)) {c : Chip} (h : BanksSound c.sce.banks) :
    BanksSound (refineAnswered a r c).sce.banks := by
  unfold refineAnswered
  split
  · split
    · exact engine_banksSound _ h
    · exact h
  · exact h

end Sys2Proof.Machine
end

section
/-! SUPPORT. Sound banks (R81, R82) through the declarations, the settlement of ticks, the tables, the orders and the
effects of the commands: every operation of these that reaches a bank, in the order of the definitions. -/

namespace Sys2Proof.Machine

/-! ## Declarations (R64 to R72) -/

theorem declare_banksSound (s : Settings) (t v level : Nat) {c : Chip} (h : BanksSound c.sce.banks) :
    BanksSound (declare s t v level c).sce.banks := by
  unfold declare
  exact offerRipe_banksSound (h.keeps (by simp))

theorem declareCrossing_banksSound (s : Settings) (t v level : Nat) {c : Chip} (h : BanksSound c.sce.banks) :
    BanksSound (declareCrossing s t v level c).sce.banks := by
  unfold declareCrossing
  split
  · exact declare_banksSound s t v level h
  · unfold declareFull
    split
    · exact declare_banksSound s t v level (h.keeps (by simp))
    · exact h.keeps (by simp)

theorem crossing_banksSound (s : Settings) (t v : Nat) {c : Chip} (h : BanksSound c.sce.banks) :
    BanksSound (crossing s t v c).sce.banks := by
  unfold crossing
  split
  · split
    · exact mergeCrossing_banksSound _ _ _ h
    · exact declareCrossing_banksSound _ _ _ _ h
  · exact declareCrossing_banksSound _ _ _ _ h

theorem takeTickNotice_banksSound (n : TickNotice) {c : Chip} (h : BanksSound c.sce.banks) :
    BanksSound (takeTickNotice n c).sce.banks := by
  unfold takeTickNotice
  split
  case h_1 => exact h
  case h_2 s _ =>
    have crossed := crossing_banksSound s n.tick (voteCount n.tick s.window c.chc.channels) h
    dsimp only
    split
    · exact crossed.keeps (by simp)
    · exact h.keeps (by simp)

/-! ## Settlement and the links (R28 to R38) -/

theorem settleTick_banksSound (t : Nat) {c : Chip} (h : BanksSound c.sce.banks) :
    BanksSound (settleTick t c).sce.banks := by
  have conditioned : BanksSound (conditionTick t (tickSamples t c) c).sce.banks := h.keeps (by simp)
  have noticed : BanksSound (handTickNotice t (conditionTick t (tickSamples t c) c)).sce.banks :=
    takeTickNotice_banksSound _ conditioned
  unfold settleTick
  exact noticed.keeps (by simp)

theorem settleTicks_banksSound (t n : Nat) {c : Chip} (h : BanksSound c.sce.banks) :
    BanksSound (settleTicks t n c).sce.banks := by
  induction n generalizing t c with
  | zero => exact h
  | succ n ih => exact ih _ (settleTick_banksSound t h)

theorem settle_banksSound (h0 h1 : Nat) {c : Chip} (h : BanksSound c.sce.banks) :
    BanksSound (settle h0 h1 c).sce.banks := by
  unfold settle
  exact offerRipe_banksSound ((settleTicks_banksSound h0 (h1 - h0) h).keeps (by simp))

theorem updateHorizon_banksSound {c : Chip} (h : BanksSound c.sce.banks) : BanksSound (updateHorizon c).sce.banks := by
  unfold updateHorizon
  split
  · split
    · exact settle_banksSound _ _ h
    · exact h
  · exact h
  · exact h
  · exact h

theorem fallBackHub_banksSound (n : Nat) {c : Chip} (h : BanksSound c.sce.banks) :
    BanksSound (fallBackHub n c).sce.banks := updateHorizon_banksSound (h.keeps (by simp))

theorem stallCheck_banksSound {c : Chip} (h : BanksSound c.sce.banks) : BanksSound (stallCheck c).sce.banks :=
  updateHorizon_banksSound (h.keeps (by simp))

theorem linkEvent_banksSound (f : Chip → Chip) {c : Chip} (h : BanksSound (f c).sce.banks) :
    BanksSound (linkEvent f c).sce.banks := h.keeps (by simp)

theorem takeGoodFrame_banksSound (port : Nat) (b : List Byte) {c : Chip} (h : BanksSound c.sce.banks) :
    BanksSound (takeGoodFrame port b c).sce.banks := by
  unfold takeGoodFrame
  dsimp only
  split
  · exact stallCheck_banksSound (h.keeps (by simp))
  · exact h.keeps (by simp)

theorem takeFrame_banksSound (port : Nat) (b : List Byte) {c : Chip} (h : BanksSound c.sce.banks) :
    BanksSound (takeFrame port b c).sce.banks := by
  have due : BanksSound (fallBackIfDue port c).sce.banks := by
    unfold fallBackIfDue
    split
    · exact fallBackHub_banksSound port h
    · exact h
  unfold takeFrame
  dsimp only
  split
  case h_1 => exact takeGoodFrame_banksSound port b due
  all_goals exact due.keeps (by simp)

theorem burstEnds_banksSound (port : Nat) (line : List Bool) {c : Chip} (h : BanksSound c.sce.banks) :
    BanksSound (burstEnds port line c).sce.banks := by
  unfold burstEnds
  split
  · exact h
  · split
    · exact linkEvent_banksSound _ (takeFrame_banksSound port _ h)
    · exact h

theorem badLimitEvent_banksSound (n : Nat) {c : Chip} (h : BanksSound c.sce.banks) :
    BanksSound (badLimitEvent n c).sce.banks := by
  unfold badLimitEvent
  split
  · exact linkEvent_banksSound _ (fallBackHub_banksSound n h)
  · exact h

theorem silenceEvent_banksSound (n : Nat) {c : Chip} (h : BanksSound c.sce.banks) :
    BanksSound (silenceEvent n c).sce.banks := by
  unfold silenceEvent
  split
  · exact linkEvent_banksSound _ (fallBackHub_banksSound n h)
  · exact h

/-! ## Invalidations and reloads (R118 to R126) -/

theorem runRowScope_banksSound (o : InvalOrder) (scope : RowScope) (word : Nat) {c : Chip}
    (h : BanksSound c.sce.banks) : BanksSound (runRowScope o scope word c).1.sce.banks :=
  (performRowScope_banksSound scope h).keeps (by simp [runRowScope])

theorem takeInval_banksSound (o : InvalOrder) {c : Chip} (h : BanksSound c.sce.banks) :
    BanksSound (takeInval o c).1.sce.banks := by
  unfold takeInval
  split
  · exact h
  · split
    · exact runRowScope_banksSound _ _ _ h
    · split
      · exact runRowScope_banksSound _ _ _ h
      · split
        · split <;> exact runRowScope_banksSound _ _ _ h
        · (repeat' split) <;> exact h.keeps (by simp)

theorem takeWaiting_banksSound (l : List InvalOrder) {c : Chip} (h : BanksSound c.sce.banks) :
    BanksSound (takeWaiting l c).sce.banks := by
  induction l generalizing c with
  | nil => exact h
  | cons o rest ih =>
    have taken := takeInval_banksSound o (h.keeps (d := c.onTcu fun t => { t with waiting := rest }) rfl)
    unfold takeWaiting
    split
    all_goals
      rename_i report
      rw [report] at taken
    · exact ih (taken.keeps (by simp))
    · exact taken

theorem endReload_banksSound (o : InvalOrder) (r : Option SlotResult) {c : Chip} (h : BanksSound c.sce.banks) :
    BanksSound (endReload o r c).sce.banks := by
  cases r with
  | some r => exact takeWaiting_banksSound _ (h.keeps (by simp))
  | none => exact h

theorem settleRowScope_banksSound (o : InvalOrder) (numbers : List Nat) (r : SlotResult) {c : Chip}
    (h : BanksSound c.sce.banks) : BanksSound (settleRowScope o numbers r c).1.sce.banks := h.keeps (by simp)

theorem countInvalidation_banksSound {c : Chip} (h : BanksSound c.sce.banks) :
    BanksSound (countInvalidation c).sce.banks := h.keeps (by simp)

theorem griddefsAnswered_banksSound (a : Access) (r : Option (List Byte)) {c : Chip} (h : BanksSound c.sce.banks) :
    BanksSound (griddefsAnswered a r c).sce.banks := by
  have noted : BanksSound (noteReloadRead r c).sce.banks := h.keeps (by simp)
  unfold griddefsAnswered
  dsimp only
  split
  · unfold performGriddefs
    exact endReload_banksSound _ _
      (settleRowScope_banksSound _ _ _ (countInvalidation_banksSound (performRowScope_banksSound _ noted)))
  · exact noted

theorem stationsAnswered_banksSound (a : Access) (r : Option (List Byte)) {c : Chip} (h : BanksSound c.sce.banks) :
    BanksSound (stationsAnswered a r c).sce.banks := by
  unfold stationsAnswered performStations
  dsimp only
  split
  · exact endReload_banksSound _ _ (h.keeps (by simp))
  · exact h.keeps (by simp)

theorem hubsAnswered_banksSound (a : Access) (r : Option (List Byte)) {c : Chip} (h : BanksSound c.sce.banks) :
    BanksSound (hubsAnswered a r c).sce.banks := by
  have noted : BanksSound (noteReloadRead r c).sce.banks := h.keeps (by simp)
  have adopted (new : List (Option HubEntry)) : BanksSound (adoptHubs new (noteReloadRead r c)).sce.banks :=
    updateHorizon_banksSound (noted.keeps (by simp))
  unfold hubsAnswered performHubs
  dsimp only
  split
  · exact endReload_banksSound _ _ (countInvalidation_banksSound (linkEvent_banksSound _ (adopted _)))
  · exact noted

theorem configAnswered_banksSound (a : Access) (r : Option (List Byte)) {c : Chip} (h : BanksSound c.sce.banks) :
    BanksSound (configAnswered a r c).sce.banks := by
  have applied : BanksSound (applyConfig r c).1.sce.banks := by
    unfold applyConfig
    split
    · exact h
    · split
      · exact linkEvent_banksSound _ (stallCheck_banksSound (h.keeps (by simp)))
      · exact h
  unfold configAnswered
  split
  · exact endReload_banksSound _ _ (countInvalidation_banksSound applied)
  · exact h

/-! ## The orders (R132 to R142) -/

theorem dispatchScan_banksSound (slot : Nat) (seq : BitVec 8) (o : ScanOrder) {c : Chip} (h : BanksSound c.sce.banks) :
    BanksSound (dispatchScan slot seq o c).sce.banks := by
  have taken : BanksSound (takeScanOrder slot seq o c).1.sce.banks := h.keeps (by simp)
  unfold dispatchScan
  split
  · exact h.keeps (by simp)
  · split
    all_goals
      rename_i answer
      rw [answer] at taken
    · exact offerRipe_banksSound (taken.keeps (by simp))
    · exact taken.keeps (by simp)

theorem dispatchInval_banksSound (o : InvalOrder) {c : Chip} (h : BanksSound c.sce.banks) :
    BanksSound (dispatchInval o c).sce.banks := by
  have handed {c : Chip} (h : BanksSound c.sce.banks) : BanksSound (handInval o c).1.sce.banks := by
    unfold handInval
    split
    · exact h
    · exact takeInval_banksSound o h
  have marked : BanksSound (if o.drain && o.isRowScope then
      c.onOrd fun k => { k with drainPending := some (o.slot, o.seq) } else c).sce.banks := by split <;> exact h
  have handed := handed marked
  unfold dispatchInval
  dsimp only
  split
  all_goals
    rename_i report
    rw [report] at handed
    exact handed.keeps (by simp)

theorem cancelInService_banksSound (slot : Nat) (seq : BitVec 8) (number bank : Nat) (sc : Scan) {c : Chip}
    (h : BanksSound c.sce.banks) : BanksSound (cancelInService slot seq number bank sc c).sce.banks := by
  have marked := onScan_banksSound bank
    (fun s => { s with cancelMark := true, cancels := s.cancels ++ [(slot, seq)] }) h
  have finished := finishScan_banksSound bank sc .cancelled [] h
  unfold cancelInService
  split
  · exact marked.keeps (by simp)
  · unfold selectIfIdle
    split
    · exact finished.keeps (by simp)
    · exact engine_banksSound _ (finished.keeps (by simp))

theorem dispatchCancel_banksSound (slot : Nat) (seq : BitVec 8) (number : Nat) {c : Chip}
    (h : BanksSound c.sce.banks) : BanksSound (dispatchCancel slot seq number c).sce.banks := by
  unfold dispatchCancel cancelRequest
  split
  · exact h.keeps (by simp)
  · split
    · exact h.keeps (by simp)
    · split
      · exact cancelInService_banksSound _ _ _ _ _ h
      · exact h.keeps (by simp)

theorem dispatchOrder_banksSound (slot : Nat) (b : List Byte) {c : Chip} (h : BanksSound c.sce.banks) :
    BanksSound (dispatchOrder slot b c).sce.banks := by
  unfold dispatchOrder
  dsimp only
  split
  · exact dispatchScan_banksSound _ _ _ h
  · split
    · exact dispatchInval_banksSound _ h
    · split
      · exact dispatchCancel_banksSound _ _ _ h
      · (repeat' split) <;> exact h.keeps (by simp)

theorem takeSlot_banksSound (slot : Nat) (b : List Byte) (others : List (Nat × List Byte)) {c : Chip}
    (h : BanksSound c.sce.banks) : BanksSound (takeSlot slot b others c).sce.banks := by
  have answered : BanksSound (writeDuplicates others c).sce.banks := h.keeps (by simp)
  have judged : BanksSound (judgeSlot slot b (writeDuplicates others c)).sce.banks := by
    unfold judgeSlot
    split
    · exact dispatchOrder_banksSound slot b answered
    · exact answered.keeps (by simp)
  exact judged

theorem takeRun_banksSound (n : Nat) (slots : List (Option (List Byte))) {c : Chip} (h : BanksSound c.sce.banks) :
    BanksSound (takeRun n slots c).sce.banks := by
  induction n generalizing c with
  | zero => exact h
  | succ n ih =>
    unfold takeRun
    split
    case h_1 => exact h
    case h_2 slot b others _ =>
      have taken := takeSlot_banksSound slot b others h
      dsimp only
      split
      · exact taken
      · exact ih taken

theorem slotReadAnswered_banksSound (a : Access) (r : Option (List Byte)) {c : Chip} (h : BanksSound c.sce.banks) :
    BanksSound (slotReadAnswered a r c).sce.banks := by
  unfold slotReadAnswered
  split
  case h_1 => exact h
  case h_2 got _ =>
    dsimp only
    split
    · exact h
    · unfold runPoll
      have begun : BanksSound ((c.onOrd fun o => { o with poll := some (got ++ [r]) }).onOrd fun o =>
          { o with takeRun := some [] }).sce.banks := h
      exact (takeRun_banksSound slotCount (got ++ [r]) begun).keeps (by simp)

/-! ## The end of an access (R170, R171, R175) -/

/-- Each block's handling of an answer keeps the banks sound. -/
theorem handlerOf_banksSound (p : Purpose) (a : Access) (r : Option (List Byte)) {c : Chip}
    (h : BanksSound c.sce.banks) : BanksSound (handlerOf p a r c).sce.banks := by
  cases p with
  | row => exact rowFetchAnswered_banksSound a r h
  | refine => exact refineAnswered_banksSound a r h
  | reloadGrid _ last =>
    cases last with
    | true => exact griddefsAnswered_banksSound a r h
    | false => exact h.keeps (d := reloadReadAnswered a r c) (by simp)
  | reloadStation _ last =>
    cases last with
    | true => exact stationsAnswered_banksSound a r h
    | false => exact h.keeps (d := reloadReadAnswered a r c) (by simp)
  | reloadHub _ last =>
    cases last with
    | true => exact hubsAnswered_banksSound a r h
    | false => exact h.keeps (d := reloadReadAnswered a r c) (by simp)
  | reloadConfig => exact configAnswered_banksSound a r h
  | slotRead => exact slotReadAnswered_banksSound a r h
  | directory => exact h.keeps (d := directoryAnswered a r c) (by simp)
  | bindSettings | bindGrid | bindHub | bindStation => exact h.keeps (d := bindTableAnswered a r c) (by simp)
  | slotResult | slotState => exact h.keeps (d := slotWriteAnswered a r c) (by simp)
  | returnBlock => exact h.keeps (d := returnBlockAnswered a r c) (by simp)
  | record => exact h.keeps (d := recordAnswered a r c) (by simp)
  | progressFirst | progressMiddle => exact h
  | progressLast => exact h.keeps (d := progressAnswered a r c) (by simp)
  | rawState => exact h.keeps (d := rawStateAnswered a r c) (by simp)
  | rawHeader | rawTick => exact h.keeps (d := rawHalfAnswered a r c) (by simp)
  | rawFull => exact h.keeps (d := rawFullAnswered a r c) (by simp)

theorem concludeStep_banksSound {c : Chip} (h : BanksSound c.sce.banks) : BanksSound (concludeStep c).sce.banks :=
  h.keeps (by simp)

theorem accessEnds_banksSound (p : Purpose) (a : Access) (r : Option (List Byte)) {c : Chip}
    (h : BanksSound c.sce.banks) : BanksSound (accessEnds (handlerOf p) a r c).sce.banks := by
  have freed : BanksSound (freeBus c).sce.banks := h.keeps (by simp)
  refine concludeStep_banksSound ?_
  unfold accessResult
  split
  · split
    · exact freed
    · exact handlerOf_banksSound p a _ freed
  · split
    · exact freed.keeps (by simp)
    · unfold accessFails
      split
      · exact enterFaulted_banksSound _ (freed.keeps (by simp))
      · exact handlerOf_banksSound p a none (freed.keeps (by simp))

/-! ## The effects of the commands -/

/-- After a reset or at the start of a binding every bank is FREE. -/
theorem atReset_banksSound : BanksSound Sce.atReset.banks := (Sce.banksSound_iff Sce.atReset).mp (by decide)

theorem releaseReset_banksSound (auto : Bool) (dirsel : BitVec 2) (c : Chip) :
    BanksSound (releaseReset auto dirsel c).sce.banks := by cases auto <;> exact atReset_banksSound

/-- The event of every command keeps the banks sound. -/
theorem eventEffect_banksSound (i : Instr) {c : Chip} (h : BanksSound c.sce.banks) :
    BanksSound (eventEffect i c).sce.banks := by
  have written (f : Chip → Chip) (effect : BanksSound (f c).sce.banks) :
      BanksSound (if c.rgp.resetHeld then c else f c).sce.banks := by split <;> assumption
  have control (code : BitVec 8) (valid : Chip → Bool) (effect : Chip → Chip)
      (keeps : ∀ d : Chip, BanksSound d.sce.banks → BanksSound (effect d).sce.banks) :
      BanksSound (controlCommand code valid effect c).sce.banks := by
    unfold controlCommand
    split
    · exact keeps _ (h.keeps (by simp))
    · exact h.keeps (by simp)
  cases i with
  | powerOnReset auto dirsel => exact releaseReset_banksSound auto dirsel c
  | reset auto dirsel => exact written _ (releaseReset_banksSound auto dirsel c)
  | bind => exact written _ (control _ _ _ fun _ _ => atReset_banksSound)
  | listen => exact written _ (control _ _ _ fun _ hd => hd.keeps (by simp))
  | stop => exact written _ (control _ _ _ fun _ hd => hd.keeps (by simp))
  | nudge => exact written _ (control _ _ _ fun _ hd => hd.keeps (by simp))
  | refusedCode value => exact written (noteControl (value.setWidth 8) .refusedCode) (h.keeps (by simp))
  | causeWrite value =>
    exact written (Chip.onRgp fun r => { r with cause := r.cause &&& ~~~(value.setWidth 8) }) h
  | maskWrite value => exact written (Chip.onRgp fun r => { r with mask := value.setWidth 8 }) h
  | dirbaseWrite hi value => exact written (writeDirbase hi value) (h.keeps (by simp))
  | hubFrameArrival port line => exact burstEnds_banksSound port.val line h
  | badFrameLimit hub => exact badLimitEvent_banksSound hub.val h
  | silenceTimerExpiry hub => exact silenceEvent_banksSound hub.val h
  | cfReadAnswer =>
    exact engineOn_induct (fun d => BanksSound d.sce.banks) engineAction_banksSound _ (cfAnswered_banksSound h)
  | pollTimerExpiry => exact h.keeps (d := pollTimerEvent c) (by simp)
  | noticeCountReached stream => exact h.keeps (d := takeNotice stream c) (by simp)
  | powerOnResetHold => exact atReset_banksSound
  | _ => exact h

/-- Every command that answers a next state keeps the banks sound. -/
theorem exec_banksSound (i : Instr) {c d : Chip} {q r : List Instr} (h : BanksSound c.sce.banks)
    (next : exec i ⟨c, q⟩ = .next ⟨d, r⟩) : BanksSound d.sce.banks := by
  have form : CommandForm i c q (.next ⟨d, r⟩) := next ▸ exec_form i c q
  cases form with
  | ignored => exact h
  | event => exact concludeStep_banksSound (eventEffect_banksSound i h)
  | answered a r _ => exact accessEnds_banksSound _ a r h

end Sys2Proof.Machine
end

section
/-! PROOFS. The statement that a step keeps four banks of distinct levels, the RUNNING one the highest (R81, R82, R84,
R87, R88). -/

namespace Sys2Proof.Machine

/-- Settles O59: only a selection makes a bank RUNNING, when none is, and its winner is higher than the other banks. -/
theorem banksHoldDistinctLevelsAndTheRunningOneIsHighest :
    Obligations.BanksHoldDistinctLevelsAndTheRunningOneIsHighest := by
  rintro ⟨c, pending⟩ ⟨d, rest⟩ sound next
  have h : BanksSound c.sce.banks := (Sce.banksSound_iff _).mp sound
  refine (Sce.banksSound_iff _).mpr ?_
  cases pending with
  | nil =>
    cases next
    exact h
  | cons i q => exact exec_banksSound i h next

end Sys2Proof.Machine
end

section
/-! SUPPORT. The run of the scan engine on the RUNNING scan, action by action, until it waits for a row (R87, R90, R99,
R114); and the end of an access that a block acts on (R170, R171, R173). -/

namespace Sys2Proof.Machine

/-! ## The RUNNING bank (R81) -/

/-- A search for a bank finds a scan that meets the test. -/
theorem findBank_eq_some {test : Scan → Bool} {banks : List (Option Scan)} {i j : Nat} {sc : Scan}
    (found : findBank test i banks = some (j, sc)) :
    test sc = true ∧ ∃ n, j = i + n ∧ banks[n]? = some (some sc) := by
  induction banks generalizing i with
  | nil => cases found
  | cons b rest ih =>
    have later (found : findBank test (i + 1) rest = some (j, sc)) :
        test sc = true ∧ ∃ n, j = i + n ∧ (b :: rest)[n]? = some (some sc) := by
      obtain ⟨met, n, rfl, listed⟩ := ih found
      exact ⟨met, n + 1, by omega, listed⟩
    cases b with
    | none => exact later found
    | some x =>
      rw [findBank] at found
      split at found
      case isTrue met =>
        cases found
        exact ⟨met, 0, rfl, rfl⟩
      case isFalse => exact later found

/-- Another scan that meets the test is found in the same bank. -/
theorem findBank_set {test : Scan → Bool} {banks : List (Option Scan)} {i n : Nat} {sc x : Scan}
    (found : findBank test i banks = some (i + n, sc)) (met : test x = true) :
    findBank test i (banks.set n (some x)) = some (i + n, x) := by
  induction banks generalizing i n with
  | nil => cases found
  | cons b rest ih =>
    cases n with
    | zero => simp [findBank, met]
    | succ n =>
      have next : i + (n + 1) = i + 1 + n := by omega
      have later (found : findBank test (i + 1) rest = some (i + (n + 1), sc)) :
          findBank test (i + 1) (rest.set n (some x)) = some (i + (n + 1), x) := by
        rw [next] at found ⊢
        exact ih found
      cases b with
      | none => exact later found
      | some y =>
        rw [findBank] at found
        split at found
        case isTrue => simp at found
        case isFalse other => simp [findBank, other, later found]

theorem runningBank_listed {c : Chip} {bank : Nat} {sc : Scan} (runs : runningBank c = some (bank, sc)) :
    c.sce.banks[bank]? = some (some sc) := by
  obtain ⟨-, n, rfl, listed⟩ := findBank_eq_some runs
  simpa using listed

/-- A scan put in the place of the RUNNING one, and RUNNING as that is, is the RUNNING one. -/
theorem runningBank_withBank {c : Chip} {bank : Nat} {sc x : Scan} (runs : runningBank c = some (bank, sc))
    (same : x.running = sc.running) : runningBank (c.withBank bank (some x)) = some (bank, x) := by
  have found : findBank Scan.running 0 c.sce.banks = some (0 + bank, sc) := (Nat.zero_add bank).symm ▸ runs
  have set := findBank_set found (same.trans (findBank_eq_some runs).1)
  rwa [Nat.zero_add] at set

/-- A change of the RUNNING scan puts the changed scan in its place. -/
theorem onScan_running {c : Chip} {bank : Nat} {sc : Scan} (runs : runningBank c = some (bank, sc)) (f : Scan → Scan) :
    onScan bank f c = c.withBank bank (some (f sc)) := by
  rw [onScan, Chip.onSce, modifyAt_some _ _ _ _ (runningBank_listed runs)]
  rfl

@[simp] theorem withBank_withBank (c : Chip) (bank : Nat) (x y : Option Scan) :
    (c.withBank bank x).withBank bank y = c.withBank bank y := by simp [Chip.withBank]

/-- The RUNNING scan put in its own place. -/
theorem withBank_self {c : Chip} {bank : Nat} {sc : Scan} (runs : runningBank c = some (bank, sc)) :
    c.withBank bank (some sc) = c := by
  obtain ⟨inRange, listed⟩ := List.getElem?_eq_some_iff.mp (runningBank_listed runs)
  rw [Chip.withBank, ← listed, List.set_getElem_self]

/-! ## Runs of the engine -/

/-- The engine acts on a task this many times, and then waits with the part as it stands. -/
inductive EngineRun : EngineTask → Chip → Nat → Chip → Prop where
  | waits {task : EngineTask} {c d : Chip} (acts : engineAction task c = (d, none)) : EngineRun task c 1 d
  | goesOn {task next : EngineTask} {c d e : Chip} {n : Nat} (acts : engineAction task c = (d, some next))
      (rest : EngineRun next d n e) : EngineRun task c (n + 1) e

theorem EngineRun.runEngine_eq {task : EngineTask} {c d : Chip} {n : Nat} (run : EngineRun task c n d) (fuel : Nat)
    (few : n ≤ fuel) : runEngine fuel task c = d := by
  induction run generalizing fuel with
  | waits acts =>
    obtain ⟨fuel, rfl⟩ := Nat.exists_eq_add_of_le' few
    rw [runEngine_succ, acts]
  | goesOn acts _ ih =>
    obtain ⟨fuel, rfl⟩ := Nat.exists_eq_add_of_le' (Nat.le_trans (Nat.le_add_left 1 _) few)
    rw [runEngine_succ, acts]
    exact ih fuel (Nat.le_of_succ_le_succ few)

/-- A run of the engine that its fuel allows is what the engine does. -/
theorem EngineRun.engine_eq {task : EngineTask} {c d : Chip} {n : Nat} (run : EngineRun task c n d)
    (few : n ≤ engineFuel) : engine task c = d := run.runEngine_eq engineFuel few

/-- A task other than a selection is an action of the RUNNING scan. -/
theorem engineAction_running {c : Chip} {bank : Nat} {sc : Scan} (runs : runningBank c = some (bank, sc))
    (task : EngineTask) (scan : task ≠ .select) : engineAction task c = scanAction task bank sc c := by
  unfold engineAction
  split
  case h_1 => exact absurd rfl scan
  case h_2 => rw [runs]

/-! ## Row requests (R90, R114) -/

/-- The row of a node can be read: the node is one of its grid, its row is not cached and lies inside the windows. -/
structure Tcu.RowIsRead (t : Tcu) (w : Option Windows) (grid node : Nat) (g : GridDef) : Prop where
  defined : gridDefn t.grids grid = some g
  within : node < g.nodeCount
  absent : t.cache.find? (CacheEntry.isFor grid node) = none
  passes : accessPasses w (readAccess (.row grid node) (g.ttBase + node * g.stride) 512) = true

/-- The part with the read of a row requested: the miss is counted and the fetch noted. -/
def Chip.fetchingRow (grid node : Nat) (g : GridDef) (c : Chip) : Chip :=
  request .tcu (readAccess (.row grid node) (g.ttBase + node * g.stride) 512)
    (c.onTcu fun t => { t with misses := countUp t.misses, fetch := some ⟨grid, node, true⟩ })

theorem requestRow_of_isRead {c : Chip} {grid node : Nat} {g : GridDef}
    (isRead : c.tcu.RowIsRead c.mpt.windows grid node g) :
    requestRow grid node c = (c.fetchingRow grid node g, .waiting) := by
  obtain ⟨defined, within, absent, passes⟩ := isRead
  simp only [requestRow, defined, if_neg (Nat.not_le.mpr within), absent]
  exact if_pos passes

/-- The RUNNING scan asks for a row that can be read, and waits. -/
theorem requestScanRow_waits {c : Chip} {bank : Nat} {sc : Scan} (runs : runningBank c = some (bank, sc))
    {grid node : Nat} {g : GridDef} (isRead : c.tcu.RowIsRead c.mpt.windows grid node g) (phase : ScanPhase)
    (next : List (BitVec 16) → EngineTask) :
    requestScanRow bank grid node phase next c =
      ((c.withBank bank (some { sc.widenRange grid node with phase := phase })).fetchingRow grid node g, none) := by
  have asked := requestRow_of_isRead
    (c := c.withBank bank (some { sc.widenRange grid node with phase := phase })) isRead
  simp only [requestScanRow, onScan_running runs, asked]

/-- From a node boundary the RUNNING scan goes on to its node, when no cancel and no waiting request is there, and waits
for the node's row (R87, R90). -/
theorem EngineRun.boundary {c : Chip} {bank : Nat} {sc : Scan} (runs : runningBank c = some (bank, sc))
    (unmarked : sc.cancelMark = false) (noRequest : c.ccu.queue = []) {g : GridDef}
    (isRead : c.tcu.RowIsRead c.mpt.windows sc.grid sc.cursor g) :
    EngineRun .boundary c 2
      ((c.withBank bank (some { sc.widenRange sc.grid sc.cursor with phase := .nodeRow })).fetchingRow
        sc.grid sc.cursor g) := by
  refine .goesOn (next := .node) (d := c) ?_ (.waits ?_)
  · rw [engineAction_running runs .boundary nofun]
    simp [scanAction, boundaryAction, unmarked, preempted, noRequest]
  · rw [engineAction_running runs .node nofun]
    exact requestScanRow_waits runs isRead _ _

/-- The arrival list of an outcome begins with the row of its final peak (R99). -/
theorem EngineRun.arrival {c : Chip} {bank : Nat} {sc : Scan} (runs : runningBank c = some (bank, sc))
    {o : ScanOutcome} {p : Peak} (final : finalPeak sc o = some p) {g : GridDef}
    (isRead : c.tcu.RowIsRead c.mpt.windows p.grid p.node g) :
    EngineRun (.arrival o) c 1
      ((c.withBank bank (some { sc.widenRange p.grid p.node with phase := .listRow o })).fetchingRow
        p.grid p.node g) := by
  refine .waits ?_
  rw [engineAction_running runs (.arrival o) nofun]
  simp only [scanAction, arrivalAction, final]
  exact requestScanRow_waits runs isRead _ _

/-! ## The end of an access that its block acts on (R170, R171) -/

/-- The part as the block that asked finds it when its access has ended: the bus is free, and of a failure MPT has
recorded the fault and DLV has been asked to show it. -/
def Chip.accessEnded (a : Access) (x : Option (List Byte)) (c : Chip) : Chip :=
  { c with
    mpt := { (if x.isSome = true then c.mpt
        else c.mpt.record (faultSourceOf a.purpose) .bus a.addr c.lki.horizon) with onBus := none }
    dlv := if x.isSome = true then c.dlv else { c.dlv with faultUnshown := true }.ask }

/-- A failure in BOUND, LISTENING and STOPPING that does not halt the part is recorded and shown by DLV. -/
theorem recordFault_freeBus (a : Access) (c : Chip) (active : c.active = true) :
    recordFault (faultSourceOf a.purpose) .bus a.addr (freeBus c) = c.accessEnded a none := by
  let asking (m : Mpt) : Chip := askProgress { c with mpt := m, dlv := { c.dlv with faultUnshown := true } }
  calc
    _ = asking (({ c.mpt with onBus := none } : Mpt).record (faultSourceOf a.purpose) .bus a.addr c.lki.horizon) :=
      if_pos active
    _ = asking { c.mpt.record (faultSourceOf a.purpose) .bus a.addr c.lki.horizon with onBus := none } :=
      congrArg asking (Mpt.record_bus ..)
    _ = c.accessEnded a none := if_pos active

/-- The answer to a read that does not halt the part: the block acts on what the end of the access leaves, and the step
ends. -/
theorem answerRead_handled (isFor : Purpose → Bool) (handler : Access → Option (List Byte) → Chip → Chip) (c : Chip)
    (q : List Instr) (a : Access) (x : Option (List Byte)) (onBus : c.mpt.onBus = some a)
    (concerns : isFor a.purpose = true) (halts : haltSourceOf a.purpose = none)
    (length : ∀ b, x = some b → b.length = a.len) (active : x = none → c.active = true)
    (running : c.rgp.partState ≠ .faulted) :
    answerRead isFor handler (readAnswerOf x) ⟨c, q⟩ = .next ⟨concludeStep (handler a x (c.accessEnded a x)), q⟩ := by
  cases x with
  | some b =>
    rw [readAnswerOf, answerRead_data isFor handler c q a b onBus concerns (length b rfl),
      accessEnds_data handler a b c running]
    rfl
  | none =>
    rw [readAnswerOf, answerRead_error isFor handler c q a onBus concerns, accessEnds_error handler a c running,
      accessFails_recorded handler a _ halts, recordFault_freeBus a c (active rfl)]

@[simp] theorem accessEnded_windows (a : Access) (x : Option (List Byte)) (c : Chip) :
    (c.accessEnded a x).mpt.windows = c.mpt.windows := by
  cases x <;> simp [Chip.accessEnded]

/-- The fault records after an access has ended: one fault more after a failure. -/
theorem accessEnded_records {a : Access} {source : FaultSource} (of : faultSourceOf a.purpose = source)
    (x : Option (List Byte)) (c : Chip) :
    (c.accessEnded a x).mpt.records = (if x.isSome = true then c.mpt.records
        else (c.mpt.record source .bus a.addr c.lki.horizon).records) ∧
      (c.accessEnded a x).mpt.overflow = (if x.isSome = true then c.mpt.overflow
        else (c.mpt.record source .bus a.addr c.lki.horizon).overflow) := by
  cases x <;> simp [Chip.accessEnded, of]

/-- The end of a step that was not asked for a progress block write keeps DLV. -/
theorem concludeStep_dlv_of_notAsked {c : Chip} (notAsked : c.dlv.progressAsked = false) :
    (concludeStep c).dlv = c.dlv := by rw [concludeStep_of_notAsked c notAsked]

/-- The DLV that a failed access leaves is the one before, but for the fault shown, and asked to show it. -/
theorem accessEnded_asks (a : Access) (c : Chip) :
    Dlv.AsksOnly { c.dlv with faultUnshown := true } (c.accessEnded a none).dlv := Dlv.asksOnly_ask _

/-- What the answer to a read leaves that has SCE and TCU change and the RUNNING scan ask for a row: a failure recorded
and shown, the row requested, and otherwise the part as it was but for the bus. -/
theorem exec_fetchingRow {i : Instr} {c e : Chip} {q : List Instr} {a : Access} {x : Option (List Byte)}
    {grid node : Nat} {g : GridDef} {source : FaultSource} (of : faultSourceOf a.purpose = source)
    (active : x = none → c.active = true) (kept : e = { c.accessEnded a x with sce := e.sce, tcu := e.tcu })
    (next : exec i ⟨c, q⟩ = .next ⟨concludeStep (e.fetchingRow grid node g), q⟩) :
    ∃ d, exec i ⟨c, q⟩ = .next ⟨d, q⟩ ∧ d.sce = e.sce ∧
      d.tcu = { e.tcu with misses := countUp e.tcu.misses, fetch := some ⟨grid, node, true⟩ } ∧
      d.mpt.carries (readAccess (.row grid node) (g.ttBase + node * g.stride) 512) ∧
      (d.rgp = c.rgp ∧ d.lki = c.lki ∧ d.chc = c.chc ∧ d.ccu = c.ccu ∧ d.ord = c.ord) ∧
      (x.isSome = true → c.dlv.progressAsked = false → d.dlv = c.dlv) ∧ (x = none → c.dlv.onlyShows d.dlv) ∧
      c.dlv.keepsStreams d.dlv ∧ d.mpt.windows = c.mpt.windows ∧
      d.mpt.records =
        (if x.isSome = true then c.mpt.records else (c.mpt.record source .bus a.addr c.lki.horizon).records) ∧
      d.mpt.overflow =
        (if x.isSome = true then c.mpt.overflow else (c.mpt.record source .bus a.addr c.lki.horizon).overflow) := by
  generalize e.sce = sce, e.tcu = tcu at kept ⊢
  subst kept
  obtain ⟨records, overflow⟩ := accessEnded_records of x c
  refine ⟨_, next, by simp [Chip.fetchingRow], by simp [Chip.fetchingRow], ?_, ?_, fun data notAsked => ?_,
    fun failed => ?_, ?_, ?_, ?_, ?_⟩
  · exact concludeStep_carries _ _ ((request_carries ..).mpr (.inr rfl))
  · simp [Chip.fetchingRow, Chip.accessEnded]
  · obtain ⟨b, rfl⟩ := Option.isSome_iff_exists.mp data
    exact concludeStep_dlv_of_notAsked notAsked
  · subst failed
    have shows := concludeStep_onlyShows (before := { c.dlv with faultUnshown := true })
      (Chip.fetchingRow grid node g { c.accessEnded a none with sce := sce, tcu := tcu }) (active rfl)
      (accessEnded_asks a c)
    exact shows
  · cases x <;> simp [Dlv.keepsStreams, Chip.fetchingRow, Chip.accessEnded]
  · simp [Chip.fetchingRow]
  · simpa [Chip.fetchingRow] using records
  · simpa [Chip.fetchingRow] using overflow

end Sys2Proof.Machine
end

section
/-! SUPPORT. The answers that the RUNNING scan waits for from board memory: the row of its node or of its final peak
(R90, R99, R115 to R117), and the refine entry of its stage-1 peak (R96, R110). -/

namespace Sys2Proof.Machine

/-! ## A row in hand (R90, R99) -/

/-- A row with a channel to read begins the node's first pair. -/
theorem EngineRun.rowIn_reads {c : Chip} {bank : Nat} {sc : Scan} (runs : runningBank c = some (bank, sc))
    {row : List (BitVec 16)} {first : Nat} {met : Bool} (reads : nextReadFrom sc row 0 = (some first, met))
    (span : sc.spanFirst ≤ sc.spanLast) :
    EngineRun (.rowIn row) c 1 (c.withBank bank (some
      { sc.raise (raiseRange met) with phase := .stacking row sc.spanFirst first 0 0 0 })) := by
  refine .waits ?_
  rw [engineAction_running runs (.rowIn row) nofun]
  simp only [scanAction, rowAction, if_neg (Nat.not_lt.mpr span), reads, onScan_running runs]

/-- A row with a channel to read begins the arrival list. -/
theorem EngineRun.listRow_reads {c : Chip} {bank : Nat} {sc : Scan} (runs : runningBank c = some (bank, sc))
    {row : List (BitVec 16)} {first : Nat} {met : Bool} (reads : nextReadFrom sc row 0 = (some first, met))
    (o : ScanOutcome) :
    EngineRun (.listRow o row) c 1 (c.withBank bank (some
      { sc.raise (raiseRange met) with phase := .listing o row first [] })) := by
  refine .waits ?_
  rw [engineAction_running runs (.listRow o row) nofun]
  simp only [scanAction, listAction, reads, onScan_running runs]

/-- A scan at the boundary behind its node, RANGE raised when it was met. -/
def Scan.nextNode (met : Bool) (sc : Scan) : Scan :=
  { sc.raise (raiseRange met) with cursor := sc.cursor + 1, phase := .boundary }

/-- A row with no channel to read ends the node: with a node left the scan goes on to it, and waits for its row. -/
theorem EngineRun.rowIn_ends {c : Chip} {bank : Nat} {sc : Scan} (runs : runningBank c = some (bank, sc))
    {row : List (BitVec 16)} {met : Bool} (reads : nextReadFrom sc row 0 = (none, met))
    (span : sc.spanFirst ≤ sc.spanLast) (left : sc.cursor < sc.lastNode) (unmarked : sc.cancelMark = false)
    (noRequest : c.ccu.queue = []) {g : GridDef}
    (isRead : c.tcu.RowIsRead c.mpt.windows sc.grid (sc.cursor + 1) g) :
    EngineRun (.rowIn row) c 4 ((c.withBank bank (some
      { (sc.nextNode met).widenRange sc.grid (sc.cursor + 1) with phase := .nodeRow })).fetchingRow
        sc.grid (sc.cursor + 1) g) := by
  have raised := runningBank_withBank (x := sc.raise (raiseRange met)) runs rfl
  have moved := runningBank_withBank (x := sc.nextNode met) runs rfl
  have goesOn := EngineRun.boundary moved unmarked noRequest isRead
  rw [withBank_withBank] at goesOn
  have ends : engineAction (.rowIn row) c =
      (c.withBank bank (some (sc.raise (raiseRange met))), some .nodeEnd) := by
    rw [engineAction_running runs (.rowIn row) nofun]
    simp only [scanAction, rowAction, if_neg (Nat.not_lt.mpr span), reads, onScan_running runs]
  have moves : engineAction .nodeEnd (c.withBank bank (some (sc.raise (raiseRange met)))) =
      (c.withBank bank (some (sc.nextNode met)), some .boundary) := by
    rw [engineAction_running raised .nodeEnd nofun]
    simp only [scanAction, nodeEndAction, onScan_running raised, withBank_withBank]
    exact congrArg (Prod.mk _) (congrArg some (if_neg (Nat.not_le.mpr left)))
  exact .goesOn ends (.goesOn moves goesOn)

/-- The row of its node in hand, the RUNNING scan acts on it. -/
theorem rowArrived_nodeRow {c d : Chip} {bank n : Nat} {sc : Scan} {row : List (BitVec 16)}
    (runs : runningBank c = some (bank, sc)) (phase : sc.phase = .nodeRow) (run : EngineRun (.rowIn row) c n d)
    (few : n ≤ engineFuel) : rowArrived row c = d := by
  simp only [rowArrived, runs, phase, run.engine_eq few]

/-- The row of its final peak in hand, the RUNNING scan acts on it. -/
theorem rowArrived_listRow {c d : Chip} {bank n : Nat} {sc : Scan} {row : List (BitVec 16)} {o : ScanOutcome}
    (runs : runningBank c = some (bank, sc)) (phase : sc.phase = .listRow o) (run : EngineRun (.listRow o row) c n d)
    (few : n ≤ engineFuel) : rowArrived row c = d := by
  simp only [rowArrived, runs, phase, run.engine_eq few]

/-! ## A row fetch answered (R115 to R117) -/

/-- The row a fetch gives its scan: the row read, or NONE values after an error. -/
def rowGiven (x : Option (List Byte)) : List (BitVec 16) := (x.map parseRow).getD (List.replicate 256 0xFFFF)

/-- TCU after the row fetch in flight has been answered: a row that was read and not covered joins the end of the cache,
and a full cache drops its first for it. -/
def Tcu.fetchEnded (x : Option (List Byte)) (f : RowFetch) (t : Tcu) : Tcu :=
  { t with
    fetch := none
    cache := if f.keep = true ∧ x.isSome = true then
        (if t.cache.length < 64 then t.cache else t.cache.tail) ++ [⟨f.grid, f.node, rowGiven x⟩]
      else t.cache
    evictions := if f.keep = true ∧ x.isSome = true ∧ 64 ≤ t.cache.length then countUp t.evictions else t.evictions }

theorem endFetch_eq {t : Tcu} {f : RowFetch} (inFlight : t.fetch = some f) (x : Option (List Byte)) :
    t.endFetch (x.map parseRow) = t.fetchEnded x f := by
  cases x with
  | none => simp [Tcu.endFetch, Tcu.fetchEnded]
  | some b =>
    cases keep : f.keep with
    | false => simp [Tcu.endFetch, Tcu.fetchEnded, inFlight, keep]
    | true =>
      by_cases room : t.cache.length < 64
      · simp [Tcu.endFetch, Tcu.fetchEnded, rowGiven, inFlight, keep, Tcu.keepRow, cacheSize, room, Nat.not_le.mpr room]
      · simp [Tcu.endFetch, Tcu.fetchEnded, rowGiven, inFlight, keep, Tcu.keepRow, cacheSize, room, Nat.not_lt.mp room]

/-- A scan whose read has been answered: an error adds TABLE-FAULT. -/
def Scan.answered (x : Option (List Byte)) (sc : Scan) : Scan :=
  { sc with flags := { sc.flags with tableFault := sc.flags.tableFault || x.isNone } }

/-- An answered scan that waits for the row of its next node, written out. -/
theorem Scan.nextNode_answered (met : Bool) (x : Option (List Byte)) (sc : Scan) :
    { ((sc.answered x).nextNode met).widenRange (sc.answered x).grid ((sc.answered x).cursor + 1) with
      phase := .nodeRow } =
      { sc with
        flags := { sc.flags with range := sc.flags.range || met, tableFault := sc.flags.tableFault || x.isNone }
        cursor := sc.cursor + 1
        ranges := modifyAt (widen (sc.cursor + 1)) sc.ranges sc.grid
        phase := .nodeRow } := by
  simp only [Scan.answered, Scan.nextNode, Scan.raise, raiseRange, Scan.widenRange]

@[simp] theorem Scan.answered_some (b : List Byte) (sc : Scan) : sc.answered (some b) = sc := by simp [Scan.answered]

/-- The part as the RUNNING scan finds it when the row fetch has been answered. -/
def Chip.rowAnswered (a : Access) (x : Option (List Byte)) (f : RowFetch) (bank : Nat) (sc : Scan) (c : Chip) : Chip :=
  { c.accessEnded a x with tcu := c.tcu.fetchEnded x f }.withBank bank (some (sc.answered x))

theorem rowFetchAnswered_eq {c : Chip} {a : Access} {x : Option (List Byte)} {f : RowFetch} {bank : Nat} {sc : Scan}
    (inFlight : c.tcu.fetch = some f) (runs : runningBank c = some (bank, sc)) :
    rowFetchAnswered a x (c.accessEnded a x) = rowArrived (rowGiven x) (c.rowAnswered a x f bank sc) := by
  have ended : (c.accessEnded a x).onTcu (Tcu.endFetch (x.map parseRow)) =
      { c.accessEnded a x with tcu := c.tcu.fetchEnded x f } :=
    congrArg (fun t => { c.accessEnded a x with tcu := t }) (endFetch_eq inFlight x)
  have runs : runningBank { c.accessEnded a x with tcu := c.tcu.fetchEnded x f } = some (bank, sc) := runs
  cases x with
  | some b =>
    have same := withBank_self runs
    rw [Chip.rowAnswered, Scan.answered_some, same, ← ended]
    rfl
  | none =>
    simp only [rowFetchAnswered, Option.map_none] at ended ⊢
    simp only [ended, faultRunning, runs, onScan_running runs]
    congr 1
    simp [Chip.rowAnswered, Scan.answered, Scan.raise, raiseFault]

/-- ROW_FETCH_DONE has the row arrive at the RUNNING scan. -/
theorem exec_rowFetchDone {c : Chip} {a : Access} {x : Option (List Byte)} {f : RowFetch} {bank grid node : Nat}
    {sc : Scan} (q : List Instr) (onBus : c.mpt.onBus = some a) (purpose : a.purpose = .row grid node)
    (length : ∀ b, x = some b → b.length = a.len) (active : x = none → c.active = true)
    (running : c.rgp.partState ≠ .faulted) (inFlight : c.tcu.fetch = some f)
    (runs : runningBank c = some (bank, sc)) :
    exec (.rowFetchDone (readAnswerOf x)) ⟨c, q⟩ =
      .next ⟨concludeStep (rowArrived (rowGiven x) (c.rowAnswered a x f bank sc)), q⟩ := by
  rw [← rowFetchAnswered_eq inFlight runs]
  exact answerRead_handled isRow _ c q a x onBus (purpose ▸ rfl) (purpose ▸ rfl) length active running

/-- The scan that the answer leaves RUNNING. -/
theorem runningBank_rowAnswered {c : Chip} {bank : Nat} {sc : Scan} (runs : runningBank c = some (bank, sc))
    (a : Access) (x : Option (List Byte)) (f : RowFetch) :
    runningBank (c.rowAnswered a x f bank sc) = some (bank, sc.answered x) :=
  runningBank_withBank (c := { c.accessEnded a x with tcu := c.tcu.fetchEnded x f }) runs rfl

@[simp] theorem rowAnswered_windows (a : Access) (x : Option (List Byte)) (f : RowFetch) (bank : Nat) (sc : Scan)
    (c : Chip) : (c.rowAnswered a x f bank sc).mpt.windows = c.mpt.windows := accessEnded_windows a x c

/-- The RUNNING scan that a row has reached changes. -/
@[simp] theorem rowAnswered_withBank (a : Access) (x : Option (List Byte)) (f : RowFetch) (bank : Nat) (sc : Scan)
    (y : Option Scan) (c : Chip) : (c.rowAnswered a x f bank sc).withBank bank y =
      { c.accessEnded a x with tcu := c.tcu.fetchEnded x f }.withBank bank y := withBank_withBank ..

/-- A row read with data, and the RUNNING scan changed: nothing else but TCU and the bus. -/
theorem rowAnswered_data (a : Access) (b : List Byte) (f : RowFetch) (bank : Nat) (sc y : Scan) (c : Chip)
    (notAsked : c.dlv.progressAsked = false) :
    let d := concludeStep ((c.rowAnswered a (some b) f bank sc).withBank bank (some y))
    d.sce = { c.sce with banks := c.sce.banks.set bank (some y) } ∧ d.tcu = c.tcu.fetchEnded (some b) f ∧
      d.rgp = c.rgp ∧ d.lki = c.lki ∧ d.chc = c.chc ∧ d.ccu = c.ccu ∧ d.ord = c.ord ∧ d.dlv = c.dlv ∧
      d.mpt.windows = c.mpt.windows ∧ d.mpt.records = c.mpt.records ∧ d.mpt.overflow = c.mpt.overflow := by
  have ended := concludeStep_of_notAsked ((c.rowAnswered a (some b) f bank sc).withBank bank (some y)) notAsked
  simp only [ended]
  rw [rowAnswered_withBank]
  refine ⟨rfl, rfl, rfl, rfl, rfl, rfl, rfl, rfl, ?_⟩
  simp [Chip.withBank, Chip.accessEnded]

/-! ## A refine entry answered (R96, R110) -/

/-- REFINE_READ_DONE has the engine go on with the entry. -/
theorem exec_refineReadDone {c : Chip} {a : Access} {x : Option (List Byte)} {bank grid node n : Nat} {sc : Scan}
    {e : Chip} (q : List Instr) (onBus : c.mpt.onBus = some a) (purpose : a.purpose = .refine grid node)
    (length : ∀ b, x = some b → b.length = a.len) (active : x = none → c.active = true)
    (running : c.rgp.partState ≠ .faulted) (runs : runningBank c = some (bank, sc)) (phase : sc.phase = .refineEntry)
    (run : EngineRun (.refined (x.map parseRefine)) (c.accessEnded a x) n e) (few : n ≤ engineFuel) :
    exec (.refineReadDone (readAnswerOf x)) ⟨c, q⟩ = .next ⟨concludeStep e, q⟩ := by
  have runs : runningBank (c.accessEnded a x) = some (bank, sc) := runs
  have answered : refineAnswered a x (c.accessEnded a x) = e := by
    simp only [refineAnswered, runs, if_pos phase, run.engine_eq few]
  rw [← answered]
  exact answerRead_handled isRefine _ c q a x onBus (purpose ▸ rfl) (purpose ▸ rfl) length active running

/-- The four conditions of R96 hold: stage 2 runs on the child grid. -/
theorem refineGrid_eq_some {c : Chip} {stage1Grid : Nat} {e : RefineEntry} {g : GridDef} (count : e.count ≠ 0)
    (child : e.child ≤ 3) (other : e.child ≠ stage1Grid) (defined : gridDefn c.tcu.grids e.child = some g)
    (range : e.first + e.count ≤ g.nodeCount) : refineGrid c stage1Grid e = some g := by
  simp [refineGrid, count, Nat.not_lt.mpr child, other, defined, range]

/-- One of them fails: stage 2 does not run. -/
theorem refineGrid_eq_none {c : Chip} {stage1Grid : Nat} {e : RefineEntry}
    (fails : e.count = 0 ∨ 3 < e.child ∨ e.child = stage1Grid ∨ gridDefn c.tcu.grids e.child = none ∨
      ∃ g, gridDefn c.tcu.grids e.child = some g ∧ g.nodeCount < e.first + e.count) :
    refineGrid c stage1Grid e = none := by
  unfold refineGrid
  split
  case isTrue => rfl
  case isFalse entry =>
    rcases fails with count | child | same | undefined | ⟨g, defined, beyond⟩
    · exact absurd (.inl count) entry
    · exact absurd (.inr (.inl child)) entry
    · exact absurd (.inr (.inr same)) entry
    · rw [undefined]
    · simp [defined, Nat.not_le.mpr beyond]

/-- The part with one stage-2 run more. -/
def Chip.countStage2 (c : Chip) : Chip := c.onSce fun e => { e with stage2Runs := countUp e.stage2Runs }

/-- Stage 2 begins at a node boundary, and waits for the row of its first node. -/
theorem EngineRun.refined_runs {c : Chip} {bank : Nat} {sc : Scan} (runs : runningBank c = some (bank, sc))
    {e : RefineEntry} {g : GridDef} (conditions : refineGrid c sc.grid e = some g) (unmarked : sc.cancelMark = false)
    (noRequest : c.ccu.queue = []) (isRead : c.tcu.RowIsRead c.mpt.windows e.child e.first g) :
    EngineRun (.refined (some e)) c 3 ((c.countStage2.withBank bank (some
      { (stage2Setup e g (stage1Time sc) sc).widenRange e.child e.first with phase := .nodeRow })).fetchingRow
        e.child e.first g) := by
  have setUp := runningBank_withBank (c := c.countStage2) (x := stage2Setup e g (stage1Time sc) sc) runs
    rfl
  have goesOn := EngineRun.boundary setUp unmarked noRequest isRead
  rw [withBank_withBank] at goesOn
  refine .goesOn ?_ goesOn
  rw [engineAction_running runs (.refined (some e)) nofun]
  simp only [scanAction, refinedAction, conditions, onScan_running runs]
  rfl

/-- A scan that stays with its stage-1 peak: UNREFINED, and TABLE-FAULT after an error. -/
def Scan.unrefined (x : Option (List Byte)) (sc : Scan) : Scan := (sc.answered x).raise raiseUnrefined

/-- Such a scan that waits for a row, written out. -/
theorem Scan.unrefined_widenRange (x : Option (List Byte)) (grid node : Nat) (phase : ScanPhase) (sc : Scan) :
    { (sc.unrefined x).widenRange grid node with phase := phase } =
      { sc with
        flags := { sc.flags with unrefined := true, tableFault := sc.flags.tableFault || x.isNone }
        ranges := modifyAt (widen node) sc.ranges grid
        phase := phase } := by
  simp only [Scan.unrefined, Scan.answered, Scan.raise, raiseUnrefined, Scan.widenRange]

/-- Without stage 2 the scan asks for the row of its stage-1 peak, for the arrival list. -/
theorem EngineRun.refined_fails {c : Chip} {bank : Nat} {sc : Scan} (runs : runningBank c = some (bank, sc))
    {x : Option (List Byte)} (fails : ∀ e, x.map parseRefine = some e → refineGrid c sc.grid e = none) {p : Peak}
    (peak : sc.stage1 = some p) {g : GridDef} (isRead : c.tcu.RowIsRead c.mpt.windows p.grid p.node g) :
    EngineRun (.refined (x.map parseRefine)) c 2 ((c.withBank bank (some
      { (sc.unrefined x).widenRange p.grid p.node with phase := .listRow .located })).fetchingRow
        p.grid p.node g) := by
  have stays := runningBank_withBank (x := sc.unrefined x) runs rfl
  have goesOn := EngineRun.arrival (o := .located) (p := p) stays peak isRead
  rw [withBank_withBank] at goesOn
  refine .goesOn ?_ goesOn
  rw [engineAction_running runs (.refined (x.map parseRefine)) nofun]
  cases x with
  | some b =>
    simp only [Option.map_some, scanAction, refinedAction, fails _ rfl, onScan_running runs, Scan.unrefined,
      Scan.answered_some]
  | none =>
    simp [scanAction, refinedAction, onScan_running runs, Scan.unrefined, Scan.answered, Scan.raise, raiseUnrefined,
      raiseFault]

end Sys2Proof.Machine
end

section
/-! PROOFS. The statements about the row fetch and the refine entry that the RUNNING scan waits for (R90, R96, R97, R99,
R110, R113 to R117, R171). -/

namespace Sys2Proof.Machine

/-- Settles O32: the answer leaves the scan with its row, and the engine begins the first read of it, or ends the node
and requests the next row. -/
theorem rowFetchServesTheNode : Obligations.RowFetchServesTheNode := by
  intro c q a x grid node bank f sc met onBus purpose length active running notAsked inFlight runs row cache evictions
  have answered := exec_rowFetchDone q onBus purpose length active running inFlight runs
  have waits := runningBank_rowAnswered runs a x f
  refine ⟨fun first data reads => ?_, fun g reads phase span left unmarked noRequest defined within absent passes => ?_⟩
  · obtain ⟨b, rfl⟩ := Option.isSome_iff_exists.mp data
    rw [Scan.answered_some] at waits
    have reads : nextReadFrom sc (rowGiven (some b)) 0 = (some first, met) := reads
    refine ⟨fun phase span => ⟨_, answered, ?_⟩, fun o phase => ⟨_, answered, ?_⟩⟩
    · rw [rowArrived_nodeRow waits phase (.rowIn_reads waits reads span) (by decide)]
      exact rowAnswered_data a b f bank sc _ c notAsked
    · rw [rowArrived_listRow waits phase (.listRow_reads waits reads o) (by decide)]
      exact rowAnswered_data a b f bank sc _ c notAsked
  · have isRead :
        (c.tcu.fetchEnded x f).RowIsRead (c.rowAnswered a x f bank sc).mpt.windows sc.grid (sc.cursor + 1) g :=
      ⟨defined, within, absent, by rwa [rowAnswered_windows]⟩
    have run := EngineRun.rowIn_ends (row := rowGiven x) (met := met) waits reads span left unmarked noRequest isRead
    rw [rowArrived_nodeRow waits phase run (by decide), rowAnswered_withBank, Scan.nextNode_answered] at answered
    obtain ⟨d, next, sce, tcu, carries, ⟨rgp, lki, chc, ccu, ord⟩, dlv, shows, -, mpt⟩ :=
      exec_fetchingRow (source := .rows) (purpose ▸ rfl) active rfl answered
    exact ⟨d, next, sce, tcu, carries, rgp, lki, chc, ccu, ord, fun data => dlv data notAsked, shows, mpt⟩

/-- Settles O33: stage 2 is set up and begins at a node boundary, or the scan raises UNREFINED and goes on to its
arrival list. -/
theorem refineEntryStartsStageTwo : Obligations.RefineEntryStartsStageTwo := by
  intro c q a x grid node bank sc p onBus purpose length active running runs phase peak unmarked noRequest b child first
    count
  have time : stage1Time sc = p.t0 := by rw [stage1Time, peak]; rfl
  refine ⟨fun g data counted child_le other defined range absent passes => ?_,
    fun g fails defined within absent passes => ?_⟩
  · obtain ⟨bytes, rfl⟩ := Option.isSome_iff_exists.mp data
    have conditions : refineGrid (c.accessEnded a (some bytes)) sc.grid (parseRefine bytes) = some g :=
      refineGrid_eq_some counted child_le other defined range
    have isRead : c.tcu.RowIsRead (c.accessEnded a (some bytes)).mpt.windows child first g :=
      ⟨defined, by omega, absent, by rwa [accessEnded_windows]⟩
    have run := EngineRun.refined_runs (c := c.accessEnded a (some bytes)) runs conditions unmarked noRequest isRead
    have answered := exec_refineReadDone q onBus purpose length active running runs phase run (by decide)
    rw [time] at answered
    obtain ⟨d, next, sce, tcu, carries, ⟨rgp, lki, chc, ccu, ord⟩, -, -, streams, mpt⟩ :=
      exec_fetchingRow (source := .refine) (purpose ▸ rfl) active rfl answered
    exact ⟨d, next, sce, tcu, carries, rgp, lki, chc, ccu, ord, streams, mpt⟩
  · have noStage2 : ∀ e, x.map parseRefine = some e → refineGrid (c.accessEnded a x) sc.grid e = none := by
      intro e entry
      obtain ⟨bytes, rfl, rfl⟩ := Option.map_eq_some_iff.mp entry
      exact refineGrid_eq_none (fails.resolve_left nofun)
    have isRead : c.tcu.RowIsRead (c.accessEnded a x).mpt.windows p.grid p.node g :=
      ⟨defined, within, absent, by rwa [accessEnded_windows]⟩
    have run := EngineRun.refined_fails (c := c.accessEnded a x) runs noStage2 peak isRead
    have answered := exec_refineReadDone q onBus purpose length active running runs phase run (by decide)
    rw [Scan.unrefined_widenRange] at answered
    obtain ⟨d, next, sce, tcu, carries, ⟨rgp, lki, chc, ccu, ord⟩, -, shows, streams, mpt⟩ :=
      exec_fetchingRow (source := .refine) (purpose ▸ rfl) active rfl answered
    exact ⟨d, next, sce, tcu, carries, rgp, lki, chc, ccu, ord, streams, fun failed => (shows failed).1, mpt⟩

end Sys2Proof.Machine
end

section
/-! PROOFS. The statement about a row request: the row at once, a read, or a read that fails its window check (R109,
R114, R116, R168). -/

namespace Sys2Proof.Machine

theorem requestRow_undefined {c : Chip} {grid : Nat} (node : Nat) (undefined : gridDefn c.tcu.grids grid = none) :
    requestRow grid node c = (c, .beyond) := by
  simp only [requestRow, undefined]

theorem requestRow_beyond {c : Chip} {grid node : Nat} {g : GridDef} (defined : gridDefn c.tcu.grids grid = some g)
    (beyond : g.nodeCount ≤ node) : requestRow grid node c = (c, .beyond) := by
  simp only [requestRow, defined, if_pos beyond]

/-- A hit gives the row of the cache and moves its entry to the end. -/
theorem requestRow_hit {c : Chip} {grid node : Nat} {g : GridDef} {e : CacheEntry}
    (defined : gridDefn c.tcu.grids grid = some g) (within : node < g.nodeCount)
    (hit : c.tcu.cache.find? (CacheEntry.isFor grid node) = some e) :
    requestRow grid node c =
      ({ c with tcu := { c.tcu with
          cache := c.tcu.cache.filter (fun x => !CacheEntry.isFor grid node x) ++ [e]
          hits := countUp c.tcu.hits } }, .row e.row) := by
  obtain ⟨rfl, rfl⟩ : e.grid = grid ∧ e.node = node := by
    simpa [CacheEntry.isFor] using List.find?_some hit
  simp only [requestRow, defined, if_neg (Nat.not_le.mpr within), hit]
  rfl

/-- The part with a miss counted. -/
def Chip.missed (c : Chip) : Chip := c.onTcu fun t => { t with misses := countUp t.misses }

/-- A miss whose read fails the window check counts as one and records the fault. -/
theorem requestRow_faulted {c : Chip} {grid node : Nat} {g : GridDef}
    (defined : gridDefn c.tcu.grids grid = some g) (within : node < g.nodeCount)
    (absent : c.tcu.cache.find? (CacheEntry.isFor grid node) = none)
    (fails : accessPasses c.mpt.windows (readAccess (.row grid node) (g.ttBase + node * g.stride) 512) = false) :
    requestRow grid node c =
      (recordFault .rows .windowRead (g.ttBase + node * g.stride) c.missed, .faulted) := by
  simp only [requestRow, defined, if_neg (Nat.not_le.mpr within), absent]
  exact if_neg (Bool.eq_false_iff.mp fails)

/-- MPT keeps the record of a fault in every part state. -/
theorem recordFault_mpt (src : FaultSource) (kind : FaultKind) (addr : Nat) (c : Chip) :
    (recordFault src kind addr c).mpt = c.mpt.record src kind addr c.lki.horizon := by
  unfold recordFault
  split <;> simp [recordFaultNow]

/-- A recorded fault is shown by DLV in BOUND, LISTENING and STOPPING, and raised at once elsewhere (R173). -/
theorem recordFault_shown (src : FaultSource) (kind : FaultKind) (addr : Nat) (c : Chip) :
    (c.active = false → (recordFault src kind addr c).raised causeFault) ∧
      (c.active = true → (recordFault src kind addr c).dlv.faultUnshown = true) := by
  refine ⟨fun inactive => ?_, fun active => by simp [recordFault, active]⟩
  rw [recordFault_inactive _ _ _ _ inactive]
  exact recordFaultNow_raised ..

/-- Settles O35: a request is answered by its grid, its node, the cache and the window check, in that order. -/
theorem rowRequestsOfAnAbsentRow : Obligations.RowRequestsOfAnAbsentRow := by
  intro c grid node
  refine ⟨requestRow_undefined node, fun g defined => ⟨requestRow_beyond defined, fun within =>
    ⟨fun e hit => requestRow_hit defined within hit, fun absent =>
      ⟨fun passes => requestRow_of_isRead ⟨defined, within, absent, passes⟩, fun fails => ?_⟩⟩⟩⟩
  rw [requestRow_faulted defined within absent fails]
  have shown := recordFault_shown .rows .windowRead (g.ttBase + node * g.stride) c.missed
  exact ⟨rfl, by simp [Chip.missed], recordFault_mpt .., shown⟩

end Sys2Proof.Machine
end

section
/-! SUPPORT. The reloads of the tables: the end of an access that a reload made (R170, R171, R173), the report of its
order (R118, R126, R130, R138), and the grids that a GRIDDEFS reload leaves (R120). -/

namespace Sys2Proof.Machine

/-! ## A progress block write that is to follow (R164) -/

/-- DLV has asked for a progress block write, whatever else it has done. -/
def Dlv.Asks (before after : Dlv) : Prop :=
  after.progress = before.progress ∧ (before.progress.isSome = true ∨ after.progressAsked = true) ∧
    (before.progress.isSome = true → after.rewrite = true)

theorem Dlv.AsksOnly.asks {before after : Dlv} (h : before.AsksOnly after) : before.Asks after :=
  ⟨by rw [h.1], h.2⟩

/-- What has been asked for stays so while the asking and the rewrite mark are not taken back. -/
theorem Dlv.Asks.mono {before d e : Dlv} (h : before.Asks d) (progress : e.progress = d.progress)
    (asked : d.progressAsked = true → e.progressAsked = true) (rewrite : d.rewrite = true → e.rewrite = true) :
    before.Asks e :=
  ⟨progress.trans h.1, h.2.1.imp_right asked, fun inFlight => rewrite (h.2.2 inFlight)⟩

theorem askProgress_asks {before : Dlv} {c : Chip} (h : before.Asks c.dlv) : before.Asks (askProgress c).dlv := by
  unfold askProgress
  split
  · exact h.mono (by simp) (by simp +contextual) (by simp +contextual)
  · exact h

/-- A write asked for in BOUND, LISTENING or STOPPING is shown after the step. -/
theorem concludeStep_showsNext {before : Dlv} {c : Chip} (active : c.active = true) (asks : before.Asks c.dlv) :
    before.showsNext (concludeStep c).dlv := by
  obtain ⟨progress, due, again⟩ := asks
  exact ⟨concludeStep_progress c (due.imp (progress ▸ ·) (⟨active, ·⟩)), fun inFlight => by simp [again inFlight]⟩

/-! ## The end of an access in any part state but FAULTED (R170, R171, R173) -/

/-- The part as the block that asked finds it: the bus is free, and a failure has been recorded. -/
def Chip.answered (a : Access) (x : Option (List Byte)) (c : Chip) : Chip :=
  match x with
  | some _ => freeBus c
  | none => recordFault (faultSourceOf a.purpose) .bus a.addr (freeBus c)

/-- The answer to a read that does not halt the part. -/
theorem answerRead_answered (isFor : Purpose → Bool) (handler : Access → Option (List Byte) → Chip → Chip) {c : Chip}
    (q : List Instr) {a : Access} {x : Option (List Byte)} (onBus : c.mpt.onBus = some a)
    (concerns : isFor a.purpose = true) (halts : haltSourceOf a.purpose = none)
    (length : ∀ b, x = some b → b.length = a.len) (running : c.rgp.partState ≠ .faulted) :
    answerRead isFor handler (readAnswerOf x) ⟨c, q⟩ = .next ⟨concludeStep (handler a x (c.answered a x)), q⟩ := by
  cases x with
  | some b =>
    rw [readAnswerOf, answerRead_data isFor handler c q a b onBus concerns (length b rfl),
      accessEnds_data handler a b c running]
    rfl
  | none =>
    rw [readAnswerOf, answerRead_error isFor handler c q a onBus concerns, accessEnds_error handler a c running,
      accessFails_recorded handler a _ halts]
    rfl

/-- What the end of an access keeps: all but CAUSE, the memory port, and what DLV shows of a fault. -/
@[simp] theorem answered_frame (a : Access) (x : Option (List Byte)) (c : Chip) :
    (c.answered a x).rgp.layout = c.rgp.layout ∧ (c.answered a x).lki = c.lki ∧ (c.answered a x).chc = c.chc ∧
      (c.answered a x).ccu = c.ccu ∧ (c.answered a x).sce = c.sce ∧ (c.answered a x).tcu = c.tcu ∧
      (c.answered a x).ord = c.ord ∧ (c.answered a x).dlv.pick = c.dlv.pick ∧
      (c.answered a x).dlv.event = c.dlv.event ∧ (c.answered a x).dlv.pendingEvents = c.dlv.pendingEvents ∧
      (c.answered a x).dlv.counters = c.dlv.counters ∧ (c.answered a x).mpt.windows = c.mpt.windows ∧
      (c.answered a x).active = c.active := by
  cases x <;> simp [Chip.answered]

/-- The fault records after the end of an access: one fault more after a failure. -/
theorem answered_records {a : Access} {source : FaultSource} (of : faultSourceOf a.purpose = source)
    (x : Option (List Byte)) (c : Chip) :
    (c.answered a x).mpt.records = (if x.isSome = true then c.mpt.records
        else (c.mpt.record source .bus a.addr c.lki.horizon).records) ∧
      (c.answered a x).mpt.overflow = (if x.isSome = true then c.mpt.overflow
        else (c.mpt.record source .bus a.addr c.lki.horizon).overflow) := by
  cases x with
  | some b => simp [Chip.answered]
  | none =>
    have recorded : (c.answered a none).mpt = { c.mpt.record source .bus a.addr c.lki.horizon with onBus := none } := by
      rw [Chip.answered, recordFault_mpt, of]
      exact Mpt.record_bus ..
    simp [recorded]

/-- A failure in BOUND, LISTENING and STOPPING is recorded and shown by DLV. -/
theorem answered_none (a : Access) {c : Chip} (active : c.active = true) : c.answered a none = c.accessEnded a none :=
  recordFault_freeBus a c active

/-- RGP is told of a failure outside BOUND, LISTENING and STOPPING alone. -/
theorem answered_rgp {x : Option (List Byte)} (a : Access) {c : Chip} (active : x = none → c.active = true) :
    (c.answered a x).rgp = c.rgp := by
  cases x with
  | some b => rfl
  | none => rw [answered_none a (active rfl), Chip.accessEnded]

/-- A failure in BOUND, LISTENING and STOPPING asks for a progress block write. -/
theorem answered_asks (a : Access) {c : Chip} (active : c.active = true) : c.dlv.Asks (c.answered a none).dlv := by
  rw [answered_none a active]
  exact (accessEnded_asks a c).asks

/-! ## The report of an INVALIDATE order (R126, R130, R138) -/

theorem writeDone_carries (slot : Nat) (seq : BitVec 8) (r : SlotResult) (c : Chip) (x : Access)
    (written : x ∈ slotAccesses c.layout slot seq true r) : (writeDone slot seq r c).mpt.carries x := by
  have mpt : (writeDone slot seq r c).mpt = (writeSlot slot seq true r c).mpt := by simp [writeDone]
  rw [mpt, writeSlot, requestAll_carries]
  exact .inr written

theorem writeDone_openOrders (slot : Nat) (seq : BitVec 8) (r : SlotResult) (c : Chip) :
    (writeDone slot seq r c).ord.openOrders = c.ord.openOrders.filter fun e => e.slot != slot := by
  simp [writeDone, closeOrder]

theorem writeDone_asks {before : Dlv} {c : Chip} (slot : Nat) (seq : BitVec 8) (r : SlotResult)
    (h : before.Asks c.dlv) : before.Asks (writeDone slot seq r c).dlv := by
  have written : before.Asks ((writeSlot slot seq true r c).onOrd (closeOrder slot)).dlv := by simpa using h
  unfold writeDone askOutsideRun
  split
  · exact written
  · exact askProgress_asks written

theorem beginPoll_carries (c : Chip) (x : Access) (h : c.mpt.carries x) : (beginPoll c).mpt.carries x := by
  have read := beginReturnRead_carries c x h
  unfold beginPoll
  dsimp only
  repeat' split
  · exact h
  · exact read
  · exact (readTable_carries ..).mpr (.inl read)
  · exact h

theorem beginPoll_asks {before : Dlv} {c : Chip} (h : before.Asks c.dlv) : before.Asks (beginPoll c).dlv :=
  h.mono (by simp) (by simp) (by simp)

/-- ORD writes the slot of a reported order DONE, and the slot leaves the open-order list. -/
theorem reportInval_done (slot : Nat) (seq : BitVec 8) (r : SlotResult) (c : Chip) :
    (∀ x ∈ slotAccesses c.layout slot seq true r, (reportInval slot seq r c).mpt.carries x) ∧
      (reportInval slot seq r c).ord.openOrders = c.ord.openOrders.filter fun e => e.slot != slot := by
  unfold reportInval
  split
  · refine ⟨fun x written => beginPoll_carries _ x (writeDone_carries _ _ _ _ x written), ?_⟩
    simp [writeDone_openOrders]
  · exact ⟨writeDone_carries slot seq r c, writeDone_openOrders ..⟩

theorem reportInval_asks {before : Dlv} {c : Chip} (slot : Nat) (seq : BitVec 8) (r : SlotResult)
    (h : before.Asks c.dlv) : before.Asks (reportInval slot seq r c).dlv := by
  unfold reportInval
  split
  · exact beginPoll_asks (writeDone_asks slot seq r h)
  · exact writeDone_asks slot seq r h

/-! ## The end of a reload with no order waiting (R118, R126) -/

/-- The order is reported, when it can be, and nothing else follows. -/
theorem endReload_alone (o : InvalOrder) (r : SlotResult) {c : Chip} (alone : c.tcu.waiting = []) :
    endReload o (some r) c = reportInval o.slot o.seq r (c.onTcu fun t => { t with reload := none }) := by
  have nothingTaken (d : Chip) (h : d.tcu.waiting = []) : takeWaiting d.tcu.waiting d = d := by
    rw [h, takeWaiting, Chip.onTcu, ← h]
  exact nothingTaken _ (by simpa using alone)

/-- What the step that ends a reload with no order waiting leaves beside its frame: the banks, the reload over and
nothing else of the tables changed, and a progress block write that has been asked for. -/
structure Chip.EndsReload (c d : Chip) : Prop where
  sce : d.sce = c.sce
  tcu : d.tcu = { c.tcu with reload := none }
  shows : ∀ before : Dlv, before.Asks c.dlv → c.active = true → before.showsNext d.dlv

theorem concludeStep_endReload (o : InvalOrder) (report : Option SlotResult) {c : Chip} (alone : c.tcu.waiting = []) :
    c.EndsReload (concludeStep (endReload o report c)) := by
  cases report with
  | none =>
    exact ⟨by simp [endReload], by simp [endReload], fun before asks active =>
      concludeStep_showsNext (c := c.onTcu fun t => { t with reload := none }) active asks⟩
  | some r =>
    rw [endReload_alone o r alone]
    exact ⟨by simp, by simp, fun before asks active =>
      concludeStep_showsNext (by simpa [Chip.active] using active) (reportInval_asks _ _ _ asks)⟩

/-- A reported order is written DONE. -/
theorem concludeStep_endReload_done (o : InvalOrder) (r : SlotResult) {c : Chip} (alone : c.tcu.waiting = []) :
    (∀ x ∈ slotAccesses c.layout o.slot o.seq true r, (concludeStep (endReload o (some r) c)).mpt.carries x) ∧
      (concludeStep (endReload o (some r) c)).ord.openOrders = c.ord.openOrders.filter fun e => e.slot != o.slot := by
  obtain ⟨carries, closed⟩ := reportInval_done o.slot o.seq r (c.onTcu fun t => { t with reload := none })
  rw [endReload_alone o r alone]
  exact ⟨fun x written => concludeStep_carries _ x (carries x written), by simpa using closed⟩

/-! ## The report of a row scope (R124 to R126) -/

/-- A drained order that has marked a bank is held as a drain set. -/
theorem settleRowScope_held {o : InvalOrder} {numbers : List Nat} (r : SlotResult) (c : Chip)
    (held : o.drain = true ∧ numbers ≠ []) :
    settleRowScope o numbers r c = (c.onTcu fun t => { t with drain := some ⟨o, numbers, r⟩ }, none) :=
  if_pos (by simpa using held)

/-- Any other order is reported at once. -/
theorem settleRowScope_reported {o : InvalOrder} {numbers : List Nat} (r : SlotResult) (c : Chip)
    (reported : ¬ (o.drain = true ∧ numbers ≠ [])) : settleRowScope o numbers r c = (c, some r) :=
  if_neg (by simpa using reported)

/-! ## The grids of a GRIDDEFS reload (R120) -/

/-- A record that was read is judged, and one whose read failed is kept. -/
theorem reloadedGrids_getElem? (got : List (Option (List Byte))) (old : List GridRecord) (n : Nat)
    (few : got.length ≤ old.length) :
    (∀ y, got[n]? = some (some y) → (reloadedGrids got old)[n]? = some (judgeGrid y)) ∧
      (got[n]? = some none → (reloadedGrids got old)[n]? = old[n]?) := by
  induction got generalizing old n with
  | nil => simp
  | cons x got ih =>
    cases old with
    | nil => simp at few
    | cons r old =>
      cases n with
      | zero => cases x <;> simp [reloadedGrids]
      | succ n => cases x <;> simpa [reloadedGrids] using ih old n (by simpa using few)

/-- The records that a GRIDDEFS reload leaves. -/
def Reload.newGrids (r : Reload) (old : List GridRecord) : List GridRecord := reloadedGrids r.got old

/-- The rows that a GRIDDEFS reload drops: those of each changed grid. -/
def Reload.changes (r : Reload) (old : List GridRecord) : RowScope := .griddefs (changedGrids old (r.newGrids old))

/-- The part with the records of a GRIDDEFS reload, the rows of the changed grids dropped, and the invalidation
counted. -/
def Chip.gridsReloaded (r : Reload) (c : Chip) : Chip :=
  countInvalidation
    (performRowScope (r.changes c.tcu.grids) (c.onTcu fun t => { t with grids := r.newGrids c.tcu.grids }))

/-- The numbers of the banks that a GRIDDEFS reload marks. -/
def Reload.marks (r : Reload) (c : Chip) : List Nat := markedNumbers (r.changes c.tcu.grids) c.tcu.fetch c.sce.banks

/-- The result of a GRIDDEFS reload (R126). -/
def Reload.gridsResult (r : Reload) (c : Chip) : SlotResult :=
  ⟨if r.got.any Option.isNone = true then 10 else 1, 4, (r.marks c).length,
    gridBits (changedGrids c.tcu.grids (r.newGrids c.tcu.grids)) + 16 * gridBits (failedReads r.got)⟩

/-- What a GRIDDEFS reload changes before its order is reported: the tables and the banks. -/
@[simp] theorem gridsReloaded_frame (r : Reload) (c : Chip) :
    (c.gridsReloaded r).rgp = c.rgp ∧ (c.gridsReloaded r).mpt = c.mpt ∧ (c.gridsReloaded r).lki = c.lki ∧
      (c.gridsReloaded r).chc = c.chc ∧ (c.gridsReloaded r).ccu = c.ccu ∧
      (c.gridsReloaded r).sce = { c.sce with banks := markBanks (r.changes c.tcu.grids) c.tcu.fetch c.sce.banks } ∧
      (c.gridsReloaded r).tcu = { c.tcu.dropRows (r.changes c.tcu.grids) with
        grids := r.newGrids c.tcu.grids
        invalidations := countUp c.tcu.invalidations } ∧
      (c.gridsReloaded r).ord = c.ord ∧ (c.gridsReloaded r).dlv = c.dlv ∧ (c.gridsReloaded r).active = c.active := by
  and_intros <;> rfl

/-- What the step that ends a GRIDDEFS reload leaves of the tables, the banks, the order and the progress block
write. -/
structure Chip.ReloadsGrids (r : Reload) (c d : Chip) : Prop where
  sce : d.sce = { c.sce with banks := markBanks (r.changes c.tcu.grids) c.tcu.fetch c.sce.banks }
  grids : d.tcu.grids = r.newGrids c.tcu.grids
  cache : d.tcu.cache = c.tcu.cache.filter fun e => !(r.changes c.tcu.grids).covers e.grid e.node
  dropped : d.tcu.dropped = addCount c.tcu.dropped (coveredRows (r.changes c.tcu.grids) c.tcu.cache)
  invalidations : d.tcu.invalidations = countUp c.tcu.invalidations
  reload : d.tcu.reload = none
  held : r.order.drain = true ∧ r.marks c ≠ [] →
    d.tcu.drain = some ⟨r.order, r.marks c, r.gridsResult c⟩ ∧ d.ord = c.ord
  reported : ¬ (r.order.drain = true ∧ r.marks c ≠ []) →
    d.tcu.drain = c.tcu.drain ∧
      (∀ x ∈ slotAccesses c.layout r.order.slot r.order.seq true (r.gridsResult c), d.mpt.carries x) ∧
      d.ord.openOrders = c.ord.openOrders.filter fun e => e.slot != r.order.slot
  shows : ∀ before : Dlv, before.Asks c.dlv → c.active = true → before.showsNext d.dlv

/-- A GRIDDEFS reload is performed and its order held or reported. -/
theorem concludeStep_performGriddefs (r : Reload) {c : Chip} (alone : c.tcu.waiting = []) :
    c.ReloadsGrids r (concludeStep (performGriddefs r c)) := by
  let settled := settleRowScope r.order (r.marks c) (r.gridsResult c) (c.gridsReloaded r)
  have performed : performGriddefs r c = endReload r.order settled.2 settled.1 := rfl
  have ended := concludeStep_endReload r.order settled.2 (c := settled.1) (by simpa [settled] using alone)
  rw [← performed] at ended
  constructor
  case held =>
    intro held
    have settle : settled = _ := settleRowScope_held (r.gridsResult c) (c.gridsReloaded r) held
    rw [ended.tcu, performed, settle]
    simp [endReload]
  case reported =>
    intro reported
    have settle : settled = _ := settleRowScope_reported (r.gridsResult c) (c.gridsReloaded r) reported
    have done := concludeStep_endReload_done r.order (r.gridsResult c) (c := c.gridsReloaded r) (by simpa using alone)
    rw [ended.tcu, performed, settle]
    exact ⟨rfl, done⟩
  case shows =>
    intro before asks active
    exact ended.shows before (by simpa [settled] using asks) (by simpa [settled] using active)
  case sce => rw [ended.sce]; simp [settled]
  case grids => rw [ended.tcu]; simp [settled]
  case cache => rw [ended.tcu]; simp [settled, Tcu.dropRows]
  case dropped => rw [ended.tcu]; simp [settled, Tcu.dropRows]
  case invalidations => rw [ended.tcu]; simp [settled]
  case reload => rw [ended.tcu]

/-- The part as the grids of an answered reload leave it. -/
theorem griddefsAnswered_eq (a : Access) (x : Option (List Byte)) {c : Chip} {r : Reload}
    (reload : c.tcu.reload = some r) :
    griddefsAnswered a x c = performGriddefs { r with got := r.got ++ [x] } (noteReloadRead x c) := by
  have noted : (noteReloadRead x c).tcu.reload = some { r with got := r.got ++ [x] } := by
    simp [noteReloadRead, reload]
  simp only [griddefsAnswered, noted]

end Sys2Proof.Machine
end

section
/-! PROOFS. The statement about the GRIDDEFS reload (R117 to R120, R124, R126, R127, R171). -/

namespace Sys2Proof.Machine

theorem exec_reloadReadDone {c : Chip} {a : Access} {x : Option (List Byte)} (q : List Instr)
    (onBus : c.mpt.onBus = some a)
    (purpose : (∃ g, a.purpose = .reloadGrid g false) ∨ (∃ n, a.purpose = .reloadStation n false) ∨
      ∃ h, a.purpose = .reloadHub h false)
    (length : ∀ b, x = some b → b.length = a.len) (running : c.rgp.partState ≠ .faulted) :
    exec (.reloadReadDone (readAnswerOf x)) ⟨c, q⟩ = .next ⟨concludeStep (noteReloadRead x (c.answered a x)), q⟩ := by
  refine answerRead_answered isEarlierRead reloadReadAnswered q onBus ?_ ?_ length running
  all_goals obtain ⟨g, purpose⟩ | ⟨n, purpose⟩ | ⟨h, purpose⟩ := purpose <;> rw [purpose] <;> rfl

theorem exec_griddefsReloadDone {c : Chip} {a : Access} {x : Option (List Byte)} {g : Nat} {r : Reload} (q : List Instr)
    (onBus : c.mpt.onBus = some a) (purpose : a.purpose = .reloadGrid g true)
    (length : ∀ b, x = some b → b.length = a.len) (running : c.rgp.partState ≠ .faulted)
    (reload : c.tcu.reload = some r) :
    exec (.griddefsReloadDone (readAnswerOf x)) ⟨c, q⟩ = .next ⟨concludeStep
      (performGriddefs { r with got := r.got ++ [x] } (noteReloadRead x (c.answered a x))), q⟩ := by
  rw [← griddefsAnswered_eq a x (by simpa using reload)]
  exact answerRead_answered isLastGrid griddefsAnswered q onBus (purpose ▸ rfl) (purpose ▸ rfl) length running

/-- Settles O36: the answer of an earlier read changes the reload alone, and the last one the grids, their rows and the
banks that read them; the order is then held or reported. -/
theorem griddefsReloadChangesTheGrids : Obligations.GriddefsReloadChangesTheGrids := by
  constructor
  · intro c q a x onBus length active running notAsked purpose
    have of : faultSourceOf a.purpose = .tables := by
      obtain ⟨g, purpose⟩ | ⟨n, purpose⟩ | ⟨h, purpose⟩ := purpose <;> rw [purpose] <;> rfl
    obtain ⟨records, overflow⟩ := answered_records of x c
    refine ⟨_, exec_reloadReadDone q onBus purpose length running, by simp [noteReloadRead],
      by simp [answered_rgp a active], by simp, by simp, by simp, by simp, by simp, fun data => ?_, fun failed => ?_,
      by simp, by simpa using records, by simpa using overflow⟩
    · obtain ⟨b, rfl⟩ := Option.isSome_iff_exists.mp data
      exact concludeStep_dlv_of_notAsked notAsked
    · subst failed
      rw [answered_none a (active rfl)]
      have shows := concludeStep_onlyShows (before := { c.dlv with faultUnshown := true })
        (noteReloadRead none (c.accessEnded a none)) (active rfl) (accessEnded_asks a c)
      exact shows
  · intro c q a x g r onBus purpose length active running reload three four alone got
    let r' : Reload := { r with got := got }
    let e := noteReloadRead x (c.answered a x)
    have next : exec (.griddefsReloadDone (readAnswerOf x)) ⟨c, q⟩ = .next ⟨concludeStep (performGriddefs r' e), q⟩ :=
      exec_griddefsReloadDone q onBus purpose length running reload
    have tcu : e.tcu = { c.tcu with reload := some r' } := by simp [e, noteReloadRead, reload, r', got]
    have sce : e.sce = c.sce := by simp [e]
    have layout : e.layout = c.layout := by simp [Chip.layout, e]
    have marks : r'.marks e = r'.marks c := by rw [Reload.marks, tcu, sce]; rfl
    have result : r'.gridsResult e = r'.gridsResult c := by rw [Reload.gridsResult, marks, tcu]; rfl
    have ord : e.ord = c.ord := by simp [e]
    obtain ⟨banks, grids, cache, dropped, invalidations, ended, held, reported, shows⟩ :=
      concludeStep_performGriddefs r' (c := e) (by rw [tcu]; exact alone)
    rw [tcu] at banks grids cache dropped invalidations
    rw [sce] at banks
    rw [marks, result, ord] at held reported
    rw [layout, tcu] at reported
    have judged (n : Nat) := reloadedGrids_getElem? got c.tcu.grids n (by simp [got, three, four])
    obtain ⟨records, overflow⟩ := answered_records (source := .tables) (congrArg faultSourceOf purpose) x c
    refine ⟨_, next, ?_⟩
    rw [grids]
    refine ⟨fun n => (judged n).1, fun n => (judged n).2,
      ⟨cache, dropped, invalidations, ended, banks, held, reported⟩, by simp [e], by simp [e], by simp [e],
      by simp [e, Dlv.keepsStreams], fun failed => ?_, by simp [e], by simp [e, records], by simp [e, overflow]⟩
    subst failed
    exact shows c.dlv (by simpa [e] using answered_asks a (active rfl)) (by simpa [e] using active rfl)

end Sys2Proof.Machine
end

section
/-! SUPPORT. The operations that a rise of H can run do not look at the bus (R169): freed before or after, it leaves the
same part. -/

namespace Sys2Proof.Machine

/-! ## Changes of one block, and the shared operations -/

@[simp] theorem onLki_freeBus (f : Lki → Lki) (c : Chip) : (freeBus c).onLki f = freeBus (c.onLki f) := rfl
@[simp] theorem onChc_freeBus (f : Chc → Chc) (c : Chip) : (freeBus c).onChc f = freeBus (c.onChc f) := rfl
@[simp] theorem onCcu_freeBus (f : Ccu → Ccu) (c : Chip) : (freeBus c).onCcu f = freeBus (c.onCcu f) := rfl
@[simp] theorem onSce_freeBus (f : Sce → Sce) (c : Chip) : (freeBus c).onSce f = freeBus (c.onSce f) := rfl
@[simp] theorem onTcu_freeBus (f : Tcu → Tcu) (c : Chip) : (freeBus c).onTcu f = freeBus (c.onTcu f) := rfl
@[simp] theorem onOrd_freeBus (f : Orders → Orders) (c : Chip) : (freeBus c).onOrd f = freeBus (c.onOrd f) := rfl
@[simp] theorem onDlv_freeBus (f : Dlv → Dlv) (c : Chip) : (freeBus c).onDlv f = freeBus (c.onDlv f) := rfl
@[simp] theorem onDlvCounters_freeBus (f : DlvCounters → DlvCounters) (c : Chip) :
    (freeBus c).onDlvCounters f = freeBus (c.onDlvCounters f) := rfl
@[simp] theorem layout_freeBus (c : Chip) : (freeBus c).layout = c.layout := rfl
@[simp] theorem setCause_freeBus (bit : Nat) (c : Chip) : setCause bit (freeBus c) = freeBus (setCause bit c) := rfl
@[simp] theorem changeState_freeBus (st : PartState) (c : Chip) :
    changeState st (freeBus c) = freeBus (changeState st c) := rfl

@[simp] theorem requestAll_freeBus (b : Requester) (l : List Access) (c : Chip) :
    requestAll b l (freeBus c) = freeBus (requestAll b l c) := by cases b <;> rfl

@[simp] theorem request_freeBus (b : Requester) (a : Access) (c : Chip) :
    request b a (freeBus c) = freeBus (request b a c) := requestAll_freeBus b [a] c

@[simp] theorem askProgress_freeBus (c : Chip) : askProgress (freeBus c) = freeBus (askProgress c) := by
  simp [askProgress, apply_ite freeBus]

@[simp] theorem recordFault_comm_freeBus (src : FaultSource) (kind : FaultKind) (addr : Nat) (c : Chip) :
    recordFault src kind addr (freeBus c) = freeBus (recordFault src kind addr c) := by
  have recorded : (freeBus c).onMpt (Mpt.record src kind addr c.lki.horizon) =
      freeBus (c.onMpt (Mpt.record src kind addr c.lki.horizon)) :=
    congrArg (fun m => { c with mpt := m }) (Mpt.record_bus ..)
  simp [recordFault, recordFaultNow, recorded, apply_ite freeBus]

@[simp] theorem beginReturnRead_freeBus (c : Chip) : beginReturnRead (freeBus c) = freeBus (beginReturnRead c) := by
  simp [beginReturnRead, apply_ite freeBus]

@[simp] theorem enterState_freeBus (st : PartState) (c : Chip) :
    enterState st (freeBus c) = freeBus (enterState st c) := by simp [enterState]

/-! ## DLV -/

@[simp] theorem onStream_freeBus (id : StreamId) (f : StreamState → StreamState) (c : Chip) :
    onStream id f (freeBus c) = freeBus (onStream id f c) := rfl

@[simp] theorem takeSequence_freeBus (id : StreamId) (c : Chip) :
    takeSequence id (freeBus c) = freeBus (takeSequence id c) := rfl

@[simp] theorem assignRecord_freeBus (id : StreamId) (bytes : List Byte) (c : Chip) :
    assignRecord id bytes (freeBus c) = freeBus (assignRecord id bytes c) := by simp [assignRecord]

@[simp] theorem markNoRoom_freeBus (id : StreamId) (c : Chip) :
    markNoRoom id (freeBus c) = freeBus (markNoRoom id c) := by simp [markNoRoom, apply_ite freeBus]

@[simp] theorem meetNoRoom_freeBus (id : StreamId) (c : Chip) :
    meetNoRoom id (freeBus c) = freeBus (meetNoRoom id c) := by simp [meetNoRoom]

@[simp] theorem deliverPick_freeBus (p : Pick) (c : Chip) : deliverPick p (freeBus c) = freeBus (deliverPick p c) := by
  simp [deliverPick, apply_ite freeBus]

@[simp] theorem setPendingEvents_freeBus (l : List EventRecord) (c : Chip) :
    setPendingEvents l (freeBus c) = freeBus (setPendingEvents l c) := rfl

@[simp] theorem writePending_freeBus (l : List EventRecord) (c : Chip) :
    writePending l (freeBus c) = freeBus (writePending l c) := by
  induction l generalizing c with
  | nil => rfl
  | cons r l ih => simp [writePending, ih, apply_ite freeBus]

@[simp] theorem pendingWrite_freeBus (c : Chip) : pendingWrite (freeBus c) = freeBus (pendingWrite c) := by
  simp [pendingWrite]

@[simp] theorem joinPending_freeBus (content : EventContent) (c : Chip) :
    joinPending content (freeBus c) = freeBus (joinPending content c) := rfl

@[simp] theorem appendRecord_freeBus (content : EventContent) (c : Chip) :
    appendRecord content (freeBus c) = freeBus (appendRecord content c) := by simp [appendRecord, apply_ite freeBus]

@[simp] theorem writeDirect_freeBus (content : EventContent) (c : Chip) :
    writeDirect content (freeBus c) = freeBus (writeDirect content c) := by simp [writeDirect]

@[simp] theorem countLostEvent_freeBus (c : Chip) : countLostEvent (freeBus c) = freeBus (countLostEvent c) := rfl

@[simp] theorem appendDisplacing_freeBus (content : EventContent) (c : Chip) :
    appendDisplacing content (freeBus c) = freeBus (appendDisplacing content c) := by
  simp [appendDisplacing, apply_ite freeBus]

@[simp] theorem deliverFull_freeBus (content : EventContent) (c : Chip) :
    deliverFull content (freeBus c) = (freeBus (deliverFull content c).1, (deliverFull content c).2) := by
  simp only [deliverFull, meetNoRoom_freeBus, countLostEvent_freeBus, freeBus_frame]
  split
  · rfl
  · split <;> simp

@[simp] theorem deliverContent_freeBus (content : EventContent) (c : Chip) :
    deliverContent content (freeBus c) = (freeBus (deliverContent content c).1, (deliverContent content c).2) := by
  simp only [deliverContent, freeBus_frame]
  repeat' split
  all_goals simp

@[simp] theorem deliverOutcome_freeBus (o : EventOutcome) (c : Chip) :
    deliverOutcome o (freeBus c) = (freeBus (deliverOutcome o c).1, (deliverOutcome o c).2) := by
  have kind : reportWeakInForce (freeBus (c.onDlvCounters fun n => n.countOutcome o.outcome)) =
    reportWeakInForce (c.onDlvCounters fun n => n.countOutcome o.outcome) := rfl
  simp only [deliverOutcome, onDlvCounters_freeBus, kind]
  split <;> simp

@[simp] theorem offerEpoch_freeBus (e : RawEpoch) (c : Chip) : offerEpoch e (freeBus c) = freeBus (offerEpoch e c) := by
  simp only [offerEpoch, freeBus_frame]
  split <;> simp

@[simp] theorem stepEpochCount_freeBus (c : Chip) : stepEpochCount (freeBus c) = freeBus (stepEpochCount c) := rfl

@[simp] theorem placeRawTick_freeBus (t : Nat) (samples : List (Option (BitVec 24))) (c : Chip) :
    placeRawTick t samples (freeBus c) = freeBus (placeRawTick t samples c) := by
  simp [placeRawTick, apply_ite freeBus]

/-! ## ORD -/

@[simp] theorem writeSlot_freeBus (slot : Nat) (seq : BitVec 8) (done : Bool) (r : SlotResult) (c : Chip) :
    writeSlot slot seq done r (freeBus c) = freeBus (writeSlot slot seq done r c) := by simp [writeSlot]

@[simp] theorem askOutsideRun_freeBus (c : Chip) : askOutsideRun (freeBus c) = freeBus (askOutsideRun c) := by
  simp [askOutsideRun, apply_ite freeBus]

@[simp] theorem writeDone_freeBus (slot : Nat) (seq : BitVec 8) (r : SlotResult) (c : Chip) :
    writeDone slot seq r (freeBus c) = freeBus (writeDone slot seq r c) := by
  simp [writeDone]

@[simp] theorem completeScan_freeBus (order : Option (Nat × BitVec 8)) (number : Nat) (outcome : ScanOutcome)
    (seq : Option Word32) (c : Chip) :
    completeScan order number outcome seq (freeBus c) = freeBus (completeScan order number outcome seq c) := by
  cases order <;> simp [completeScan]

@[simp] theorem completeCancels_freeBus (number : Nat) (cancelled : Bool) (l : List (Nat × BitVec 8)) (c : Chip) :
    completeCancels number cancelled l (freeBus c) = freeBus (completeCancels number cancelled l c) := by
  induction l generalizing c with
  | nil => rfl
  | cons x l ih => simp [completeCancels, ih]

@[simp] theorem readTable_freeBus (c : Chip) : readTable (freeBus c) = freeBus (readTable c) := rfl

@[simp] theorem beginPoll_freeBus (c : Chip) : beginPoll (freeBus c) = freeBus (beginPoll c) := by
  simp [beginPoll, apply_ite freeBus]

@[simp] theorem reportInval_freeBus (slot : Nat) (seq : BitVec 8) (r : SlotResult) (c : Chip) :
    reportInval slot seq r (freeBus c) = freeBus (reportInval slot seq r c) := by
  simp [reportInval, apply_ite freeBus]

/-! ## TCU -/

@[simp] theorem hitRow_freeBus (e : CacheEntry) (c : Chip) : hitRow e (freeBus c) = freeBus (hitRow e c) := rfl

@[simp] theorem missRow_freeBus (g : GridDef) (grid node : Nat) (c : Chip) :
    missRow g grid node (freeBus c) = (freeBus (missRow g grid node c).1, (missRow g grid node c).2) := by
  simp only [missRow, onTcu_freeBus, freeBus_frame]
  split <;> simp

@[simp] theorem requestRow_freeBus (grid node : Nat) (c : Chip) :
    requestRow grid node (freeBus c) = (freeBus (requestRow grid node c).1, (requestRow grid node c).2) := by
  simp only [requestRow, freeBus_frame]
  repeat' split
  all_goals simp

@[simp] theorem requestRefine_freeBus (grid node : Nat) (c : Chip) :
    requestRefine grid node (freeBus c) = (freeBus (requestRefine grid node c).1, (requestRefine grid node c).2) := by
  simp only [requestRefine, freeBus_frame]
  repeat' split
  all_goals simp

@[simp] theorem drainFinished_freeBus (number : Nat) (c : Chip) :
    drainFinished number (freeBus c) = freeBus (drainFinished number c) := by
  simp only [drainFinished, freeBus_frame]
  repeat' split
  all_goals simp

/-! ## SCE -/

@[simp] theorem onScan_freeBus (bank : Nat) (f : Scan → Scan) (c : Chip) :
    onScan bank f (freeBus c) = freeBus (onScan bank f c) := rfl

@[simp] theorem setBank_freeBus (bank : Nat) (b : Option Scan) (c : Chip) :
    setBank bank b (freeBus c) = freeBus (setBank bank b c) := rfl

@[simp] theorem clearTarget_freeBus (number : Nat) (c : Chip) :
    clearTarget number (freeBus c) = freeBus (clearTarget number c) := rfl

@[simp] theorem takeRequest_freeBus (number : Nat) (c : Chip) :
    takeRequest number (freeBus c) = freeBus (takeRequest number c) := rfl

@[simp] theorem runningBank_freeBus (c : Chip) : runningBank (freeBus c) = runningBank c := rfl

@[simp] theorem selectWinner_freeBus (c : Chip) : selectWinner (freeBus c) = selectWinner c := rfl

@[simp] theorem preempted_freeBus (sc : Scan) (c : Chip) : preempted sc (freeBus c) = preempted sc c := rfl

@[simp] theorem refineGrid_freeBus (c : Chip) (grid : Nat) (e : RefineEntry) :
    refineGrid (freeBus c) grid e = refineGrid c grid e := rfl

@[simp] theorem anyInService_freeBus (c : Chip) : anyInService (freeBus c) = anyInService c := rfl

@[simp] theorem stoppingToBound_freeBus (c : Chip) : stoppingToBound (freeBus c) = freeBus (stoppingToBound c) := by
  simp [stoppingToBound, apply_ite freeBus]

@[simp] theorem finishScan_freeBus (bank : Nat) (sc : Scan) (o : ScanOutcome) (arrivals : List Arrival) (c : Chip) :
    finishScan bank sc o arrivals (freeBus c) = freeBus (finishScan bank sc o arrivals c) := by simp [finishScan]

@[simp] theorem finishAtOnce_freeBus (bank : Nat) (sc : Scan) (o : ScanOutcome) (c : Chip) :
    finishAtOnce bank sc o (freeBus c) = (freeBus (finishAtOnce bank sc o c).1, (finishAtOnce bank sc o c).2) := by
  simp [finishAtOnce]

@[simp] theorem startScan_freeBus (r : Request) (c : Chip) :
    startScan r (freeBus c) = (freeBus (startScan r c).1, (startScan r c).2) := by
  simp only [startScan, takeRequest_freeBus, freeBus_frame]
  repeat' split
  all_goals simp

@[simp] theorem resumeScan_freeBus (bank : Nat) (sc : Scan) (c : Chip) :
    resumeScan bank sc (freeBus c) = (freeBus (resumeScan bank sc c).1, (resumeScan bank sc c).2) := by
  simp only [resumeScan, setBank_freeBus, onSce_freeBus, freeBus_frame]
  split <;> simp

@[simp] theorem selectAction_freeBus (c : Chip) :
    selectAction (freeBus c) = (freeBus (selectAction c).1, (selectAction c).2) := by
  rw [selectAction, selectAction, runningBank_freeBus, selectWinner_freeBus]
  repeat' split
  all_goals simp

@[simp] theorem requestScanRow_freeBus (bank grid node : Nat) (phase : ScanPhase)
    (next : List (BitVec 16) → EngineTask) (c : Chip) :
    requestScanRow bank grid node phase next (freeBus c) =
      (freeBus (requestScanRow bank grid node phase next c).1, (requestScanRow bank grid node phase next c).2) := by
  simp only [requestScanRow, onScan_freeBus, requestRow_freeBus]
  rcases requestRow grid node (onScan bank _ c) with ⟨d, _ | _ | _ | _⟩ <;> simp

@[simp] theorem rowAction_freeBus (bank : Nat) (sc : Scan) (row : List (BitVec 16)) (c : Chip) :
    rowAction bank sc row (freeBus c) = (freeBus (rowAction bank sc row c).1, (rowAction bank sc row c).2) := by
  simp only [rowAction]
  repeat' split
  all_goals simp

@[simp] theorem parkScan_freeBus (bank : Nat) (c : Chip) : parkScan bank (freeBus c) = freeBus (parkScan bank c) := rfl

@[simp] theorem boundaryAction_freeBus (bank : Nat) (sc : Scan) (c : Chip) :
    boundaryAction bank sc (freeBus c) = (freeBus (boundaryAction bank sc c).1, (boundaryAction bank sc c).2) := by
  rw [boundaryAction, boundaryAction, preempted_freeBus]
  repeat' split
  all_goals simp

@[simp] theorem requestScanRefine_freeBus (bank : Nat) (p : Peak) (c : Chip) :
    requestScanRefine bank p (freeBus c) =
      (freeBus (requestScanRefine bank p c).1, (requestScanRefine bank p c).2) := by
  simp only [requestScanRefine, onScan_freeBus, requestRefine_freeBus]
  rcases requestRefine p.grid p.node (onScan bank _ c) with ⟨d, _ | _ | _⟩ <;> simp

@[simp] theorem stageEndAction_freeBus (bank : Nat) (sc : Scan) (c : Chip) :
    stageEndAction bank sc (freeBus c) = (freeBus (stageEndAction bank sc c).1, (stageEndAction bank sc c).2) := by
  simp only [stageEndAction, stage1End, stage2End]
  repeat' split
  all_goals simp

@[simp] theorem refinedAction_freeBus (bank : Nat) (sc : Scan) (e : Option RefineEntry) (c : Chip) :
    refinedAction bank sc e (freeBus c) = (freeBus (refinedAction bank sc e c).1, (refinedAction bank sc e c).2) := by
  simp only [refinedAction, refineGrid_freeBus]
  repeat' split
  all_goals simp

@[simp] theorem arrivalAction_freeBus (bank : Nat) (sc : Scan) (o : ScanOutcome) (c : Chip) :
    arrivalAction bank sc o (freeBus c) = (freeBus (arrivalAction bank sc o c).1, (arrivalAction bank sc o c).2) := by
  simp only [arrivalAction]
  split <;> simp

@[simp] theorem listAction_freeBus (bank : Nat) (sc : Scan) (o : ScanOutcome) (row : List (BitVec 16)) (ch : Nat)
    (found : List Arrival) (c : Chip) :
    listAction bank sc o row ch found (freeBus c) =
      (freeBus (listAction bank sc o row ch found c).1, (listAction bank sc o row ch found c).2) := by
  simp only [listAction]
  split <;> simp

@[simp] theorem concludeAction_freeBus (bank : Nat) (sc : Scan) (o : ScanOutcome) (arrivals : List Arrival) (c : Chip) :
    concludeAction bank sc o arrivals (freeBus c) =
      (freeBus (concludeAction bank sc o arrivals c).1, (concludeAction bank sc o arrivals c).2) := by
  simp only [concludeAction]
  split <;> simp

/-- An action of the RUNNING scan, by its task. -/
@[simp] theorem scanAction_freeBus (task : EngineTask) (bank : Nat) (sc : Scan) (c : Chip) :
    scanAction task bank sc (freeBus c) = (freeBus (scanAction task bank sc c).1, (scanAction task bank sc c).2) := by
  cases task <;> simp [scanAction, nodeEndAction]

@[simp] theorem engineAction_freeBus (task : EngineTask) (c : Chip) :
    engineAction task (freeBus c) = (freeBus (engineAction task c).1, (engineAction task c).2) := by
  unfold engineAction
  simp only [runningBank_freeBus]
  repeat' split
  all_goals simp

@[simp] theorem engine_freeBus (task : EngineTask) (c : Chip) : engine task (freeBus c) = freeBus (engine task c) := by
  unfold engine
  generalize engineFuel = n
  induction n generalizing task c with
  | zero => rfl
  | succ n ih =>
    rw [runEngine_succ, runEngine_succ, engineAction_freeBus]
    cases engineAction task c with
    | mk d next => cases next <;> simp [ih]

@[simp] theorem offerRipe_freeBus (c : Chip) : offerRipe (freeBus c) = freeBus (offerRipe c) := by
  simp [offerRipe, apply_ite freeBus]

/-! ## CCU and CHC -/

@[simp] theorem enqueue_freeBus (r : Request) (c : Chip) : enqueue r (freeBus c) = freeBus (enqueue r c) := rfl

@[simp] theorem finishWaiting_freeBus (o : ScanOutcome) (r : Request) (c : Chip) :
    finishWaiting o r (freeBus c) = freeBus (finishWaiting o r c) := by simp [finishWaiting]

@[simp] theorem mergeCrossing_freeBus (g : CollapseTarget) (v level : Nat) (c : Chip) :
    mergeCrossing g v level (freeBus c) = freeBus (mergeCrossing g v level c) := rfl

@[simp] theorem declare_freeBus (s : Settings) (t v level : Nat) (c : Chip) :
    declare s t v level (freeBus c) = freeBus (declare s t v level c) := by simp [declare]

@[simp] theorem declareCrossing_freeBus (s : Settings) (t v level : Nat) (c : Chip) :
    declareCrossing s t v level (freeBus c) = freeBus (declareCrossing s t v level c) := by
  simp only [declareCrossing, declareFull, freeBus_frame]
  repeat' split
  all_goals simp

@[simp] theorem crossing_freeBus (s : Settings) (t v : Nat) (c : Chip) :
    crossing s t v (freeBus c) = freeBus (crossing s t v c) := by
  simp only [crossing, freeBus_frame]
  repeat' split
  all_goals simp

@[simp] theorem handTickNotice_freeBus (t : Nat) (c : Chip) :
    handTickNotice t (freeBus c) = freeBus (handTickNotice t c) := by
  simp only [handTickNotice, takeTickNotice, freeBus_frame]
  split
  · rfl
  · split <;> simp

@[simp] theorem onChcCounters_freeBus (f : ChcCounters → ChcCounters) (c : Chip) :
    onChcCounters f (freeBus c) = freeBus (onChcCounters f c) := rfl

@[simp] theorem formPicks_freeBus (l : List FormedPick) (c : Chip) :
    formPicks l (freeBus c) = freeBus (formPicks l c) := by
  induction l generalizing c with
  | nil => rfl
  | cons f l ih => simp [formPicks, formPick, ← ih, apply_ite freeBus]

@[simp] theorem conditionTick_freeBus (t : Nat) (samples : List (Option (BitVec 24))) (c : Chip) :
    conditionTick t samples (freeBus c) = freeBus (conditionTick t samples c) := by simp [conditionTick]

/-! ## LKI -/

@[simp] theorem tickSamples_freeBus (t : Nat) (c : Chip) : tickSamples t (freeBus c) = tickSamples t c := rfl

@[simp] theorem settleTicks_freeBus (t n : Nat) (c : Chip) :
    settleTicks t n (freeBus c) = freeBus (settleTicks t n c) := by
  induction n generalizing t c with
  | zero => rfl
  | succ n ih => simp [settleTicks, settleTick, ih]

@[simp] theorem releaseFrames_freeBus (h1 : Nat) (c : Chip) :
    releaseFrames h1 (freeBus c) = freeBus (releaseFrames h1 c) := rfl

@[simp] theorem askForEpoch_freeBus (h0 h1 : Nat) (c : Chip) :
    askForEpoch h0 h1 (freeBus c) = freeBus (askForEpoch h0 h1 c) := by simp [askForEpoch, apply_ite freeBus]

/-- The update of H does not look at the bus. -/
theorem updateHorizon_freeBus (c : Chip) : updateHorizon (freeBus c) = freeBus (updateHorizon c) := by
  simp only [updateHorizon, freeBus_frame]
  repeat' split
  all_goals simp [settle]

end Sys2Proof.Machine
end

section
/-! SUPPORT. The update of H (R30 to R35): BOUND, LISTENING and STOPPING are left for none of the other part states, and
a hub keeps its state and its place; and the stall check (R31). -/

namespace Sys2Proof.Machine

/-! ## The part states in which ORD polls and DLV writes (R102) -/

@[simp] theorem onLki_active (f : Lki → Lki) (c : Chip) : (c.onLki f).active = c.active := rfl
@[simp] theorem onCcu_active (f : Ccu → Ccu) (c : Chip) : (c.onCcu f).active = c.active := rfl
@[simp] theorem onSce_active (f : Sce → Sce) (c : Chip) : (c.onSce f).active = c.active := rfl

@[simp] theorem finishScan_active (bank : Nat) (sc : Scan) (o : ScanOutcome) (arrivals : List Arrival) (c : Chip) :
    (finishScan bank sc o arrivals c).active = c.active := by simp [finishScan]

@[simp] theorem startScan_active (r : Request) (c : Chip) : (startScan r c).1.active = c.active := by
  unfold startScan
  dsimp only
  repeat' split
  all_goals simp [finishAtOnce]

@[simp] theorem resumeScan_active (bank : Nat) (sc : Scan) (c : Chip) : (resumeScan bank sc c).1.active = c.active := by
  unfold resumeScan
  dsimp only
  split <;> simp [finishAtOnce]

@[simp] theorem selectAction_active (c : Chip) : (selectAction c).1.active = c.active := by
  unfold selectAction
  repeat' split
  all_goals simp

@[simp] theorem boundaryAction_active (bank : Nat) (sc : Scan) (c : Chip) :
    (boundaryAction bank sc c).1.active = c.active := by
  unfold boundaryAction
  repeat' split
  all_goals simp

@[simp] theorem concludeAction_active (bank : Nat) (sc : Scan) (o : ScanOutcome) (arrivals : List Arrival) (c : Chip) :
    (concludeAction bank sc o arrivals c).1.active = c.active := by
  unfold concludeAction
  split <;> simp

theorem scanAction_active (task : EngineTask) (bank : Nat) (sc : Scan) (c : Chip) :
    (scanAction task bank sc c).1.active = c.active := by
  cases task <;> simp [scanAction]

theorem engineAction_active (task : EngineTask) (c : Chip) : (engineAction task c).1.active = c.active := by
  unfold engineAction
  repeat' split
  · exact selectAction_active c
  · exact scanAction_active ..
  · rfl

@[simp] theorem offerRipe_active (c : Chip) : (offerRipe c).active = c.active := by
  unfold offerRipe
  split
  · exact engine_induct (fun d => d.active = c.active) (fun task d h => (engineAction_active task d).trans h) _ c rfl
  · rfl

@[simp] theorem declare_active (s : Settings) (t v level : Nat) (c : Chip) :
    (declare s t v level c).active = c.active := by
  simp [declare]

@[simp] theorem declareCrossing_active (s : Settings) (t v level : Nat) (c : Chip) :
    (declareCrossing s t v level c).active = c.active := by
  unfold declareCrossing declareFull
  repeat' split
  all_goals simp

@[simp] theorem crossing_active (s : Settings) (t v : Nat) (c : Chip) : (crossing s t v c).active = c.active := by
  unfold crossing
  repeat' split
  all_goals simp

@[simp] theorem takeTickNotice_active (n : TickNotice) (c : Chip) : (takeTickNotice n c).active = c.active := by
  unfold takeTickNotice
  dsimp only
  repeat' split
  all_goals simp

theorem settleTicks_active (t n : Nat) (c : Chip) : (settleTicks t n c).active = c.active := by
  induction n generalizing t c with
  | zero => rfl
  | succ n ih => simp [settleTicks, settleTick, handTickNotice, ih]

/-- The update of H can take the part from STOPPING to BOUND and to no other state. -/
theorem updateHorizon_active (c : Chip) : (updateHorizon c).active = c.active := by
  unfold updateHorizon
  repeat' split
  all_goals simp [settle, settleTicks_active]

/-! ## The hubs (R31, R33) -/

/-- The update of H leaves the hubs as they are, or has each release frames. -/
theorem updateHorizon_hubs (c : Chip) :
    (updateHorizon c).lki.hubs = c.lki.hubs ∨ ∃ h1, (updateHorizon c).lki.hubs = c.lki.hubs.map (Hub.release h1) := by
  unfold updateHorizon
  repeat' split
  case _ h0 h1 _ _ _ => exact .inr ⟨h1, by simp [settle]⟩
  all_goals exact .inl rfl

/-- The update of H keeps the state and the place of each hub. -/
theorem updateHorizon_placed (c : Chip) (m : Nat) :
    ((updateHorizon c).lki.hubs[m]?).map (fun h => (h.state, h.nextTick)) =
      (c.lki.hubs[m]?).map fun h => (h.state, h.nextTick) := by
  obtain same | ⟨h1, released⟩ := updateHorizon_hubs c
  · rw [same]
  · rw [released, List.getElem?_map, Option.map_map]
    simp [Function.comp_def]

/-- A hub without frames that does not seek has none to release. -/
theorem Hub.release_empty (h1 : Nat) {h : Hub} (empty : h.buffer = []) : h.release h1 = h := by
  unfold Hub.release
  split
  · rfl
  · rw [empty, List.filter_nil, ← empty]

/-- The update of H leaves a hub without frames as it is. -/
theorem updateHorizon_empty {c : Chip} {m : Nat} {h : Hub} (hub : c.lki.hubs[m]? = some h) (empty : h.buffer = []) :
    (updateHorizon c).lki.hubs[m]? = some h := by
  obtain same | ⟨h1, released⟩ := updateHorizon_hubs c
  · rw [same, hub]
  · rw [released, List.getElem?_map, hub, Option.map_some, Hub.release_empty h1 empty]

/-- A LIVE hub more than Lmax below lead is STALLED and keeps its place. -/
theorem stall_stalls {l : Lki} {lmax m n lead : Nat} {g : Hub} (hub : l.hubs[m]? = some g) (live : g.state = .live)
    (next : g.nextTick = some n) (leads : l.lead = some lead) (far : n + lmax < lead) :
    (l.stall lmax).hubs[m]? = some { g with state := .stalled, buffer := [] } := by
  simp [Lki.stall, leads, hub, Hub.stallBelow, Hub.liveNext, live, next, far]

/-- Every other hub stays as it is. -/
theorem stall_keeps {l : Lki} {lmax m : Nat} {g : Hub} (hub : l.hubs[m]? = some g)
    (near : g.state ≠ .live ∨ ∀ n lead, g.nextTick = some n → l.lead = some lead → lead ≤ n + lmax) :
    (l.stall lmax).hubs[m]? = some g := by
  unfold Lki.stall
  split
  case h_2 => exact hub
  case h_1 lead leads =>
    have stays : g.stallBelow lmax lead = g := by
      unfold Hub.stallBelow Hub.liveNext
      split
      case h_2 => rfl
      case h_1 n next =>
        split at next
        case isFalse => cases next
        case isTrue live => exact if_neg (Nat.not_lt.mpr (near.resolve_left (absurd live) n lead next leads))
    simp [hub, stays]

end Sys2Proof.Machine
end

section
/-! PROOFS. The statement about the CONFIG reload (R31, R36, R38, R79, R123, R126, R171). -/

namespace Sys2Proof.Machine

/-- A CONFIG reload applies the block and reports its order. -/
theorem configAnswered_eq (a : Access) (x : Option (List Byte)) {c : Chip} {r : Reload}
    (reload : c.tcu.reload = some r) :
    configAnswered a x c =
      endReload r.order (some ⟨(applyConfig x c).2, 7, 0, 0⟩) (countInvalidation (applyConfig x c).1) := by
  simp only [configAnswered, reload]
  rfl

theorem exec_configReloadDone {c : Chip} {a : Access} {x : Option (List Byte)} {r : Reload} (q : List Instr)
    (onBus : c.mpt.onBus = some a) (purpose : a.purpose = .reloadConfig)
    (length : ∀ b, x = some b → b.length = a.len) (running : c.rgp.partState ≠ .faulted)
    (reload : c.tcu.reload = some r) :
    exec (.configReloadDone (readAnswerOf x)) ⟨c, q⟩ = .next ⟨concludeStep
      (endReload r.order (some ⟨(applyConfig x (c.answered a x)).2, 7, 0, 0⟩)
        (countInvalidation (applyConfig x (c.answered a x)).1)), q⟩ := by
  rw [← configAnswered_eq a x (by simpa using reload)]
  exact answerRead_answered isConfig configAnswered q onBus (purpose ▸ rfl) (purpose ▸ rfl) length running

/-- A block that fails or is invalid is not applied. -/
theorem applyConfig_refused {x : Option (List Byte)} {c : Chip}
    (refused : ∀ b, x = some b → settingsValid c.tcu.grids (parseSettings b) = false) :
    applyConfig x c = (c, if x.isSome = true then 11 else 10) := by
  cases x with
  | none => rfl
  | some b => simp [applyConfig, refused b rfl, codeBadTable]

/-- The part with a valid settings block in force, before the order is reported. -/
def Chip.adopted (s : Settings) (c : Chip) : Chip :=
  updateHorizon { c with lki := Lki.stall s.lmax c.lki, tcu := { c.tcu with settings := some s } }

@[simp] theorem adopted_frame (s : Settings) (c : Chip) :
    (c.adopted s).rgp.layout = c.rgp.layout ∧ (c.adopted s).tcu.settings = some s ∧
      (c.adopted s).tcu.grids = c.tcu.grids ∧ (c.adopted s).tcu.hubEntries = c.tcu.hubEntries ∧
      (c.adopted s).tcu.stationEntries = c.tcu.stationEntries ∧ (c.adopted s).tcu.waiting = c.tcu.waiting ∧
      (c.adopted s).tcu.invalidations = c.tcu.invalidations ∧ (c.adopted s).active = c.active := by
  refine ⟨?_, ?_, ?_, ?_, ?_, ?_, ?_, updateHorizon_active _⟩ <;> simp [Chip.adopted]

/-- A LIVE hub more than the new Lmax below lead is STALLED. -/
theorem adopted_stalls {s : Settings} {c : Chip} {m n lead : Nat} {g : Hub} (hub : c.lki.hubs[m]? = some g)
    (live : g.state = .live) (place : g.nextTick = some n) (leads : c.lki.lead = some lead)
    (far : n + s.lmax < lead) : (c.adopted s).lki.hubs[m]? = some { g with state := .stalled, buffer := [] } :=
  updateHorizon_empty (stall_stalls hub live place leads far) rfl

/-- Every other hub keeps its state and its place. -/
theorem adopted_keeps {s : Settings} {c : Chip} {m : Nat} {g : Hub} (hub : c.lki.hubs[m]? = some g)
    (near : g.state ≠ .live ∨ ∀ n lead, g.nextTick = some n → c.lki.lead = some lead → lead ≤ n + s.lmax) :
    ((c.adopted s).lki.hubs[m]?).map (fun h => (h.state, h.nextTick)) = some (g.state, g.nextTick) := by
  rw [Chip.adopted, updateHorizon_placed, stall_keeps hub near, Option.map_some]

/-- A valid block is applied, and a change of hub state noted. -/
theorem applyConfig_adopts {b : List Byte} {c : Chip} (valid : settingsValid c.tcu.grids (parseSettings b) = true) :
    applyConfig (some b) (freeBus c) =
      (noteLinkChange (hubStates c) (freeBus (c.adopted (parseSettings b))), 1) := by
  rw [Chip.adopted, ← updateHorizon_freeBus]
  exact if_pos valid

/-- A change of hub state in BOUND, LISTENING and STOPPING sets LINK. -/
theorem noteLinkChange_links {before : List HubState} {c : Chip} (active : c.active = true)
    (changed : hubStates c ≠ before) : (noteLinkChange before c).raised causeLink := by
  rw [Chip.raised, noteLinkChange_cause]
  simp [active, changed]

/-- Settles O39: a valid block is put in force with the stall check, any other changes no table, and the order is
reported in each case. -/
theorem configReloadReplacesTheSettings : Obligations.ConfigReloadReplacesTheSettings := by
  intro c q a r onBus purpose running reload alone
  refine ⟨fun b length valid => ?_, fun x length refused => ?_⟩
  · intro s adopted
    let e := countInvalidation (noteLinkChange (hubStates c) (freeBus (c.adopted s)))
    have next : exec (.configReloadDone (.data b)) ⟨c, q⟩ =
        .next ⟨concludeStep (endReload r.order (some ⟨1, 7, 0, 0⟩) e), q⟩ := by
      have applied : applyConfig (some b) (c.answered a (some b)) = _ := applyConfig_adopts valid
      have next := exec_configReloadDone (x := some b) q onBus purpose (by simpa using length) running reload
      rwa [applied] at next
    have waiting : e.tcu.waiting = [] := by simpa [e] using alone
    have ended := concludeStep_endReload r.order (some ⟨1, 7, 0, 0⟩) waiting
    have done := (concludeStep_endReload_done r.order ⟨1, 7, 0, 0⟩ waiting).1
    have layout : e.layout = c.layout := by simp [Chip.layout, e]
    rw [layout] at done
    let d := concludeStep (endReload r.order (some ⟨1, 7, 0, 0⟩) e)
    have blocks : d.lki = (c.adopted s).lki ∧ d.chc = (c.adopted s).chc ∧ d.ccu = (c.adopted s).ccu := by simp [d, e]
    obtain ⟨lki, chc, ccu⟩ := blocks
    have sce : d.sce = (c.adopted s).sce := ended.sce.trans (by simp [e])
    have tables : d.tcu.settings = some s ∧ d.tcu.grids = c.tcu.grids ∧ d.tcu.hubEntries = c.tcu.hubEntries ∧
        d.tcu.stationEntries = c.tcu.stationEntries ∧ d.tcu.invalidations = countUp c.tcu.invalidations ∧
        d.tcu.reload = none := by
      rw [ended.tcu]
      simp [e, countInvalidation]
    obtain ⟨settings, tables⟩ := tables
    refine ⟨d, next, settings, lki, chc, ccu, sce, fun m g n lead hub live place leads far => ?_,
      fun m g hub near => ?_, fun active changed => ?_, ?_⟩
    · rw [lki]
      exact adopted_stalls hub live place leads far
    · rw [lki]
      exact adopted_keeps hub near
    · rw [lki] at changed
      have noted := noteLinkChange_links (before := hubStates c) (c := freeBus (c.adopted s)) (by simpa using active)
        changed
      simpa [Chip.raised, d, e] using noted
    · obtain ⟨grids, hubEntries, stationEntries, invalidations, ended⟩ := tables
      exact ⟨grids, hubEntries, stationEntries, invalidations, ended, done⟩
  · have next := exec_configReloadDone q onBus purpose length running reload
    rw [applyConfig_refused (by simpa using refused)] at next
    let e := countInvalidation (c.answered a x)
    let result : SlotResult := ⟨if x.isSome = true then 11 else 10, 7, 0, 0⟩
    have waiting : e.tcu.waiting = [] := by simpa [e] using alone
    have ended := concludeStep_endReload r.order (some result) waiting
    have done := (concludeStep_endReload_done r.order result waiting).1
    have layout : e.layout = c.layout := by simp [Chip.layout, e]
    rw [layout] at done
    obtain ⟨records, overflow⟩ := answered_records (source := .tables) (congrArg faultSourceOf purpose) x c
    refine ⟨_, next, ?_, by simp, by simp, by simp, ?_, by simp [Dlv.keepsStreams], fun data => ?_, by simp,
      by simp [records], by simp [overflow], fun failed active => ?_, done⟩
    · rw [ended.tcu]
      simp [e, countInvalidation]
    · rw [ended.sce]
      simp [e]
    · obtain ⟨b, rfl⟩ := Option.isSome_iff_exists.mp data
      simp [Chip.answered]
    · subst failed
      exact ended.shows c.dlv (by simpa [e] using answered_asks a active) (by simpa [e] using active)

end Sys2Proof.Machine
end

section
/-! PROOFS. The statements about the writes of the slots, the poll timer and FAULT-CLEAR (R129, R131, R139, R142, R143,
R174). -/

namespace Sys2Proof.Machine

/-! ## The writes of the slots (R129, R143) -/

/-- The answer to a slot write: ORDER is set by the state word of a DONE slot (R143). -/
theorem slotWriteAnswered_rgp {a : Access} {k : Nat} {done : Bool} (r : Option (List Byte)) (c : Chip)
    (purpose : a.purpose = .slotResult k ∨ a.purpose = .slotState k done) :
    (slotWriteAnswered a r c).rgp =
      if a.purpose = .slotState k true then { c.rgp with cause := c.rgp.cause ||| causeMask causeOrder }
      else c.rgp := by
  rcases purpose with purpose | purpose
  · simp [slotWriteAnswered, purpose]
  · cases done <;> simp [slotWriteAnswered, purpose, setCause, Rgp.setCause]

/-- Settles O43: by what the write that is answered was for. -/
theorem slotWriteSetsOrder : Obligations.SlotWriteSetsOrder := by
  intro c q a k done onBus running notAsked purpose
  have concerns : isSlotWrite a.purpose = true := by rcases purpose with h | h <;> rw [h] <;> rfl
  have next : exec (.orderSlotWriteDone true) ⟨c, q⟩ =
      .next ⟨concludeStep (slotWriteAnswered a (some []) (freeBus c)), q⟩ := by
    have answered := answerWrite_on isSlotWrite slotWriteAnswered true c q a onBus concerns
    rwa [if_pos rfl, accessEnds_data slotWriteAnswered a [] c running] at answered
  have dlv : (slotWriteAnswered a (some []) (freeBus c)).dlv = c.dlv := by simp [freeBus]
  have ends := concludeStep_dlv_of_notAsked (c := slotWriteAnswered a (some []) (freeBus c)) (dlv ▸ notAsked)
  refine ⟨_, next, ?_, ?_⟩
  case refine_2 =>
    rw [ends, dlv]
    simp [freeBus]
  rw [(concludeStep_frame _).1, slotWriteAnswered_rgp _ _ purpose]
  rfl

/-! ## The poll timer (R131) -/

/-- Of DLV a poll begins with the read of the return block (R131). -/
theorem beginPoll_dlv (c : Chip) (active : c.active = true) (idle : c.ord.poll = none) :
    (beginPoll c).dlv = (beginReturnRead c).dlv := by
  cases drain : c.ord.drainPending with
  | none => rw [beginPoll_idle c active idle drain]; simp
  | some o => rw [beginPoll_draining c active idle (by rw [drain]; rfl)]

/-- Settles O40: by whether the timer runs, and by the three ways a poll can begin. -/
theorem pollTimerBeginsAPoll : Obligations.PollTimerBeginsAPoll := by
  intro c q
  refine ⟨fun settled still => ?_, fun runs active => ?_⟩
  · have event : pollTimerEvent c = c := if_neg (by simpa using still)
    rw [exec, execPollTimerExpiry, commandStep_next, event, concludeStep_of_settled c settled]
  let s := startPollTimer c
  have next : exec .pollTimerExpiry ⟨c, q⟩ = .next ⟨concludeStep (beginPoll s), q⟩ := by
    have event : pollTimerEvent c = beginPoll s := if_pos (by simp [runs, active])
    rw [exec, execPollTimerExpiry, commandStep_next, event]
  refine ⟨fun settled busy => ?_, fun idle => ?_⟩
  · have marked := beginPoll_busy s active busy
    have kept : (beginPoll s).settled := Chip.settled_of_eq settled (by rw [marked]; rfl) (by rw [marked]; rfl)
    rw [next, concludeStep_of_settled _ kept, marked]
    rfl
  · refine ⟨_, next, ?_, fun drained => ⟨?_, fun k hk => concludeStep_carries _ _ ?_⟩, fun draining => ?_, ?_⟩
    · simp [beginPoll_dlv s active idle, beginReturnRead_dlv s active]
    · rw [beginPoll_idle s active idle drained]
      simp [readTable_ord, s, startPollTimer]
    · rw [beginPoll_idle s active idle drained, readTable_carries]
      exact .inr ⟨k, hk, by simp [Chip.layout, s]⟩
    · rw [beginPoll_draining s active idle draining]
      simp [s, startPollTimer]
    · simp [s]

/-! ## FAULT-CLEAR (R142, R174) -/

/-- The records and the overflow count that a FAULT-CLEAR with a valid index leaves (R174). -/
theorem clearFaults_eq (index : Nat) (m : Mpt) :
    m.clearFaults index =
      if index = 0xFF then { m with records := List.replicate m.records.length none, overflow := 0 }
      else { m with records := m.records.set index none } := by
  rw [Mpt.clearFaults, clearAllIndex, Mpt.clearAll, Mpt.clearOne, modifyAt_const, List.map_const']

/-- A FAULT-CLEAR with a valid index clears, asks for a progress block write, and answers OK with the number (R142). -/
theorem dispatchFaultClear_valid {index : Nat} (slot : Nat) (seq : BitVec 8) (c : Chip)
    (valid : index ≤ 3 ∨ index = 0xFF) :
    dispatchFaultClear slot seq index c =
      writeDone slot seq ⟨1, clearedCount index c.mpt, 0, 0⟩ (askProgress (c.onMpt (Mpt.clearFaults index))) :=
  if_pos valid

/-- A FAULT-CLEAR with any other index is BAD-PARAM (R142). -/
theorem dispatchFaultClear_invalid {index : Nat} (slot : Nat) (seq : BitVec 8) (c : Chip)
    (invalid : ¬ (index ≤ 3 ∨ index = 0xFF)) :
    dispatchFaultClear slot seq index c = writeDone slot seq ⟨5, 0, 0, 0⟩ c :=
  if_neg invalid

/-- Settles O51: by the index that the order names. -/
theorem faultClearFreesRecords : Obligations.FaultClearFreesRecords := by
  intro slot index seq c d
  have cleared (valid : index ≤ 3 ∨ index = 0xFF) :
      d.mpt.records = (c.mpt.clearFaults index).records ∧ d.mpt.overflow = (c.mpt.clearFaults index).overflow ∧
        ∀ x ∈ slotAccesses c.layout slot seq true ⟨1, clearedCount index c.mpt, 0, 0⟩, d.mpt.carries x := by
    have eq : d = _ := dispatchFaultClear_valid slot seq c valid
    rw [eq]
    refine ⟨by simp, by simp, fun x written => writeDone_carries slot seq _ _ x ?_⟩
    simpa [Chip.layout] using written
  rw [clearFaults_eq] at cleared
  refine ⟨fun one => ?_, fun all => ?_, fun above other => ?_, ?_⟩
  · have other : index ≠ 0xFF := by omega
    simpa [other, clearedCount, clearAllIndex] using cleared (.inl one)
  · simpa [all, clearedCount, clearAllIndex] using cleared (.inr all)
  · have eq : d = _ := dispatchFaultClear_invalid slot seq c (by omega)
    rw [eq]
    exact ⟨by simp, by simp, writeDone_carries slot seq _ c⟩
  · by_cases valid : index ≤ 3 ∨ index = 0xFF
    · have eq : d = _ := dispatchFaultClear_valid slot seq c valid
      have kept : (c.mpt.clearFaults index).windows = c.mpt.windows ∧
          (c.mpt.clearFaults index).onBus = c.mpt.onBus := by
        rw [clearFaults_eq]
        split <;> exact ⟨rfl, rfl⟩
      rw [eq]
      simp [writeDone_openOrders, kept]
    · have eq : d = _ := dispatchFaultClear_invalid slot seq c valid
      rw [eq]
      simp [writeDone_openOrders]

end Sys2Proof.Machine
end

section
/-! SUPPORT. The take run (R133 to R135, R138): the slots that may be taken, how far the run moves the expected
sequence, and the end of the poll (R131, R143). -/

namespace Sys2Proof.Machine

/-! ## What the part reads of a slot (R128, R138) -/

/-- A slot is sealed when its seal fits (R128). -/
theorem slotSealed_iff (b : List Byte) : slotSealed b = true ↔ sealFits b := beq_iff_eq

/-- The row scopes are the scope codes 1 to 4 (R138). -/
theorem InvalOrder.isRowScope_iff (o : InvalOrder) : o.isRowScope = true ↔ 1 ≤ o.scope ∧ o.scope ≤ 4 := by
  simp only [InvalOrder.isRowScope, scopeAll, scopeGrid, scopeNodes, scopeGriddefs, Bool.or_eq_true, beq_iff_eq]
  omega

/-- A taken slot sets the drain-pending marker when it drains a row scope (R138). -/
theorem setsMarker_iff (b : List Byte) : setsMarker b = true ↔ drainsRows b := by
  simp [setsMarker, slotSealed_iff, InvalOrder.isRowScope_iff, parseInval, kindInvalidate, and_assoc]

/-- A slot that may be taken read POSTED with the expected sequence, is not on the open-order list and has not been
written in this run (R133). -/
theorem takeable_eq (o : Orders) (e : Nat × Option (List Byte)) :
    takeable o e = e.2.bind fun b =>
      if byteAt b 0 = 1 ∧ BitVec.ofNat 8 (byteAt b 1) = o.expected ∧ (∀ k ∈ o.openOrders, k.slot ≠ e.1) ∧
        e.1 ∉ o.takeRun.getD [] then some (e.1, b) else none := by
  obtain ⟨n, _ | b⟩ := e
  · rfl
  · simp [takeable, slotPosted, slotSeq, and_assoc]

theorem collectSlots_eq (o : Orders) (slots : List (Option (List Byte))) : collectSlots o slots = o.takeables slots :=
  congrArg (List.filterMap · (numbered 0 slots)) (funext (takeable_eq o))

/-! ## The run (R133) -/

/-- With no slot that may be taken the run ends. -/
theorem takeRun_none {slots : List (Option (List Byte))} {c : Chip} (none : c.ord.takeables slots = []) (n : Nat) :
    takeRun (n + 1) slots c = c := by
  rw [takeRun, collectSlots_eq, none]

/-- The run takes the lowest slot, and goes on unless the slot drains a row scope. -/
theorem takeRun_some {slots : List (Option (List Byte))} {c : Chip} {slot : Nat} {b : List Byte}
    {others : List (Nat × List Byte)} (some : c.ord.takeables slots = (slot, b) :: others) (n : Nat) :
    takeRun (n + 1) slots c =
      if drainsRows b then takeSlot slot b others c else takeRun n slots (takeSlot slot b others c) := by
  rw [takeRun, collectSlots_eq, some]
  simp only [setsMarker_iff]

/-- Each take consumes one sequence. -/
theorem takeSlot_expected (slot : Nat) (b : List Byte) (others : List (Nat × List Byte)) (c : Chip) :
    (takeSlot slot b others c).ord.expected = c.ord.expected + 1 := by
  simp [takeSlot]

/-- A run consumes at most as many sequences as its bound. -/
theorem takeRun_expected (n : Nat) (slots : List (Option (List Byte))) (c : Chip) :
    ∃ k ≤ n, (takeRun n slots c).ord.expected = c.ord.expected + BitVec.ofNat 8 k := by
  induction n generalizing c with
  | zero => exact ⟨0, le_rfl, by simp [takeRun]⟩
  | succ n ih =>
    rcases taken : c.ord.takeables slots with _ | ⟨⟨slot, b⟩, others⟩
    · exact ⟨0, Nat.zero_le _, by simp [takeRun_none taken]⟩
    · rw [takeRun_some taken]
      split
      · exact ⟨1, by omega, takeSlot_expected ..⟩
      · obtain ⟨k, few, moved⟩ := ih (takeSlot slot b others c)
        refine ⟨k + 1, by omega, ?_⟩
        rw [moved, takeSlot_expected, BitVec.add_assoc, Nat.add_comm, BitVec.ofNat_add]
        rfl

/-- A run that has taken a slot leaves another expected sequence than it found. -/
theorem takeRun_moves {slots : List (Option (List Byte))} {c : Chip} {slot : Nat} {b : List Byte}
    {others : List (Nat × List Byte)} (taken : c.ord.takeables slots = (slot, b) :: others) :
    (takeRun 32 slots c).ord.expected ≠ c.ord.expected := by
  have moved : ∃ k, k ≤ 31 ∧ (takeRun 32 slots c).ord.expected = c.ord.expected + 1 + BitVec.ofNat 8 k := by
    rw [takeRun_some taken, ← takeSlot_expected slot b others c]
    split
    · exact ⟨0, by omega, by simp⟩
    · exact takeRun_expected 31 slots _
  obtain ⟨k, few, moved⟩ := moved
  rw [moved]
  bv_omega

/-! ## The end of the poll (R131, R143) -/

/-- The part with the poll over, before a repeat mark is looked at: a run that took a slot has asked for a progress
block write. -/
def Chip.pollOver (taken : Bool) (c : Chip) : Chip :=
  let ended := c.onOrd fun o => { o with poll := none, repeatMark := false, takeRun := none }
  if taken then askProgress ended else ended

@[simp] theorem pollOver_frame (taken : Bool) (c : Chip) :
    (c.pollOver taken).ord = { c.ord with poll := none, repeatMark := false, takeRun := none } ∧
      (c.pollOver taken).mpt = c.mpt ∧ (c.pollOver taken).active = c.active := by
  cases taken <;> simp [Chip.pollOver, Chip.active]

@[simp] theorem pollOver_untaken (c : Chip) : (c.pollOver false).dlv = c.dlv := rfl

/-- A set repeat mark begins a new poll. -/
theorem endPoll_eq (taken : Bool) (c : Chip) :
    endPoll taken c = if c.ord.repeatMark then beginPoll (c.pollOver taken) else c.pollOver taken := rfl

/-- With the repeat mark clear the poll is over. -/
theorem endPoll_once (taken : Bool) {c : Chip} (once : c.ord.repeatMark = false) :
    endPoll taken c = c.pollOver taken := by
  rw [endPoll_eq, if_neg (Bool.eq_false_iff.mp once)]

/-- With the repeat mark set and no drain pending the table is read again. -/
theorem endPoll_again (taken : Bool) {c : Chip} (again : c.ord.repeatMark = true) (active : c.active = true)
    (drained : c.ord.drainPending = none) : endPoll taken c = readTable (beginReturnRead (c.pollOver taken)) := by
  rw [endPoll_eq, if_pos again, beginPoll_idle _ (by simpa using active) (by simp) (by simpa using drained)]

/-- What the end of a poll leaves of ORD. -/
theorem endPoll_ord (taken : Bool) (c : Chip) :
    (c.ord.repeatMark = false → (endPoll taken c).ord = { c.ord with poll := none, takeRun := none }) ∧
      (c.ord.repeatMark = true → c.active = true → c.ord.drainPending = none →
        (endPoll taken c).ord = { c.ord with
          poll := some [], repeatMark := false, takeRun := none, polls := countUp c.ord.polls }) := by
  refine ⟨fun once => ?_, fun again active drained => ?_⟩
  · simp [endPoll_once taken once, once]
  · simp [endPoll_again taken again active drained, readTable_ord]

/-- The end of a poll loses no access. -/
theorem endPoll_carries (taken : Bool) (c : Chip) (x : Access) (h : c.mpt.carries x) :
    (endPoll taken c).mpt.carries x := by
  have ended : (c.pollOver taken).mpt.carries x := by simpa using h
  rw [endPoll_eq]
  split
  · exact beginPoll_carries _ x ended
  · exact ended

/-- A progress block write that has been asked for stays so to the end of the poll. -/
theorem endPoll_asks {before : Dlv} {c : Chip} (taken : Bool) (h : before.Asks (c.pollOver taken).dlv) :
    before.Asks (endPoll taken c).dlv := by
  rw [endPoll_eq]
  split
  · exact beginPoll_asks h
  · exact h

/-- A run that took a slot asks in BOUND, LISTENING and STOPPING (R143). -/
theorem pollOver_asks {before : Dlv} {c : Chip} (active : c.active = true)
    (progress : c.dlv.progress = before.progress) : before.Asks (c.pollOver true).dlv := by
  have asks := (Dlv.asksOnly_ask c.dlv).asks
  rw [Dlv.Asks, progress] at asks
  rwa [Chip.pollOver, if_pos rfl, askProgress_dlv _ (by simpa [Chip.active] using active)]

/-! ## The answers of the slot reads (R132) -/

/-- What the end of an access keeps in BOUND, LISTENING and STOPPING: all but the memory port, and what DLV shows of a
fault. -/
@[simp] theorem accessEnded_frame (a : Access) (x : Option (List Byte)) (c : Chip) :
    (c.accessEnded a x).rgp = c.rgp ∧ (c.accessEnded a x).lki = c.lki ∧ (c.accessEnded a x).chc = c.chc ∧
      (c.accessEnded a x).ccu = c.ccu ∧ (c.accessEnded a x).sce = c.sce ∧ (c.accessEnded a x).tcu = c.tcu ∧
      (c.accessEnded a x).ord = c.ord ∧ (c.accessEnded a x).dlv.progress = c.dlv.progress ∧
      (c.accessEnded a x).dlv.pick = c.dlv.pick ∧ (c.accessEnded a x).dlv.event = c.dlv.event ∧
      (c.accessEnded a x).dlv.pendingEvents = c.dlv.pendingEvents ∧
      (c.accessEnded a x).dlv.counters = c.dlv.counters := by
  cases x <;> simp [Chip.accessEnded]

/-- An answer before the last joins the poll. -/
theorem slotReadAnswered_early {c : Chip} {got : List (Option (List Byte))} (a : Access) (x : Option (List Byte))
    (poll : c.ord.poll = some got) (early : got.length + 1 < 32) :
    slotReadAnswered a x c = c.onOrd fun o => { o with poll := some (got ++ [x]) } := by
  simp [slotReadAnswered, poll, slotCount, early]

/-- The part when the take run begins: the poll has its 32 slots and none of them has been written. -/
def Chip.runBegins (slots : List (Option (List Byte))) (c : Chip) : Chip :=
  c.onOrd fun o => { o with poll := some slots, takeRun := some [] }

/-- After the last answer the take run follows, and the poll ends. -/
theorem slotReadAnswered_last {c : Chip} {got : List (Option (List Byte))} (a : Access) (x : Option (List Byte))
    (poll : c.ord.poll = some got) (last : 32 ≤ got.length + 1) :
    slotReadAnswered a x c =
      let run := takeRun 32 (got ++ [x]) (c.runBegins (got ++ [x]))
      endPoll (decide (run.ord.expected ≠ c.ord.expected)) run := by
  have done : ¬ (got ++ [x]).length < slotCount := by simpa [slotCount] using last
  simp only [slotReadAnswered, poll, if_neg done]
  rfl

/-- Each item with its number, in the words of the library. -/
theorem numbered_eq_zipIdx {α : Type} (l : List α) (start : Nat) :
    numbered start l = (l.zipIdx start).map Prod.swap := by
  induction l generalizing start with
  | nil => rfl
  | cons x l ih => simp [numbered, List.zipIdx_cons, ih]

/-- The slots by their numbers. -/
theorem mem_numbered {α : Type} (l : List α) (n : Nat) (x : α) : (n, x) ∈ numbered 0 l ↔ l[n]? = some x := by
  simp [numbered_eq_zipIdx, List.mk_mem_zipIdx_iff_getElem?]

/-- With each POSTED slot of the expected sequence on the open-order list none may be taken. -/
theorem takeables_eq_nil {o : Orders} {slots : List (Option (List Byte))}
    (open_ : ∀ (n : Nat) (y : List Byte), slots[n]? = some (some y) → byteAt y 0 = 1 →
      BitVec.ofNat 8 (byteAt y 1) = o.expected → ∃ e ∈ o.openOrders, e.slot = n) : o.takeables slots = [] := by
  rw [Orders.takeables, List.filterMap_eq_nil_iff]
  rintro ⟨n, x⟩ listed
  rw [mem_numbered] at listed
  cases x with
  | none => rfl
  | some y =>
    refine if_neg fun ⟨posted, expected, free, _⟩ => ?_
    obtain ⟨e, listedOpen, slot⟩ := open_ n y listed posted expected
    exact free e listedOpen slot

end Sys2Proof.Machine
end

section
/-! PROOFS. The statement about the slot reads of a poll and the take run (R131 to R134, R138, R143, R171, R172). -/

namespace Sys2Proof.Machine

/-- Settles O41: the take run by its first take; a slot read by whether it is the last one, and then by whether there
is an order to take. -/
theorem slotReadsGatherThePoll : Obligations.SlotReadsGatherThePoll := by
  refine ⟨fun n slots c => ⟨fun none => takeRun_none none n, fun slot b others some => takeRun_some some n⟩, ?_⟩
  intro c q a x k got onBus purpose length active running notAsked poll
  have of : faultSourceOf a.purpose = .orders := congrArg faultSourceOf purpose
  let e := c.accessEnded a x
  have next : exec (.orderSlotReadDone (readAnswerOf x)) ⟨c, q⟩ =
      .next ⟨concludeStep (slotReadAnswered a x e), q⟩ :=
    answerRead_handled isSlotRead slotReadAnswered c q a x onBus (by rw [purpose]; rfl) (by rw [purpose]; rfl) length
      active running
  obtain ⟨records, -⟩ := accessEnded_records of x c
  have data (h : x.isSome = true) : e.dlv = c.dlv := if_pos h
  refine ⟨fun early => ?_, fun slot b others last taken => ?_, fun last free => ?_⟩
  · rw [slotReadAnswered_early (c := e) a x poll early] at next
    refine ⟨_, next, by simp [e], by simp [e], by simp [e], by simp [e], by simp [e], by simp [e], by simp [e],
      fun some => ?_, fun failed => ?_, by simp [e], by simpa [e] using records⟩
    · exact (concludeStep_dlv_of_notAsked (by simpa [data some] using notAsked)).trans (data some)
    · subst failed
      have shows := concludeStep_onlyShows (before := { c.dlv with faultUnshown := true })
        (e.onOrd fun o => { o with poll := some (got ++ [none]) }) (active rfl) (accessEnded_asks a c)
      exact shows
  · intro start first run
    have begins : e.runBegins (got ++ [x]) = start := by
      simp only [e, Chip.accessEnded, of]
      rfl
    have ran : takeRun 32 (got ++ [x]) start = run := takeRun_some taken 31
    have moved : decide (run.ord.expected ≠ c.ord.expected) = true := by
      rw [← ran]
      exact decide_eq_true (takeRun_moves (c := start) taken)
    have ended : slotReadAnswered a x e = endPoll true run := by
      rw [slotReadAnswered_last (c := e) a x poll (Nat.le_of_eq last.symm), begins, ran, ← moved]
      rfl
    rw [ended] at next
    obtain ⟨once, again⟩ := endPoll_ord true run
    refine ⟨_, next, by simp, by simp, by simp, by simp, by simp, by simp, by simp [Dlv.keepsStreams], by simp,
      by simp, by simp, fun y carried => concludeStep_carries _ y (endPoll_carries true run y carried),
      fun h => by simpa using once h, fun h active drained => by simpa using again h active drained, fun active => ?_⟩
    have progress : run.dlv.progress = c.dlv.progress := by simp [← ran, ← begins, e, Chip.runBegins]
    exact concludeStep_showsNext (by simpa using active) (endPoll_asks true (pollOver_asks active progress))
  · let run := e.runBegins (got ++ [x])
    have ord : run.ord = { c.ord with poll := some (got ++ [x]), takeRun := some [] } := by
      simp [run, Chip.runBegins, e]
    have dlv : run.dlv = e.dlv := rfl
    have kept : run.active = c.active := rfl
    have nothing : takeRun 32 (got ++ [x]) run = run := takeRun_none (takeables_eq_nil (by rwa [ord])) 31
    have ended : slotReadAnswered a x e = endPoll false run := by
      rw [slotReadAnswered_last (c := e) a x poll last, nothing]
      simp [ord, e]
    rw [ended] at next
    obtain ⟨once, again⟩ := endPoll_ord false run
    rw [ord] at once again
    refine ⟨_, next, fun h => ⟨by simpa using once h, fun some => ?_⟩,
      fun h active drained => ⟨by simpa using again h active drained, ?_⟩, ?_, fun failed => ?_, ?_⟩
    · rw [endPoll_once (c := run) false h]
      exact (concludeStep_dlv_of_notAsked (by simpa [dlv, data some] using notAsked)).trans (data some)
    · rw [endPoll_again (c := run) false h active drained]
      have read := beginReturnRead_dlv (run.pollOver false) (by simpa [kept] using active)
      simp [read]
    · simp [Dlv.keepsStreams, dlv, e]
    · subst failed
      have asks : c.dlv.Asks (run.pollOver false).dlv := (accessEnded_asks a c).asks
      exact concludeStep_showsNext (by simpa [kept] using active rfl) (endPoll_asks false asks)
    · simpa [run, e, Chip.runBegins] using records

end Sys2Proof.Machine
end

section
/-! SUPPORT. What an order leaves of its slot, in whole equations (R129, R130, R133, R138, R143), and one take of the
run (R133, R135). -/

namespace Sys2Proof.Machine

/-! ## The slot of an order (R129, R130, R143) -/

theorem writeDone_eq_slotDone (slot : Nat) (seq : BitVec 8) (r : SlotResult) (c : Chip) :
    writeDone slot seq r c = c.slotDone slot seq r := by
  cases run : c.ord.takeRun <;> cases active : c.rgp.partState.active <;>
    simp [writeDone, askOutsideRun, writeSlot, noteSlotWritten, closeOrder, requestAll, Chip.onOrd, Chip.onMpt,
      Mpt.waits, Mpt.setWaits, askProgress, Chip.active, Chip.onDlv, Chip.layout, Chip.slotDone, Chip.slotWritten, run, active]

theorem writeTaken_eq_slotTaken (slot : Nat) (seq : BitVec 8) (kind : OpenKind) (word1 : Nat) (c : Chip) :
    writeTaken slot seq kind word1 c = c.slotTaken slot seq kind word1 := rfl

/-- During a poll the report of the order that set the drain-pending marker repeats it. -/
theorem reportInval_eq_slotReported (o : InvalOrder) (r : SlotResult) {c : Chip} (active : c.active = true)
    (poll : c.ord.poll.isSome = true) : reportInval o.slot o.seq r c = c.slotReported o r := by
  unfold reportInval Chip.slotReported
  split
  · rw [beginPoll_busy _ (by simpa [Chip.active] using active) (by simpa using poll), writeDone_eq_slotDone]
    rfl
  · exact writeDone_eq_slotDone ..

/-! ## One take (R133, R135) -/

/-- The duplicates of a take are counted and written one after another. -/
theorem writeDuplicates_eq (others : List (Nat × List Byte)) (c : Chip) :
    writeDuplicates others c = others.foldl (fun e o =>
      { e with ord := { e.ord with duplicates := countUp e.ord.duplicates } }.slotDone o.1
        (BitVec.ofNat 8 (byteAt o.2 1)) ⟨2, 0, 0, 0⟩) c := by
  induction others generalizing c with
  | nil => rfl
  | cons o rest ih =>
    rw [writeDuplicates, ih, writeDone_eq_slotDone]
    rfl

/-- Each duplicate is counted. -/
theorem writeDuplicates_duplicates (others : List (Nat × List Byte)) (c : Chip) :
    (writeDuplicates others c).ord.duplicates = addCount c.ord.duplicates others.length := by
  induction others generalizing c with
  | nil => simp [writeDuplicates]
  | cons o rest ih => simp [writeDuplicates, ih, countUp, addCount_addCount, Nat.add_comm]

/-- An order is dispatched by its kind, with the fields of the kind (R135, R180). -/
theorem dispatchOrder_eq (slot : Nat) (b : List Byte) (c : Chip) :
    dispatchOrder slot b c =
      match byteAt b 4 with
      | 1 => dispatchScan slot (slotSeq b) (parseScan b) c
      | 2 => dispatchInval (parseInval slot b) c
      | 3 => dispatchCancel slot (slotSeq b) (leValue b 8 2) c
      | 4 => dispatchMark slot (slotSeq b) (BitVec.ofNat 32 (leValue b 8 4)) c
      | 5 => dispatchFaultClear slot (slotSeq b) (byteAt b 8) c
      | _ => c.slotDone slot (slotSeq b) ⟨4, 0, 0, 0⟩ := by
  rw [← writeDone_eq_slotDone]
  unfold dispatchOrder
  split <;> simp_all [kindScan, kindInvalidate, kindCancel, kindMark, kindFaultClear]
  rfl

/-- A slot is judged by its seal (R135). -/
theorem judgeSlot_eq (slot : Nat) (b : List Byte) (c : Chip) :
    judgeSlot slot b c =
      if sealFits b then dispatchOrder slot b c
      else { c with ord := { c.ord with torn := countUp c.ord.torn } }.slotDone slot (slotSeq b) ⟨3, 0, 0, 0⟩ := by
  simp only [judgeSlot, slotSealed_iff, writeDone_eq_slotDone]
  rfl

/-- A take counts the slot, its duplicates, and a seal that does not fit. -/
theorem takeSlot_counts (slot : Nat) (b : List Byte) (others : List (Nat × List Byte)) (c : Chip) :
    (takeSlot slot b others c).ord.expected = c.ord.expected + 1 ∧
      (takeSlot slot b others c).ord.taken = countUp c.ord.taken ∧
      (takeSlot slot b others c).ord.duplicates = addCount c.ord.duplicates others.length ∧
      (takeSlot slot b others c).ord.torn = (if sealFits b then c.ord.torn else countUp c.ord.torn) := by
  refine ⟨takeSlot_expected .., by simp [takeSlot], by simp [takeSlot, writeDuplicates_duplicates], ?_⟩
  simp only [takeSlot, judgeSlot_eq, Chip.onOrd_ord]
  split
  · simp
  · simp [← writeDone_eq_slotDone]

end Sys2Proof.Machine
end

section
/-! SUPPORT. The dispatch of a SCAN order (R70, R73, R136): the checks in order, and the request that joins the queue. -/

namespace Sys2Proof.Machine

/-! ## SCAN (R136) -/

/-- A SCAN order whose own fields fail the parameter checks of R136. -/
def ScanOrder.Malformed (o : ScanOrder) : Prop :=
  3 < o.grid ∨ 3 < o.level ∨ o.t0End < o.t0Start ∨ (o.step ≠ 1 ∧ o.step ≠ 2 ∧ o.step ≠ 4) ∨
    2048 < (o.t0End - o.t0Start) / o.step + 1

/-- The checks that rest on a defined grid 0 to 3: the order is well formed, and its nodes lie in the grid. -/
theorem scanRangeValid_iff {o : ScanOrder} (g : GridDef) (grid : o.grid ≤ 3) :
    scanRangeValid o g = true ↔ ¬ o.Malformed ∧ (o.count = 0 ∨ o.first + o.count ≤ g.nodeCount) := by
  simp only [scanRangeValid, stepValid, ScanOrder.originTimes, ScanOrder.Malformed, Bool.and_eq_true, Bool.or_eq_true,
    beq_iff_eq, decide_eq_true_eq]
  grind

/-- An order that fails a parameter check, or names an undefined grid, is BAD-PARAM. -/
theorem checkScan_badParam {o : ScanOrder} {c : Chip}
    (bad : ∀ g, gridDefn c.tcu.grids o.grid = some g → o.Malformed ∨ (o.count ≠ 0 ∧ g.nodeCount < o.first + o.count)) :
    checkScan o c = some 5 := by
  unfold checkScan
  split
  case h_1 => rfl
  case h_2 g named =>
    obtain ⟨grid, defined⟩ : o.grid ≤ 3 ∧ gridDefn c.tcu.grids o.grid = some g := by simpa [scanGrid] using named
    have invalid : ¬ scanRangeValid o g = true := by
      rw [scanRangeValid_iff g grid]
      rintro ⟨well, inside⟩
      exact (bad g defined).elim well fun ⟨counted, beyond⟩ => by omega
    simp [invalid, codeBadParam]

/-- An order whose parameters pass is judged by the part state and then by the age of its span. -/
theorem checkScan_valid {o : ScanOrder} {c : Chip} {g : GridDef} (defined : gridDefn c.tcu.grids o.grid = some g)
    (well : ¬ o.Malformed) (inside : o.count = 0 ∨ o.first + o.count ≤ g.nodeCount) :
    checkScan o c =
      if c.rgp.partState ≠ .listening then some 6
      else if staleScan c.lki.horizon o.t0Start g.ttmin then some 7 else none := by
  have grid : o.grid ≤ 3 := Nat.le_of_not_lt fun beyond => well (.inl beyond)
  have valid : scanRangeValid o g = true := (scanRangeValid_iff g grid).mpr ⟨well, inside⟩
  simp [checkScan, scanGrid, grid, defined, valid, codeNotListening, codeStale]

/-- A refused SCAN order is DONE with the code of the first check it fails. -/
theorem dispatchScan_refused {slot : Nat} {seq : BitVec 8} {o : ScanOrder} {c : Chip} {code : Nat}
    (refused : checkScan o c = some code) : dispatchScan slot seq o c = c.slotDone slot seq ⟨code, 0, 0, 0⟩ := by
  rw [dispatchScan, refused]
  exact writeDone_eq_slotDone ..

/-- With eight requests waiting a SCAN order is BUSY (R73). -/
theorem dispatchScan_busy {slot : Nat} {seq : BitVec 8} {o : ScanOrder} {c : Chip} (passed : checkScan o c = none)
    (full : 8 ≤ c.ccu.queue.length) : dispatchScan slot seq o c = c.slotDone slot seq ⟨8, 0, 0, 0⟩ := by
  have busy : takeScanOrder slot seq o c = (c, none) := if_neg (Nat.not_lt.mpr full)
  rw [dispatchScan, passed, busy]
  exact writeDone_eq_slotDone ..

/-- The part with the request of a SCAN order in the queue (R68, R69). -/
def Chip.scanQueued (slot : Nat) (seq : BitVec 8) (o : ScanOrder) (c : Chip) : Chip :=
  enqueue (orderedRequest ((c.tcu.settings.map Settings.settleLag).getD 0) (nextRequestNumber c.ccu.requestCounter) slot
    seq o) c

/-- With room the request joins the queue, the slot is TAKEN with its number, and CCU offers the ripe requests. -/
theorem dispatchScan_queued {slot : Nat} {seq : BitVec 8} {o : ScanOrder} {c : Chip} (passed : checkScan o c = none)
    (room : c.ccu.queue.length < 8) :
    dispatchScan slot seq o c =
      offerRipe ((c.scanQueued slot seq o).slotTaken slot seq .scan (nextRequestNumber c.ccu.requestCounter)) := by
  have queued : takeScanOrder slot seq o c = (c.scanQueued slot seq o, some (nextRequestNumber c.ccu.requestCounter)) :=
    if_pos room
  rw [dispatchScan, passed, queued]
  rfl

/-- An offer with a bank in service, or with no request ripe, changes nothing (R70, R83). -/
theorem offerRipe_eq_self {c : Chip} (still : c.sce.banks.any Option.isSome = true ∨
    ∀ r ∈ c.ccu.queue, ∀ hz, c.lki.horizon = some hz → hz ≤ r.refTick + r.settleLag) : offerRipe c = c := by
  refine if_neg fun offered => ?_
  obtain ⟨ripe, idle⟩ := Bool.and_eq_true_iff.mp offered
  obtain ⟨r, waits, ripe⟩ := List.any_eq_true.mp ripe
  obtain ⟨hz, horizon, before⟩ := (Request.ripe_iff _ r).mp ripe
  rcases still with busy | unripe
  · simp [anyInService, busy] at idle
  · exact absurd (unripe r waits hz horizon) (by omega)

end Sys2Proof.Machine
end

section
/-! SUPPORT. Records of coherence 0 (R155 to R158): what DLV does with a marker and with the outcome of a cancelled
request, and with it the dispatch of a MARK order (R141, R159). -/

namespace Sys2Proof.Machine

/-! ## A record that is delivered (R156 to R158) -/

/-- With fewer than eight records waiting the record takes the next sequence, whether it is written or joins them. -/
theorem deliverContent_takes (content : EventContent) {c : Chip} (few : c.dlv.pendingEvents.length < 8) :
    deliverContent content c =
      (if c.dlv.pendingEvents = [] ∧ c.dlv.event.hasRoom = true then writeDirect content c else appendRecord content c,
        some (nextSequence c.dlv.event.sequence)) := by
  simp only [deliverContent, if_pos few, Bool.and_eq_true, List.isEmpty_iff]
  split <;> rfl

/-- With eight records waiting a record of coherence 0 has met a stream with no room and is lost. -/
theorem deliverContent_loses {content : EventContent} {c : Chip} (full : 8 ≤ c.dlv.pendingEvents.length)
    (plain : coherence content = 0) :
    deliverContent content c = (countLostEvent (meetNoRoom .event c), none) := by
  rw [deliverContent, if_neg (Nat.not_lt.mpr full), deliverFull]
  dsimp only
  split
  · rfl
  · rw [if_neg (by simp [plain])]

/-- The sequence that DLV gives a record of coherence 0 (R156, R157). -/
theorem deliverContent_given {content : EventContent} (c : Chip) (plain : coherence content = 0) :
    ((deliverContent content c).2.map BitVec.toNat).getD 0 = c.dlv.sequenceGiven := by
  rw [Dlv.sequenceGiven]
  split
  case isTrue few =>
    rw [deliverContent_takes content few]
    exact apply_ite BitVec.toNat _ _ _
  case isFalse full => rw [deliverContent_loses (Nat.not_lt.mp full) plain]; rfl

/-- A record that is written directly takes the next slot. -/
theorem writeDirect_eq (content : EventContent) (c : Chip) :
    writeDirect content c = { c with
      dlv := { c.dlv with event := { c.dlv.event with
        sequence := nextSequence c.dlv.event.sequence, written := c.dlv.event.written + 1 } }
      mpt := { c.mpt with waitDlv := c.mpt.waitDlv ++ [writeAccess (.record .event)
        (c.layout.events + (c.dlv.event.written.toNat % c.dlv.event.slots) * 256)
        (eventBytes ⟨nextSequence c.dlv.event.sequence, content⟩)] } } := rfl

/-- The no-room mark is set, and ROOM with it when it was clear (R153). -/
theorem meetNoRoom_event (c : Chip) :
    (meetNoRoom .event c).dlv.event = { c.dlv.event with noRoom := true } ∧
      (c.dlv.event.noRoom = false → (meetNoRoom .event c).raised causeRoom) := by
  rw [Chip.raised, meetNoRoom]
  simp only [beginReturnRead_frame]
  cases marked : c.dlv.event.noRoom with
  | true =>
    have kept : markNoRoom .event c = c := if_pos marked
    rw [kept]
    exact ⟨by rw [← marked], nofun⟩
  | false =>
    have set : markNoRoom .event c = setCause causeRoom (onStream .event (fun s => { s with noRoom := true }) c) :=
      if_neg (by simpa [Dlv.stream] using marked)
    rw [set]
    exact ⟨rfl, fun _ => setCause_raised _ _ (by decide)⟩

/-- The pending write takes no sequence. -/
theorem writePending_sequence (l : List EventRecord) (c : Chip) :
    (writePending l c).dlv.event.sequence = c.dlv.event.sequence := by
  induction l generalizing c with
  | nil => rfl
  | cons r rest ih =>
    rw [writePending]
    split
    · exact ih _
    · split
      · rfl
      · rw [(meetNoRoom_event _).1]
        rfl

/-- A record that joins those that wait takes the next sequence. -/
theorem appendRecord_sequence (content : EventContent) (c : Chip) :
    (appendRecord content c).dlv.event.sequence = nextSequence c.dlv.event.sequence := by
  unfold appendRecord
  dsimp only
  split
  · exact writePending_sequence _ (joinPending content c)
  · rw [(meetNoRoom_event _).1]
    rfl

/-- With no room in the stream the record waits. -/
theorem appendRecord_waits (content : EventContent) {c : Chip} (noRoom : c.dlv.event.hasRoom = false) :
    appendRecord content c = meetNoRoom .event (joinPending content c) :=
  if_neg (Bool.eq_false_iff.mp noRoom)

/-! ## MARK (R141) -/

/-- The part with a marker counted (R159). -/
def Chip.markerCounted (c : Chip) : Chip := c.onDlvCounters fun n => { n with markers := countUp n.markers }

/-- With eight records waiting the marker is LOST. -/
theorem dispatchMark_lost {c : Chip} (slot : Nat) (seq : BitVec 8) (tag : Word32)
    (full : 8 ≤ c.dlv.pendingEvents.length) :
    dispatchMark slot seq tag c =
      (countLostEvent (meetNoRoom .event c.markerCounted)).slotDone slot seq ⟨14, 0, 0, 0⟩ := by
  have lost : deliverMarker tag c = _ := deliverContent_loses (content := .marker tag) (c := c.markerCounted) full rfl
  rw [dispatchMark, lost]
  exact writeDone_eq_slotDone ..

/-- Otherwise it is OK with its sequence. -/
theorem dispatchMark_given {c : Chip} (slot : Nat) (seq : BitVec 8) (tag : Word32)
    (few : c.dlv.pendingEvents.length < 8) :
    dispatchMark slot seq tag c =
      (if c.dlv.pendingEvents = [] ∧ c.dlv.event.hasRoom = true then writeDirect (.marker tag) c.markerCounted
        else appendRecord (.marker tag) c.markerCounted).slotDone slot seq
          ⟨1, (nextSequence c.dlv.event.sequence).toNat, 0, 0⟩ := by
  have given : deliverMarker tag c = _ := deliverContent_takes (.marker tag) (c := c.markerCounted) few
  rw [dispatchMark, given]
  exact writeDone_eq_slotDone ..

end Sys2Proof.Machine
end

section
/-! SUPPORT. The finish of a cancelled request (R75, R76, R101 to R103, R137, R140, R155): what DLV has received of it,
the slot of its order, and the rest of the part. -/

namespace Sys2Proof.Machine

/-! ## Accesses that are carried (R169) -/

theorem writeDone_carried (slot : Nat) (seq : BitVec 8) (r : SlotResult) {c : Chip} {x : Access} (h : c.mpt.carries x) :
    (writeDone slot seq r c).mpt.carries x := by
  have mpt : (writeDone slot seq r c).mpt = (writeSlot slot seq true r c).mpt := by simp [writeDone]
  rw [mpt, writeSlot, requestAll_carries]
  exact .inl h

theorem completeScan_carried (order : Option (Nat × BitVec 8)) (number : Nat) (o : ScanOutcome) (seq : Option Word32)
    {c : Chip} {x : Access} (h : c.mpt.carries x) : (completeScan order number o seq c).mpt.carries x := by
  cases order with
  | none => exact h
  | some _ => exact writeDone_carried _ _ _ h

theorem completeCancels_carried (number : Nat) (cancelled : Bool) (l : List (Nat × BitVec 8)) {c : Chip} {x : Access}
    (h : c.mpt.carries x) : (completeCancels number cancelled l c).mpt.carries x := by
  induction l generalizing c with
  | nil => exact h
  | cons _ rest ih => exact ih (writeDone_carried _ _ _ h)

theorem reportInval_carried (slot : Nat) (seq : BitVec 8) (r : SlotResult) {c : Chip} {x : Access}
    (h : c.mpt.carries x) : (reportInval slot seq r c).mpt.carries x := by
  unfold reportInval
  split
  · exact beginPoll_carries _ x (writeDone_carried (c := c.onOrd _) _ _ _ h)
  · exact writeDone_carried _ _ _ h

theorem drainFinished_carried (number : Nat) {c : Chip} {x : Access} (h : c.mpt.carries x) :
    (drainFinished number c).mpt.carries x := by
  unfold drainFinished
  split
  · exact h
  · dsimp only
    split
    · exact reportInval_carried (c := c.onTcu _) _ _ _ h
    · exact h

/-! ## The outcome that DLV receives (R155, R156) -/

/-- DLV receives the outcome that it is handed. -/
theorem deliverOutcome_delivers (o : EventOutcome) (c : Chip) : c.delivers o (deliverOutcome o c).1 := by
  rw [Chip.delivers]
  split
  case isTrue unreported =>
    have counted : deliverOutcome o c = _ := if_pos unreported
    rw [counted]
    exact ⟨rfl, rfl⟩
  case isFalse reported =>
    intro none room seq
    rw [deliverOutcome_reported o c (Bool.eq_false_iff.mpr reported), deliverContent_takes _ (by simp [none]),
      if_pos ⟨none, room⟩, writeDirect_eq]
    exact ⟨rfl, rfl, .inr (.inr (.inr (.inr (List.mem_append_right _ (List.mem_singleton_self _)))))⟩

/-- What DLV has received stays received while its counters and the event stream do not change and no access is lost. -/
theorem Chip.delivers.mono {c d e : Chip} {o : EventOutcome} (h : c.delivers o d)
    (counters : e.dlv.counters = d.dlv.counters) (event : e.dlv.event = d.dlv.event)
    (carried : ∀ x, d.mpt.carries x → e.mpt.carries x) : c.delivers o e := by
  unfold Chip.delivers at h ⊢
  rw [counters, event]
  split at h
  case isTrue unreported => rwa [if_pos unreported]
  case isFalse reported =>
    rw [if_neg reported]
    intro none room
    obtain ⟨counted, given, written⟩ := h none room
    exact ⟨counted, given, carried _ written⟩

/-- The sequence that DLV gives the outcome of a cancelled request. -/
theorem deliverOutcome_given {o : EventOutcome} (c : Chip) (cancelled : o.outcome = .cancelled) :
    ((deliverOutcome o c).2.map BitVec.toNat).getD 0 = c.dlv.sequenceGiven := by
  rw [deliverOutcome_reported o c (by rw [cancelled]; rfl),
    deliverContent_given _ (by simp [coherence, finalPeakOf, cancelled])]
  rfl

/-! ## The slot of the order (R137) -/

/-- The slot of an ORDERED request is written DONE with its outcome and its event sequence. -/
theorem completeScan_carries {order : Option (Nat × BitVec 8)} {k : Nat} {s : BitVec 8} (ordered : order = some (k, s))
    (number : Nat) (o : ScanOutcome) (seq : Option Word32) (c : Chip) :
    ∀ y ∈ slotAccesses c.layout k s true ⟨1, number, outcomeCode o, (seq.map BitVec.toNat).getD 0⟩,
      (completeScan order number o seq c).mpt.carries y := by
  subst ordered
  exact writeDone_carries k s _ c

/-- The collapse target that named a finished request is gone (R66). -/
theorem clearTarget_ccu (number : Nat) (c : Chip) :
    (clearTarget number c).ccu = { c.ccu with
      target := if c.ccu.target.map CollapseTarget.number = some number then none else c.ccu.target } := by
  simp only [clearTarget, Chip.onCcu_ccu]
  split <;> rfl

/-- With no drain under way a finish completes none. -/
theorem drainFinished_idle (number : Nat) {c : Chip} (idle : c.tcu.drain = none) : drainFinished number c = c := by
  rw [drainFinished, idle]

/-! ## A waiting request (R75, R76) -/

/-- A waiting request that is cancelled: its outcome goes to DLV and its slot is DONE, and SCE, CHC, LKI and TCU are not
concerned. -/
structure Chip.CancelsWaiting (c : Chip) (r : Request) (e : Chip) : Prop where
  ccu : e.ccu = { c.ccu with
    queue := c.ccu.queue.filter fun x => x.number != r.number
    target := if c.ccu.target.map CollapseTarget.number = some r.number then none else c.ccu.target }
  delivers : c.delivers (waitingOutcome r .cancelled) e
  declared : r.order = none → e.ord = c.ord
  ordered : ∀ k s, r.order = some (k, s) →
    (∀ y ∈ slotAccesses c.layout k s true ⟨1, r.number, 5, c.dlv.sequenceGiven⟩, e.mpt.carries y) ∧
      e.ord.openOrders = c.ord.openOrders.filter fun x => x.slot != k
  blocks : e.lki = c.lki ∧ e.chc = c.chc ∧ e.sce = c.sce ∧ e.tcu = c.tcu

theorem finishWaiting_cancels (r : Request) (c : Chip) : c.CancelsWaiting r (finishWaiting .cancelled r c) := by
  let d := deliverOutcome (waitingOutcome r .cancelled) (takeRequest r.number c)
  have finished : finishWaiting .cancelled r c =
      completeScan r.order r.number .cancelled d.2 (clearTarget r.number d.1) := rfl
  have received : c.delivers (waitingOutcome r .cancelled) d.1 := deliverOutcome_delivers _ (takeRequest r.number c)
  refine ⟨finishWaiting_ccu _ r c, ?_, fun declared => ?_, fun k s ordered => ?_, by simp⟩
  · rw [finished]
    refine received.mono (by simp) (by simp) fun x h => completeScan_carried _ _ _ _ (by simpa using h)
  · rw [finished, declared]
    simp [completeScan, d, takeRequest]
  · have given : (d.2.map BitVec.toNat).getD 0 = c.dlv.sequenceGiven :=
      deliverOutcome_given (takeRequest r.number c) rfl
    have written := completeScan_carries ordered r.number .cancelled d.2 (clearTarget r.number d.1)
    rw [given] at written
    have layout : (clearTarget r.number d.1).layout = c.layout := by simp [Chip.layout, d, takeRequest]
    rw [layout] at written
    refine ⟨by rw [finished]; exact written, ?_⟩
    rw [finished, ordered]
    simp [completeScan, writeDone_openOrders, d, takeRequest]

/-! ## A request in service (R101 to R103) -/

/-- A scan that is cancelled: its bank is FREE, its outcome has gone to DLV and its slot is DONE. -/
structure Chip.CancelsScan (c : Chip) (bank : Nat) (sc : Scan) (e : Chip) : Prop where
  sce : e.sce = { c.sce with banks := c.sce.banks.set bank none }
  ccu : e.ccu = { c.ccu with
    target := if c.ccu.target.map CollapseTarget.number = some sc.request.number then none else c.ccu.target }
  delivers : c.delivers (scanOutcome sc .cancelled []) e
  ordered : ∀ k s, sc.request.order = some (k, s) →
    ∀ y ∈ slotAccesses c.layout k s true ⟨1, sc.request.number, 5, c.dlv.sequenceGiven⟩, e.mpt.carries y
  blocks : e.lki = c.lki ∧ e.chc = c.chc
  tables : c.tcu.drain = none → e.tcu = c.tcu

theorem finishScan_cancels (bank : Nat) (sc : Scan) (c : Chip) :
    c.CancelsScan bank sc (finishScan bank sc .cancelled [] c) := by
  let n := sc.request.number
  let d := deliverOutcome (scanOutcome sc .cancelled []) c
  let f := clearTarget n (setBank bank none d.1)
  let w := completeScan sc.request.order n .cancelled d.2 f
  have finished : finishScan bank sc .cancelled [] c =
      stoppingToBound (drainFinished n (completeCancels n true sc.cancels w)) := rfl
  have received : c.delivers (scanOutcome sc .cancelled []) d.1 := deliverOutcome_delivers _ c
  have carried (x : Access) (h : w.mpt.carries x) : (finishScan bank sc .cancelled [] c).mpt.carries x := by
    rw [finished]
    have h := drainFinished_carried n (completeCancels_carried n true sc.cancels h)
    simpa using h
  refine ⟨?_, ?_, ?_, fun k s ordered y written => carried y ?_, by simp, fun idle => ?_⟩
  · simp [finished, w, f, d, setBank, modifyAt_const]
  · simp [finished, w, f, d, clearTarget_ccu, n]
  · refine received.mono (by simp [finished, w, f]) (by simp [finished, w, f]) fun x h =>
      carried x (completeScan_carried _ _ _ _ (by simpa [f] using h))
  · have given : (d.2.map BitVec.toNat).getD 0 = c.dlv.sequenceGiven := deliverOutcome_given c rfl
    have layout : f.layout = c.layout := by simp [Chip.layout, f, d]
    refine completeScan_carries ordered n .cancelled d.2 f y ?_
    rw [given, layout]
    exact written
  · have still : (completeCancels n true sc.cancels w).tcu = c.tcu := by simp [w, f, d]
    rw [finished, drainFinished_idle n (still ▸ idle)]
    simpa using still

/-! ## CANCEL (R140) -/

/-- The request that a number names in the queue has that number. -/
theorem find_number {l : List Request} {number : Nat} {r : Request}
    (found : l.find? (fun r => r.number == number) = some r) : r.number = number := by
  simpa using List.find?_some found

/-- The bank that a number names is in service with a request of that number. -/
theorem bankOf_listed {number bank : Nat} {sc : Scan} {c : Chip} (found : bankOf number c = some (bank, sc)) :
    sc.request.number = number ∧ c.sce.banks[bank]? = some (some sc) := by
  obtain ⟨same, n, rfl, listed⟩ := findBank_eq_some found
  exact ⟨by simpa using same, by simpa using listed⟩

/-- The number 0 names no request. -/
theorem dispatchCancel_zero (slot : Nat) (seq : BitVec 8) (c : Chip) :
    dispatchCancel slot seq 0 c = c.slotDone slot seq ⟨13, 0, 0, 0⟩ := writeDone_eq_slotDone ..

/-- A waiting request finishes CANCELLED and is FOUND. -/
theorem dispatchCancel_waiting {number : Nat} {c : Chip} {r : Request} (slot : Nat) (seq : BitVec 8)
    (named : number ≠ 0) (found : c.ccu.queue.find? (fun r => r.number == number) = some r) :
    dispatchCancel slot seq number c = (finishWaiting .cancelled r c).slotDone slot seq ⟨12, number, 1, 0⟩ := by
  rw [dispatchCancel, if_neg named, cancelRequest, found]
  exact writeDone_eq_slotDone ..

/-- A number that is neither waiting nor in service is NOT-FOUND. -/
theorem dispatchCancel_unknown {number : Nat} {c : Chip} (slot : Nat) (seq : BitVec 8) (named : number ≠ 0)
    (absent : c.ccu.queue.find? (fun r => r.number == number) = none) (nowhere : bankOf number c = none) :
    dispatchCancel slot seq number c = c.slotDone slot seq ⟨13, number, 0, 0⟩ := by
  rw [dispatchCancel, if_neg named, cancelRequest, absent, nowhere]
  exact writeDone_eq_slotDone ..

/-- The RUNNING scan gets the cancel mark, and the slot waits for its finish. -/
theorem dispatchCancel_running {number bank : Nat} {c : Chip} {sc : Scan} (slot : Nat) (seq : BitVec 8)
    (named : number ≠ 0) (absent : c.ccu.queue.find? (fun r => r.number == number) = none)
    (inService : bankOf number c = some (bank, sc)) (running : sc.running = true) :
    dispatchCancel slot seq number c =
      (c.withBank bank (some { sc with cancelMark := true, cancels := sc.cancels ++ [(slot, seq)] })).slotTaken slot seq
        .cancel 0 := by
  have marked (f : Scan → Scan) : onScan bank f c = c.withBank bank (some (f sc)) := by
    rw [onScan, Chip.onSce, modifyAt_some _ _ _ _ (bankOf_listed inService).2]
    rfl
  rw [dispatchCancel, if_neg named, cancelRequest, absent, inService]
  simp only [cancelInService, running, if_true, marked]
  exact writeTaken_eq_slotTaken ..

/-- A PARKED scan finishes at once and is FOUND, and SCE selects when no scan is RUNNING (R83, R103). -/
theorem dispatchCancel_parked {number bank : Nat} {c : Chip} {sc : Scan} (slot : Nat) (seq : BitVec 8)
    (named : number ≠ 0) (absent : c.ccu.queue.find? (fun r => r.number == number) = none)
    (inService : bankOf number c = some (bank, sc)) (parked : sc.running = false) :
    dispatchCancel slot seq number c =
      let e := finishScan bank sc .cancelled [] c
      let d := e.slotDone slot seq ⟨12, number, 2, 0⟩
      if (runningBank e).isSome = true then d else engine .select d := by
  rw [dispatchCancel, if_neg named, cancelRequest, absent, inService]
  simp only [cancelInService, parked, Bool.false_eq_true, if_false, writeDone_eq_slotDone]
  rfl

end Sys2Proof.Machine
end

section
/-! SUPPORT. The dispatch of an INVALIDATE order during a poll (R118 to R126, R138): the scopes, the row scopes
performed, the reloads begun, and what a scope covers and marks (R117, R119, R124). -/

namespace Sys2Proof.Machine

/-! ## The order noted and handed over (R118, R138) -/

/-- The part with the drain-pending marker set by a drained row scope (R138). -/
def Chip.drainNoted (o : InvalOrder) (c : Chip) : Chip :=
  if o.drain = true ∧ 1 ≤ o.scope ∧ o.scope ≤ 4 then
    { c with ord := { c.ord with drainPending := some (o.slot, o.seq) } }
  else c

@[simp] theorem drainNoted_frame (o : InvalOrder) (c : Chip) :
    (c.drainNoted o).rgp = c.rgp ∧ (c.drainNoted o).mpt = c.mpt ∧ (c.drainNoted o).sce = c.sce ∧
      (c.drainNoted o).tcu = c.tcu ∧ (c.drainNoted o).ord.poll = c.ord.poll := by
  unfold Chip.drainNoted
  split <;> simp

/-- The order is noted and handed to TCU, and its slot is DONE with a report or else TAKEN. -/
theorem dispatchInval_eq (o : InvalOrder) (c : Chip) :
    dispatchInval o c =
      match handInval o (c.drainNoted o) with
      | (e, some r) => reportInval o.slot o.seq r e
      | (e, none) => writeTaken o.slot o.seq .invalidate 0 e := by
  have noted : (if o.drain && o.isRowScope then c.onOrd fun k => { k with drainPending := some (o.slot, o.seq) }
      else c) = c.drainNoted o := by
    simp only [Bool.and_eq_true, o.isRowScope_iff]
    rfl
  rw [← noted]
  rfl

/-- An order that TCU does not report at once leaves its slot TAKEN. -/
theorem dispatchInval_taken {o : InvalOrder} {c e : Chip} (handed : handInval o (c.drainNoted o) = (e, none)) :
    dispatchInval o c = e.slotTaken o.slot o.seq .invalidate 0 := by
  rw [dispatchInval_eq, handed]
  rfl

/-- An order that TCU reports at once leaves its slot DONE. -/
theorem dispatchInval_reported {o : InvalOrder} {c e : Chip} {r : SlotResult} (active : c.active = true)
    (poll : c.ord.poll.isSome = true) (handed : handInval o (c.drainNoted o) = (e, some r)) :
    dispatchInval o c = e.slotReported o r := by
  have rgp : (handInval o (c.drainNoted o)).1.rgp = c.rgp := by simp
  have reads : (handInval o (c.drainNoted o)).1.ord.poll = c.ord.poll := by simp
  rw [handed] at rgp reads
  rw [dispatchInval_eq, handed]
  exact reportInval_eq_slotReported o r (by rwa [Chip.active, rgp]) (by rwa [reads])

/-- Behind an order under way an order waits (R118). -/
theorem handInval_waits {o : InvalOrder} {c : Chip} (busy : c.tcu.reload.isSome = true ∨ c.tcu.drain.isSome = true) :
    handInval o c = ({ c with tcu := { c.tcu with waiting := c.tcu.waiting ++ [o] } }, none) :=
  if_pos (by simpa using busy)

/-- With no order under way TCU takes the order. -/
theorem handInval_takes {c : Chip} (o : InvalOrder) (reload : c.tcu.reload = none) (drain : c.tcu.drain = none) :
    handInval o c = takeInval o c :=
  if_neg (by simp [reload, drain])

/-! ## The scopes (R118) -/

/-- The scopes that are malformed. -/
theorem InvalOrder.malformed_iff (o : InvalOrder) :
    o.malformed = true ↔ o.scope = 0 ∨ 7 < o.scope ∨ (o.scope = 2 ∧ 3 < o.grid) ∨
      (o.scope = 3 ∧ (3 < o.grid ∨ o.count = 0 ∨ 8192 < o.first + o.count)) ∨
      (o.scope = 5 ∧ (o.count = 0 ∨ 256 < o.first + o.count)) := by
  unfold InvalOrder.malformed scopeAll scopeGriddefs scopeHubs scopeConfig scopeGrid scopeNodes scopeStations
  (repeat' split) <;> simp only [Bool.or_eq_true, decide_eq_true_eq, Bool.false_eq_true, false_iff, true_iff] <;> omega

theorem takeInval_malformed {o : InvalOrder} (c : Chip) (malformed : o.malformed = true) :
    takeInval o c = (c, some ⟨9, 0, 0, 0⟩) := if_pos malformed

/-- ALL, GRID and NODES are performed at once; NODES with a count above 64 is performed as GRID (R119). -/
theorem takeInval_rows {o : InvalOrder} {scope : RowScope} {word : Nat} (c : Chip)
    (rows : (o.scope = 1 ∧ scope = .all ∧ word = 1) ∨
      (o.grid ≤ 3 ∧ (o.scope = 2 ∨ (o.scope = 3 ∧ 64 < o.count ∧ o.first + o.count ≤ 8192)) ∧
        scope = .grid o.grid ∧ word = 2 + 256 * o.grid) ∨
      (o.grid ≤ 3 ∧ o.scope = 3 ∧ 0 < o.count ∧ o.count ≤ 64 ∧ o.first + o.count ≤ 8192 ∧
        scope = .nodes o.grid o.first o.count ∧ word = 3 + 256 * o.grid + 1024 * o.first + 8388608 * o.count)) :
    takeInval o c = runRowScope o scope word c := by
  have well : ¬ o.malformed = true := by
    rw [o.malformed_iff]
    omega
  rw [takeInval, if_neg well]
  rcases rows with ⟨all, rfl, rfl⟩ | ⟨-, grid | ⟨nodes, many, -⟩, rfl, rfl⟩ | ⟨-, nodes, -, few, -, rfl, rfl⟩
  · simp [all, scopeAll, scopeWord, scopeGrid, scopeNodes, scopeStations]
  · simp [grid, scopeAll, scopeWord, scopeGrid]
  · simp [nodes, many, scopeAll, scopeWord, scopeGrid, scopeNodes]
  · simp [nodes, Nat.not_lt.mpr few, scopeAll, scopeWord, scopeGrid, scopeNodes]

/-- The numbers from a start, in the words of the library. -/
theorem numbersFrom_eq_map_range (start n : Nat) : numbersFrom start n = (List.range n).map (start + ·) := by
  induction n generalizing start with
  | zero => rfl
  | succ n ih =>
    rw [numbersFrom, ih, List.range_succ_eq_map, List.map_cons, List.map_map]
    exact congrArg _ (List.map_congr_left fun k _ => by simp; omega)

/-- The reads of a GRIDDEFS reload, by their places (R120). -/
theorem gridReads_eq (l : Layout) :
    gridReads l = (List.range 4).map fun g => readAccess (.reloadGrid g (g == 3)) (l.grids + 64 * g) 64 := rfl

/-- The reads of a HUBS reload, by their places (R122). -/
theorem hubReads_eq (l : Layout) :
    hubReads l = (List.range 16).map fun h => readAccess (.reloadHub h (h == 15)) (l.hubs + 32 * h) 32 := rfl

/-- The reads of a STATIONS reload, by their places (R121). -/
theorem stationReads_eq (l : Layout) (first count : Nat) :
    stationReads l first count = (List.range count).map fun k =>
      readAccess (.reloadStation (first + k) (k + 1 == count)) (l.stations + 32 * (first + k)) 32 := by
  rw [stationReads, numbersFrom_eq_map_range, List.map_map]
  refine List.map_congr_left fun k _ => ?_
  have last : (first + k + 1 == first + count) = (k + 1 == count) := by rw [Bool.eq_iff_iff]; simp; omega
  simp [last]

/-- The other scopes begin a reload (R120 to R123). -/
theorem takeInval_reloads {o : InvalOrder} {reads : List Access} (c : Chip)
    (reload : (o.scope = 4 ∧ reads = (List.range 4).map fun g =>
        readAccess (.reloadGrid g (g == 3)) (c.layout.grids + 64 * g) 64) ∨
      (o.scope = 5 ∧ 0 < o.count ∧ o.first + o.count ≤ 256 ∧ reads = (List.range o.count).map fun k =>
        readAccess (.reloadStation (o.first + k) (k + 1 == o.count)) (c.layout.stations + 32 * (o.first + k)) 32) ∨
      (o.scope = 6 ∧ reads = (List.range 16).map fun h =>
        readAccess (.reloadHub h (h == 15)) (c.layout.hubs + 32 * h) 32) ∨
      (o.scope = 7 ∧ reads = [readAccess .reloadConfig c.layout.settings 256])) :
    takeInval o c = (startReload o reads c, none) := by
  have well : ¬ o.malformed = true := by
    rw [o.malformed_iff]
    omega
  rw [takeInval, if_neg well]
  rcases reload with ⟨grids, rfl⟩ | ⟨stations, -, -, rfl⟩ | ⟨hubs, rfl⟩ | ⟨config, rfl⟩
  · simp [grids, scopeAll, scopeGrid, scopeNodes, scopeGriddefs, gridReads_eq]
  · simp [stations, scopeAll, scopeGrid, scopeNodes, scopeGriddefs, scopeStations, stationReads_eq]
  · simp [hubs, scopeAll, scopeGrid, scopeNodes, scopeGriddefs, scopeStations, scopeHubs, hubReads_eq]
  · simp [config, scopeAll, scopeGrid, scopeNodes, scopeGriddefs, scopeStations, scopeHubs, configReads]

/-! ## A row scope performed (R117, R119, R124 to R126) -/

/-- The part with a row scope performed and counted. -/
def Chip.rowsDropped (scope : RowScope) (c : Chip) : Chip :=
  { c with
    sce := { c.sce with banks := markBanks scope c.tcu.fetch c.sce.banks }
    tcu := { c.tcu with
      cache := c.tcu.cache.filter fun e => !scope.covers e.grid e.node
      dropped := addCount c.tcu.dropped (c.tcu.cache.filter fun e => scope.covers e.grid e.node).length
      invalidations := countUp c.tcu.invalidations
      fetch := c.tcu.fetch.map fun f => { f with keep := f.keep && !scope.covers f.grid f.node } } }

theorem countInvalidation_performRowScope (scope : RowScope) (c : Chip) :
    countInvalidation (performRowScope scope c) = c.rowsDropped scope := by
  have fetch : (fun f : RowFetch => if scope.covers f.grid f.node then { f with keep := false } else f) =
      fun f => { f with keep := f.keep && !scope.covers f.grid f.node } := by
    funext f
    cases covered : scope.covers f.grid f.node <;> simp
  simp only [countInvalidation, performRowScope, Tcu.dropRows, coveredRows, fetch, Chip.rowsDropped, Chip.onTcu,
    Chip.onSce]

/-- A row scope that is drained and has marked a bank is held; any other is reported. -/
theorem runRowScope_eq (o : InvalOrder) (scope : RowScope) (word : Nat) (c : Chip) :
    runRowScope o scope word c =
      let marked := markedNumbers scope c.tcu.fetch c.sce.banks
      let r : SlotResult := ⟨1, word, marked.length, (c.tcu.cache.filter fun e => scope.covers e.grid e.node).length⟩
      if o.drain = true ∧ marked ≠ [] then
        ((c.rowsDropped scope).onTcu fun t => { t with drain := some ⟨o, marked, r⟩ }, none)
      else (c.rowsDropped scope, some r) := by
  rw [runRowScope, countInvalidation_performRowScope]
  dsimp only
  split
  case isTrue held => exact settleRowScope_held _ _ held
  case isFalse reported => exact settleRowScope_reported _ _ reported

/-! ## What a scope covers and marks (R117, R119, R120, R124) -/

/-- The nodes that a scope covers. -/
theorem RowScope.covers_iff (scope : RowScope) (grid node : Nat) :
    scope.covers grid node = true ↔
      match scope with
      | .all => True
      | .grid g => grid = g
      | .nodes g first count => grid = g ∧ first ≤ node ∧ node < first + count
      | .griddefs changed => grid ∈ changed := by
  cases scope <;> simp [RowScope.covers, and_assoc]

/-- A bank has read a grid when it holds a range for it. -/
theorem Scan.range_eq_some (sc : Scan) (g : Nat) (range : Nat × Nat) :
    sc.range g = some range ↔ sc.ranges[g]? = some (some range) := by
  rw [Scan.range, List.getD_eq_getElem?_getD]
  cases sc.ranges[g]? <;> simp

/-- The read ranges of a bank that overlap a scope. -/
theorem RowScope.overlaps_iff (scope : RowScope) (sc : Scan) :
    scope.overlaps sc = true ↔
      match scope with
      | .all => ∃ (k : Nat) (range : Nat × Nat), sc.ranges[k]? = some (some range)
      | .grid g => ∃ range : Nat × Nat, sc.ranges[g]? = some (some range)
      | .nodes g first count => ∃ low high : Nat,
        sc.ranges[g]? = some (some (low, high)) ∧ low < first + count ∧ first ≤ high
      | .griddefs changed => ∃ g ∈ changed, ∃ range : Nat × Nat, sc.ranges[g]? = some (some range) := by
  cases scope with
  | all =>
    simp only [RowScope.overlaps, List.any_eq_true, List.mem_iff_getElem?, Option.isSome_iff_exists]
    exact ⟨fun ⟨_, ⟨k, listed⟩, range, same⟩ => ⟨k, range, same ▸ listed⟩,
      fun ⟨k, range, listed⟩ => ⟨_, ⟨k, listed⟩, range, rfl⟩⟩
  | grid g => simp [RowScope.overlaps, Option.isSome_iff_exists, Scan.range_eq_some]
  | nodes g first count =>
    simp only [RowScope.overlaps, ← Scan.range_eq_some]
    rcases sc.range g with _ | ⟨low, high⟩ <;> simp
  | griddefs changed => simp [RowScope.overlaps, Option.isSome_iff_exists, Scan.range_eq_some]

/-- The banks that a scope marks: those that have read of it, and the RUNNING one that a covered fetch serves. -/
theorem marksScan_iff (scope : RowScope) (fetch : Option RowFetch) (sc : Scan) :
    marksScan scope fetch sc = true ↔ scope.overlaps sc = true ∨
      (sc.running = true ∧ ∃ f, fetch = some f ∧ scope.covers f.grid f.node = true) := by
  cases fetch <;> simp [marksScan, RowScope.coversFetch]

end Sys2Proof.Machine
end

section
/-! PROOFS. The statement about the take of an order and the dispatch of each kind (R103, R118 to R126, R133 to
R141). -/

namespace Sys2Proof.Machine

/-- Settles O42: one take by its three steps, and each kind of order by the checks of its dispatch. -/
theorem eachTakeConsumesItsSequence : Obligations.EachTakeConsumesItsSequence := by
  refine ⟨fun slot b others c => ?take, fun slot seq o c => ?scan, fun o c poll active => ?inval,
    fun scope fetch sc => ?scopes, fun slot number seq c => ?cancel, fun slot seq tag c => ?mark⟩
  case take =>
    obtain ⟨expected, taken, duplicates, torn⟩ := takeSlot_counts slot b others c
    refine ⟨expected, taken, duplicates, torn, ?_⟩
    simp only [takeSlot, judgeSlot_eq, dispatchOrder_eq, writeDuplicates_eq]
    rfl
  case scan =>
    intro bad
    refine ⟨fun refused => dispatchScan_refused (checkScan_badParam fun g defined => .inl ?_), fun g defined => ?_⟩
    · exact refused.resolve_right (by simp [defined])
    refine ⟨fun counted beyond => dispatchScan_refused (checkScan_badParam fun g' defined' => .inr ?_),
      fun well inside => ?_⟩
    · obtain rfl : g = g' := Option.some.inj (defined.symm.trans defined')
      exact ⟨counted, beyond⟩
    have judged := checkScan_valid defined well inside
    refine ⟨fun elsewhere => dispatchScan_refused (by simp [judged, elsewhere]),
      fun hz listens horizon old => dispatchScan_refused (by simp [judged, listens, horizon, staleScan, old]),
      fun listens fresh => ?_⟩
    have passed : checkScan o c = none := by
      cases horizon : c.lki.horizon with
      | none => simp [judged, listens, staleScan, horizon]
      | some hz => simp [judged, listens, staleScan, horizon, fresh hz horizon]
    exact ⟨dispatchScan_busy passed, fun room => ⟨dispatchScan_queued passed room,
      fun still => (dispatchScan_queued passed room).trans (offerRipe_eq_self still)⟩⟩
  case inval =>
    intro held
    obtain ⟨rgp, mpt, sce, tcu, -⟩ : held.rgp = c.rgp ∧ held.mpt = c.mpt ∧ held.sce = c.sce ∧ held.tcu = c.tcu ∧ _ :=
      drainNoted_frame o c
    refine ⟨fun busy => ?_, fun reload drain => ?_⟩
    · have waits := handInval_waits (o := o) (c := held) (by rwa [tcu])
      rw [tcu] at waits
      exact dispatchInval_taken waits
    have takes : handInval o held = takeInval o held := handInval_takes o (by rwa [tcu]) (by rwa [tcu])
    refine ⟨fun malformed => ?_, fun scope word rows => ?_, fun reads reload => ?_⟩
    · have malformed := takeInval_malformed held (o.malformed_iff.mpr malformed)
      exact dispatchInval_reported active poll (takes.trans malformed)
    · have performs := takes.trans ((takeInval_rows held rows).trans (runRowScope_eq o scope word held))
      intro marked rows performed r
      have dropped : held.rowsDropped scope = performed := by rw [Chip.rowsDropped, tcu, sce]
      rw [tcu, sce, dropped] at performs
      split
      case isTrue drains => exact dispatchInval_taken (performs.trans (if_pos drains))
      case isFalse reports => exact dispatchInval_reported active poll (performs.trans (if_neg reports))
    · have layout : held.layout = c.layout := congrArg (fun r : Rgp => r.layout.getD _) rgp
      have started : startReload o reads held = { held with
          tcu := { held.tcu with reload := some ⟨o, []⟩ }
          mpt := { held.mpt with waitTcu := held.mpt.waitTcu ++ reads } } := rfl
      have begins := takes.trans (takeInval_reloads held (by rwa [layout]))
      rw [started, tcu, mpt] at begins
      exact dispatchInval_taken begins
  case scopes =>
    refine ⟨fun grid node => (scope.covers_iff grid node).trans ?_, (marksScan_iff scope fetch sc).trans ?_⟩
    · cases scope <;> rfl
    · cases scope <;> rw [RowScope.overlaps_iff]
  case cancel =>
    refine ⟨fun zero => zero ▸ dispatchCancel_zero slot seq c, fun named => ⟨fun r found => ?_, fun absent =>
      ⟨dispatchCancel_unknown slot seq named absent, fun bank sc inService => ⟨fun running => ?_, fun parked => ?_⟩⟩⟩⟩
    · obtain ⟨ccu, delivers, declared, ordered, blocks⟩ := finishWaiting_cancels r c
      obtain rfl := find_number found
      exact ⟨_, dispatchCancel_waiting slot seq named found, ccu, delivers, declared, ordered, blocks⟩
    · exact dispatchCancel_running slot seq named absent inService running
    · obtain ⟨sce, ccu, delivers, ordered, ⟨lki, chc⟩, tables⟩ := finishScan_cancels bank sc c
      rw [(bankOf_listed inService).1] at ccu ordered
      exact ⟨_, dispatchCancel_parked slot seq named absent inService parked, sce, ccu, delivers, ordered, lki, chc,
        tables⟩
  case mark =>
    intro next counted
    let m := c.markerCounted
    have lost : (countLostEvent (meetNoRoom .event m)).dlv.counters =
        { m.dlv.counters with lostEvents := countUp m.dlv.counters.lostEvents } := by simp [countLostEvent]
    refine ⟨fun full => ⟨_, dispatchMark_lost slot seq tag full, lost, (meetNoRoom_event m).1, ?_⟩,
      fun few => ⟨_, dispatchMark_given slot seq tag few, ?_⟩⟩
    · simp [Chip.markerCounted]
    split
    case isTrue direct =>
      rw [writeDirect_eq]
      exact ⟨rfl, rfl, fun _ _ => ⟨rfl, rfl, rfl⟩, fun noRoom => absurd direct.2 (Bool.eq_false_iff.mp noRoom), rfl,
        rfl, rfl, rfl, rfl, rfl⟩
    case isFalse waits =>
      have kept : (appendRecord (.marker tag) m).dlv.counters = m.dlv.counters := by simp
      refine ⟨kept, appendRecord_sequence _ m, fun empty room => absurd ⟨empty, room⟩ waits, fun noRoom => ?_,
        by simp [Chip.markerCounted]⟩
      have joins : (meetNoRoom .event (joinPending (.marker tag) m)).dlv.pendingEvents =
          (joinPending (.marker tag) m).dlv.pendingEvents := by simp
      obtain ⟨event, raised⟩ := meetNoRoom_event (joinPending (.marker tag) m)
      rw [appendRecord_waits (c := m) _ noRoom]
      exact ⟨joins, event, raised⟩

end Sys2Proof.Machine
end

section
/-! PROOFS. The statement that every step leaves the part settled (R164, R169). -/

namespace Sys2Proof.Machine

/-- The end of a step leaves the part settled: no write is left to begin, and the bus has been granted. -/
theorem concludeStep_settled (c : Chip) : (concludeStep c).settled :=
  ⟨startAsked_progressAsked c, Mpt.grant_onBus _⟩

/-- Settles O54: a command is ignored, or its step comes to its end. -/
theorem stepKeepsTheBusGranted : Obligations.StepKeepsTheBusGranted := by
  rintro ⟨c, pending⟩ ⟨d, rest⟩ settled next
  cases pending with
  | nil =>
    cases next
    exact settled
  | cons i q =>
    have form : CommandForm i c q (.next ⟨d, rest⟩) := next ▸ exec_form i c q
    cases form with
    | ignored => exact settled
    | event => exact concludeStep_settled _
    | answered => exact concludeStep_settled _

end Sys2Proof.Machine
end

section
/-! SUPPORT. The answers to the accesses of DLV (R149, R151, R161, R170, R171): the end of a write that does not halt
the part, and what the end of an access and of a step leave of the streams and the raw writer. -/

namespace Sys2Proof.Machine

/-! ## The end of a write in any part state but FAULTED (R170, R171) -/

/-- The access ends, and the block that asked acts on what its end leaves. -/
theorem accessEnds_answered (handler : Access → Option (List Byte) → Chip → Chip) {a : Access} (x : Option (List Byte))
    {c : Chip} (halts : haltSourceOf a.purpose = none) (running : c.rgp.partState ≠ .faulted) :
    accessEnds handler a x c = concludeStep (handler a x (c.answered a x)) := by
  cases x with
  | some b => exact accessEnds_data handler a b c running
  | none =>
    rw [accessEnds_error handler a c running, accessFails_recorded handler a _ halts]
    rfl

/-- The answer to a write that does not halt the part. -/
theorem answerWrite_answered (isFor : Purpose → Bool) (handler : Access → Option (List Byte) → Chip → Chip) {c : Chip}
    (q : List Instr) {a : Access} (ok : Bool) (onBus : c.mpt.onBus = some a) (concerns : isFor a.purpose = true)
    (halts : haltSourceOf a.purpose = none) (running : c.rgp.partState ≠ .faulted) :
    answerWrite isFor handler ok ⟨c, q⟩ =
      .next ⟨concludeStep (handler a (if ok then some [] else none) (c.answered a (if ok then some [] else none))),
        q⟩ := by
  rw [answerWrite_on isFor handler ok c q a onBus concerns, accessEnds_answered handler _ halts running]

/-- An active part is not FAULTED. -/
theorem Chip.active_running {c : Chip} (active : c.active = true) : c.rgp.partState ≠ .faulted := by
  intro faulted
  simp [Chip.active, faulted, PartState.active] at active

/-- What the end of an access keeps of DLV beside `answered_frame`: the return block read, the raw writer and the write
in flight. -/
@[simp] theorem answered_dlv_frame (a : Access) (x : Option (List Byte)) (c : Chip) :
    (c.answered a x).dlv.returnRead = c.dlv.returnRead ∧ (c.answered a x).dlv.reread = c.dlv.reread ∧
      (c.answered a x).dlv.assembly = c.dlv.assembly ∧ (c.answered a x).dlv.outgoing = c.dlv.outgoing ∧
      (c.answered a x).dlv.selector = c.dlv.selector ∧ (c.answered a x).dlv.progress = c.dlv.progress := by
  cases x <;> simp [Chip.answered]

/-- A progress block write asked for in BOUND, LISTENING or STOPPING, whatever has changed before but the write in
flight. -/
theorem askProgress_asksAnew {before : Dlv} {c : Chip} (active : c.active = true)
    (progress : c.dlv.progress = before.progress) : before.Asks (askProgress c).dlv := by
  obtain ⟨same, due, again⟩ := (Dlv.asksOnly_ask c.dlv).asks
  rw [askProgress_dlv c active, Dlv.Asks, ← progress]
  exact ⟨same, due, again⟩

/-! ## One stream (R147) -/

/-- One stream after a change of one stream. -/
theorem onStream_stream (id other : StreamId) (f : StreamState → StreamState) (c : Chip) :
    (onStream id f c).dlv.stream other = if other = id then f (c.dlv.stream id) else c.dlv.stream other := by
  cases id <;> cases other <;> rfl

@[simp] theorem onDlvCounters_active (f : DlvCounters → DlvCounters) (c : Chip) :
    (c.onDlvCounters f).active = c.active := rfl

@[simp] theorem onDlvCounters_stream (id : StreamId) (f : DlvCounters → DlvCounters) (c : Chip) :
    (c.onDlvCounters f).dlv.stream id = c.dlv.stream id := by cases id <;> rfl

@[simp] theorem askProgress_stream (id : StreamId) (c : Chip) :
    (askProgress c).dlv.stream id = c.dlv.stream id := by cases id <;> simp [Dlv.stream]

@[simp] theorem concludeStep_stream (id : StreamId) (c : Chip) :
    (concludeStep c).dlv.stream id = c.dlv.stream id := by cases id <;> simp [Dlv.stream]

@[simp] theorem answered_stream (id : StreamId) (a : Access) (x : Option (List Byte)) (c : Chip) :
    (c.answered a x).dlv.stream id = c.dlv.stream id := by cases id <;> simp [Dlv.stream]

/-! ## A record write answered (R149, R165) -/

/-- The published total of the record's stream advances, and no other stream changes. -/
theorem recordAnswered_stream {a : Access} {id : StreamId} (purpose : a.purpose = .record id) (x : Option (List Byte))
    (c : Chip) (other : StreamId) :
    (recordAnswered a x c).dlv.stream other =
      if other = id then { c.dlv.stream id with published := (c.dlv.stream id).published + 1 }
      else c.dlv.stream other := by
  simp only [recordAnswered, purpose, recordStream, askProgress_stream, onStream_stream, onDlvCounters_stream]

/-- The record counts as written or as lost. -/
theorem recordAnswered_counters {a : Access} {id : StreamId} (purpose : a.purpose = .record id)
    (x : Option (List Byte)) (c : Chip) :
    (recordAnswered a x c).dlv.counters =
      (if x.isSome then countWritten id else countRecordLost id) c.dlv.counters := by
  simp [recordAnswered, purpose, recordStream]

/-- The progress block is to be written. -/
theorem recordAnswered_asks {before : Dlv} (a : Access) (x : Option (List Byte)) {c : Chip} (active : c.active = true)
    (progress : c.dlv.progress = before.progress) : before.Asks (recordAnswered a x c).dlv :=
  askProgress_asksAnew (by simpa using active) (by simpa using progress)

end Sys2Proof.Machine
end

section
/-! PROOFS. The statement about a record write answered (R149, R164, R165, R171, R173). -/

namespace Sys2Proof.Machine

/-- Settles O45: the record's stream, the count and the asking, each by its lemma about `recordAnswered`. -/
theorem recordWriteAdvancesThePublishedTotal : Obligations.RecordWriteAdvancesThePublishedTotal := by
  intro c q a id ok onBus purpose active
  have next := answerWrite_answered isRecord recordAnswered q ok onBus (by rw [purpose]; rfl) (by rw [purpose]; rfl)
    (Chip.active_running active)
  refine ⟨_, next, ?_, fun other ne => ?_, ?_, ?_, ?_, by simp, ?_, by simp, by simp, by simp, by simp, by simp,
    by simp⟩
  · simp [recordAnswered_stream purpose]
  · simp [recordAnswered_stream purpose, ne]
  · simp only [concludeStep_frame, recordAnswered_counters purpose]
    cases id <;> cases ok <;> simp [countWritten, countRecordLost]
  · exact concludeStep_showsNext (by simpa using active) (recordAnswered_asks a _ (by simpa using active) (by simp))
  · obtain ⟨records, -⟩ := answered_records (source := .streams) (by rw [purpose]; rfl)
      (if ok then some [] else none) c
    cases ok <;> simpa using records
  · simpa using answered_rgp a fun _ => active

end Sys2Proof.Machine
end

section
/-! SUPPORT. The full-queue rule (R157): the place of the weakest waiting record, and what a record leaves that meets
eight waiting ones with no room in the stream. -/

namespace Sys2Proof.Machine

/-! ## The weakest waiting record -/

/-- A waiting queue parted at its weakest record: no record before it is weaker, and every record after it is
stronger. -/
structure WeakestAt (l before : List EventRecord) (w : EventRecord) (after : List EventRecord) : Prop where
  parts : l = before ++ w :: after
  before_le : ∀ x ∈ before, coherence w.content ≤ coherence x.content
  after_lt : ∀ x ∈ after, coherence w.content < coherence x.content

/-- The weakest record is no stronger than any that waits. -/
theorem WeakestAt.le {l before after : List EventRecord} {w : EventRecord} (h : WeakestAt l before w after) :
    ∀ x ∈ l, coherence w.content ≤ coherence x.content := by
  intro x listed
  rw [h.parts, List.mem_append, List.mem_cons] at listed
  obtain earlier | rfl | later := listed
  · exact h.before_le x earlier
  · exact Nat.le_refl _
  · exact Nat.le_of_lt (h.after_lt x later)

/-- Of a queue that is not empty the weakest record is the one that `weakestRecord` finds. -/
theorem exists_weakestAt (l : List EventRecord) (waits : l ≠ []) :
    ∃ before w after, weakestRecord l = some w ∧ WeakestAt l before w after := by
  induction l with
  | nil => exact absurd rfl waits
  | cons r rest ih =>
    by_cases last : rest = []
    · subst last
      exact ⟨[], r, [], by simp [weakestRecord], by simp, by simp, by simp⟩
    obtain ⟨before, w, after, found, weakest⟩ := ih last
    by_cases weaker : coherence r.content < coherence w.content
    · exact ⟨[], r, rest, by simp [weakestRecord, found, weaker], by simp, by simp,
        fun x listed => Nat.lt_of_lt_of_le weaker (weakest.le x listed)⟩
    · refine ⟨r :: before, w, after, by simp [weakestRecord, found, weaker], by rw [weakest.parts]; rfl,
        List.forall_mem_cons.mpr ⟨Nat.le_of_not_lt weaker, weakest.before_le⟩, weakest.after_lt⟩

/-- Of distinct sequences one record alone is removed. -/
theorem removeRecord_parts {before after : List EventRecord} {w : EventRecord}
    (distinct : ((before ++ w :: after).map EventRecord.seq).Nodup) :
    removeRecord w.seq (before ++ w :: after) = before ++ after := by
  have other : ∀ x ∈ before ++ after, x.seq ≠ w.seq := by
    have moved := (List.perm_middle.map EventRecord.seq).nodup_iff.mp distinct
    rw [List.map_cons, List.nodup_cons] at moved
    exact fun x listed same => moved.1 (same ▸ List.mem_map_of_mem listed)
  have kept (l : List EventRecord) (within : ∀ x ∈ l, x ∈ before ++ after) : removeRecord w.seq l = l :=
    List.filter_eq_self.mpr fun x listed => by simpa using other x (within x listed)
  rw [removeRecord, List.filter_append, List.filter_cons_of_neg (by simp)]
  exact congrArg₂ (· ++ ·) (kept before fun x => List.mem_append_left _) (kept after fun x => List.mem_append_right _)

/-! ## A record that meets eight others -/

/-- The part once a record has met eight waiting ones: an event is lost, and the stream has no room. -/
theorem countLostEvent_meetNoRoom (c : Chip) :
    let d := countLostEvent (meetNoRoom .event c)
    d.dlv.counters.lostEvents = countUp c.dlv.counters.lostEvents ∧ d.dlv.pendingEvents = c.dlv.pendingEvents ∧
      d.dlv.event = { c.dlv.event with noRoom := true } := by
  have event : (meetNoRoom .event c).dlv.event = _ := (meetNoRoom_event c).1
  refine ⟨?_, by simp, by simpa using event⟩
  have counters : (meetNoRoom .event c).dlv.counters = c.dlv.counters := by simp
  rw [← counters]
  rfl

/-- A record that displaces another joins the queue, and nothing is written. -/
theorem appendDisplacing_waits (content : EventContent) {c : Chip} (noRoom : c.dlv.event.hasRoom = false) :
    appendDisplacing content c = joinPending content c := if_neg (Bool.eq_false_iff.mp noRoom)

/-- The weakest record gives way to a stronger one. -/
theorem deliverFull_displaces {content : EventContent} {c : Chip} {w : EventRecord}
    (found : weakestRecord c.dlv.pendingEvents = some w) (stronger : coherence w.content < coherence content)
    (noRoom : c.dlv.event.hasRoom = false) :
    deliverFull content c =
      (joinPending content (setPendingEvents (removeRecord w.seq c.dlv.pendingEvents)
        (countLostEvent (meetNoRoom .event c))), some (nextSequence c.dlv.event.sequence)) := by
  obtain ⟨-, pending, event⟩ := countLostEvent_meetNoRoom c
  have full (l : List EventRecord) :
      (setPendingEvents l (countLostEvent (meetNoRoom .event c))).dlv.event.hasRoom = false :=
    (congrArg StreamState.hasRoom event).trans noRoom
  simp only [deliverFull, pending, found, if_pos stronger, setPendingEvents_frame, event]
  rw [appendDisplacing_waits content (full _)]

/-- A record that is not stronger than the weakest is dropped. -/
theorem deliverFull_drops {content : EventContent} {c : Chip} {w : EventRecord}
    (found : weakestRecord c.dlv.pendingEvents = some w) (weaker : ¬ coherence w.content < coherence content) :
    deliverFull content c = (countLostEvent (meetNoRoom .event c), none) := by
  obtain ⟨-, pending, -⟩ := countLostEvent_meetNoRoom c
  simp only [deliverFull, pending, found, if_neg weaker]

end Sys2Proof.Machine
end

section
/-! PROOFS. The statement about a record that meets a full queue (R156, R157, R159). -/

namespace Sys2Proof.Machine

/-- Settles O49: the queue is parted at its weakest record, which is stronger than the new one or is not. -/
theorem fullQueueKeepsTheStrongestRecords : Obligations.FullQueueKeepsTheStrongestRecords := by
  intro c content full distinct noRoom
  obtain ⟨before, w, after, found, weakest⟩ :=
    exists_weakestAt c.dlv.pendingEvents (List.ne_nil_of_length_eq_add_one full)
  obtain ⟨lost, pending, event⟩ := countLostEvent_meetNoRoom c
  have delivers : deliverContent content c = deliverFull content c := if_neg (by omega)
  have removed : removeRecord w.seq c.dlv.pendingEvents = before ++ after := by
    rw [weakest.parts] at distinct ⊢
    exact removeRecord_parts distinct
  rw [delivers]
  by_cases stronger : coherence w.content < coherence content
  · rw [deliverFull_displaces found stronger noRoom, removed]
    refine ⟨lost, congrArg StreamState.noRoom event, fun _ => ⟨rfl, ?_, before, w, after, weakest.parts,
      weakest.before_le, weakest.after_lt, ?_⟩, fun none => ?_, fun _ => rfl⟩
    · exact (congrArg (fun s : StreamState => nextSequence s.sequence) event :)
    · exact congrArg (fun s : StreamState => before ++ after ++ [⟨nextSequence s.sequence, content⟩]) event
    · have listed : w ∈ c.dlv.pendingEvents := weakestRecord_mem _ w found
      exact absurd stronger (Nat.not_lt.mpr (none w listed))
  · rw [deliverFull_drops found stronger]
    refine ⟨lost, congrArg StreamState.noRoom event, fun ⟨x, listed, weaker⟩ => ?_,
      fun _ => ⟨rfl, (congrArg StreamState.sequence event :), pending⟩, fun _ => rfl⟩
    exact absurd (Nat.lt_of_le_of_lt (weakest.le x listed) weaker) stronger

end Sys2Proof.Machine
end

section
/-! SUPPORT. The completion of a progress block write (R149, R150, R164, R173): the notice counts, what the completed
write shows of DLV and in CAUSE, and the write that follows it. -/

namespace Sys2Proof.Machine

/-! ## Notice counts (R150) -/

/-- From a count below k the records shown leave it modulo k, and reach k exactly when the sum does. -/
theorem noticeSteps_below (k m count : Nat) (below : count < k) :
    noticeSteps k m count = ((count + m) % k, decide (k ≤ count + m)) := by
  induction m generalizing count with
  | zero => simp [Nat.mod_eq_of_lt below, below]
  | succ m ih =>
    have positive : k ≠ 0 := by omega
    rw [noticeSteps_succ]
    by_cases reached : k ≤ count + 1
    · have first : noticeStep k count = (0, true) := by simp [noticeStep, positive, reached]
      have total : count + (m + 1) = m + k := by omega
      rw [first, ih 0 (by omega), total]
      simp
    · have first : noticeStep k count = (count + 1, false) := by simp [noticeStep, positive, reached]
      rw [first, ih (count + 1) (by omega), Nat.add_assoc, Nat.add_comm 1 m]
      simp

/-- From a count at or past k the first record reaches k. -/
theorem noticeSteps_past (k m count : Nat) (positive : 0 < k) (past : k ≤ count) :
    noticeSteps k (m + 1) count = (m % k, true) := by
  have first : noticeStep k count = (0, true) := by simp [noticeStep, positive.ne', Nat.le_succ_of_le past]
  rw [noticeSteps_succ, first, noticeSteps_below k m 0 positive]
  simp

/-- With k = 0 records shown leave the count 0 and reach nothing. -/
theorem noticeSteps_unlimited (m count : Nat) : noticeSteps 0 (m + 1) count = (0, false) := by
  induction m generalizing count with
  | zero => rfl
  | succ m ih => rw [noticeSteps_succ, ih]; rfl

/-! ## What a completed write shows (R149, R150, R164, R173) -/

/-- The step of a stream's notice count that a showing of its total makes. -/
def noticeShown (id : StreamId) (total : Word32) (c : Chip) : Nat × Bool :=
  noticeSteps (noticeLimit id c) (total - (c.dlv.stream id).shown).toNat (c.dlv.stream id).notice

/-- DLV after a showing: the stream's shown total and its notice count. -/
theorem showTotal_dlv (id : StreamId) (total : Word32) (c : Chip) :
    (showTotal id total c).dlv =
      c.dlv.onStream id fun s => { s with shown := total, notice := (noticeShown id total c).1 } := by
  rw [showTotal_spec]
  split <;> rfl

/-- CAUSE after a showing: the stream's bit for a count that reached k. -/
theorem showTotal_getLsbD (id : StreamId) (total : Word32) (c : Chip) (b : Nat) :
    (showTotal id total c).rgp.cause.getLsbD b =
      (c.rgp.cause.getLsbD b || (b == noticeCause id && (noticeShown id total c).2)) := by
  have bit : noticeCause id < 8 := by cases id <;> decide
  rw [showTotal_spec, ← noticeShown]
  cases (noticeShown id total c).2 with
  | true => rw [if_pos rfl, setCause_getLsbD _ b _ bit, (onStream_frame ..).1, Bool.and_true]
  | false => rw [if_neg nofun, (onStream_frame ..).1, Bool.and_false, Bool.or_false]

/-- A showing counts by the k in force, the stream's shown total and its count alone. -/
theorem noticeShown_congr {id : StreamId} (total : Word32) {c d : Chip} (tcu : d.tcu = c.tcu)
    (stream : d.dlv.stream id = c.dlv.stream id) : noticeShown id total d = noticeShown id total c := by
  have limit : noticeLimit id d = noticeLimit id c := by cases id <;> simp [noticeLimit, tcu]
  rw [noticeShown, limit, stream, noticeShown]

/-- The part with the write in flight ended and counted, and nothing of it shown yet. -/
def Chip.writeEnded (c : Chip) : Chip :=
  (c.onDlv fun d => { d with progress := none }).onDlvCounters fun n =>
    { n with progressWrites := countUp n.progressWrites }

/-- The showing of the pick total leaves what the events show. -/
theorem noticeShown_event_showTotal_pick (event pick : Word32) (c : Chip) :
    noticeShown .event event (showTotal .pick pick c) = noticeShown .event event c :=
  noticeShown_congr event (by simp) (by rw [showTotal_dlv]; rfl)

theorem showEpoch_dlv (w : ProgressWrite) (c : Chip) :
    (showEpoch w c).dlv = { c.dlv with epochShown := w.epochCount } := by
  unfold showEpoch
  dsimp only
  split <;> rfl

/-- CAUSE after an epoch count is shown: EPOCH when it is higher than the last. -/
theorem showEpoch_getLsbD (w : ProgressWrite) (c : Chip) (b : Nat) :
    (showEpoch w c).rgp.cause.getLsbD b =
      (c.rgp.cause.getLsbD b || (b == causeEpoch && decide (c.dlv.epochShown.toNat < w.epochCount.toNat))) := by
  unfold showEpoch
  dsimp only
  split
  case isTrue higher => rw [setCause_getLsbD causeEpoch b _ (by decide), decide_eq_true higher, Bool.and_true]; rfl
  case isFalse same => rw [decide_eq_false same, Bool.and_false, Bool.or_false]; rfl

theorem showFault_dlv (w : ProgressWrite) (c : Chip) : (showFault w c).dlv = c.dlv := by simp

/-- CAUSE after a write that carries a recording: FAULT. -/
theorem showFault_getLsbD (w : ProgressWrite) (c : Chip) (b : Nat) :
    (showFault w c).rgp.cause.getLsbD b = (c.rgp.cause.getLsbD b || (b == causeFault && w.showsFault)) := by
  unfold showFault
  split
  case isTrue shows => rw [setCause_getLsbD causeFault b _ (by decide), shows, Bool.and_true]
  case isFalse none => rw [Bool.eq_false_iff.mpr none, Bool.and_false, Bool.or_false]

/-- DLV after a completed write: the totals and the epoch count carried are shown, and the write is counted. -/
theorem completeProgress_dlv (w : ProgressWrite) (c : Chip) :
    (completeProgress w c).dlv = { c.dlv with
      progress := none
      counters := { c.dlv.counters with progressWrites := countUp c.dlv.counters.progressWrites }
      pick := { c.dlv.pick with shown := w.pickTotal, notice := (noticeShown .pick w.pickTotal c).1 }
      event := { c.dlv.event with shown := w.eventTotal, notice := (noticeShown .event w.eventTotal c).1 }
      epochShown := w.epochCount } := by
  change (showFault w (showEpoch w (showTotal .event w.eventTotal (showTotal .pick w.pickTotal c.writeEnded)))).dlv = _
  rw [showFault_dlv, showEpoch_dlv, showTotal_dlv, showTotal_dlv, noticeShown_event_showTotal_pick]
  rfl

/-- CAUSE after a completed write (R150, R164, R173). -/
theorem completeProgress_getLsbD (w : ProgressWrite) (c : Chip) (b : Nat) :
    (completeProgress w c).rgp.cause.getLsbD b =
      (c.rgp.cause.getLsbD b || (b == causePick && (noticeShown .pick w.pickTotal c).2) ||
        (b == causeEvent && (noticeShown .event w.eventTotal c).2) ||
        (b == causeEpoch && decide (c.dlv.epochShown.toNat < w.epochCount.toNat)) ||
        (b == causeFault && w.showsFault)) := by
  change (showFault w (showEpoch w (showTotal .event w.eventTotal
    (showTotal .pick w.pickTotal c.writeEnded)))).rgp.cause.getLsbD b = _
  rw [showFault_getLsbD, showEpoch_getLsbD, showTotal_getLsbD, showTotal_getLsbD, noticeShown_event_showTotal_pick,
    showTotal_dlv, showTotal_dlv]
  rfl

/-! ## The write that follows (R164) -/

/-- With no rewrite mark none follows. -/
theorem rewriteProgress_unmarked {c : Chip} (unmarked : c.dlv.rewrite = false) : rewriteProgress c = c :=
  if_neg (Bool.eq_false_iff.mp unmarked)

/-- With the mark one is asked for, and the mark is clear. -/
theorem rewriteProgress_marked {c : Chip} (marked : c.dlv.rewrite = true) (active : c.active = true)
    (ended : c.dlv.progress = none) (notAsked : c.dlv.progressAsked = false) :
    (rewriteProgress c).dlv = { c.dlv with rewrite := false, progressAsked := true } := by
  let cleared := c.onDlv fun d => { d with rewrite := false }
  calc (rewriteProgress c).dlv
    _ = (askProgress cleared).dlv := congrArg Chip.dlv (if_pos marked)
    _ = cleared.dlv.ask := askProgress_dlv cleared active
    _ = _ := if_neg (by simp [cleared, ended, notAsked])

/-- A write asked for in BOUND, LISTENING or STOPPING begins at the end of the step (R164, R173). -/
theorem concludeStep_begins {c : Chip} (active : c.active = true) (asked : c.dlv.progressAsked = true) :
    (concludeStep c).dlv = { c.dlv with
      progressAsked := false
      progress := some ⟨c.dlv.pick.published, c.dlv.event.published, c.dlv.epochCount, c.dlv.faultUnshown⟩
      faultUnshown := false
      updateCount := countOrFree c.dlv.updateCount c.freeUses } := by
  simp only [concludeStep, startAsked, if_pos asked, Chip.onMpt_dlv]
  exact congrArg Chip.dlv (if_pos active)

/-- Short of its largest value the update count increases by 1. -/
theorem countOrFree_below {w : Word32} (free : Nat) (below : w.toNat < 4294967295) : countOrFree w free = w + 1 :=
  if_neg (Nat.ne_of_lt below)

/-- Outside a binding the completed write is shown, and another may follow. -/
theorem exec_progressWriteDone {c : Chip} {a : Access} {w : ProgressWrite} (q : List Instr)
    (onBus : c.mpt.onBus = some a) (purpose : a.purpose = .progressLast) (running : c.rgp.partState ≠ .faulted)
    (bound : c.rgp.binding = none) (inFlight : c.dlv.progress = some w) :
    exec (.progressWriteDone true) ⟨c, q⟩ =
      .next ⟨concludeStep (rewriteProgress (completeProgress w (freeBus c))), q⟩ := by
  have answered : exec (.progressWriteDone true) ⟨c, q⟩ = .next ⟨accessEnds progressAnswered a (some []) c, q⟩ :=
    answerWrite_on _ _ true c q a onBus (by rw [purpose]; rfl)
  rw [answered, accessEnds_data _ a _ c running]
  simp [progressAnswered, completeBinding, inFlight, bound]

/-- What the answer to the last word leaves of the streams, the counters and CAUSE, whether another write follows or
not. -/
theorem progressWriteDone_shows (w : ProgressWrite) (c : Chip) :
    let d := concludeStep (rewriteProgress (completeProgress w (freeBus c)))
    d.dlv.pick = { c.dlv.pick with shown := w.pickTotal, notice := (noticeShown .pick w.pickTotal c).1 } ∧
      d.dlv.event = { c.dlv.event with shown := w.eventTotal, notice := (noticeShown .event w.eventTotal c).1 } ∧
      d.dlv.counters = { c.dlv.counters with progressWrites := countUp c.dlv.counters.progressWrites } ∧
      d.dlv.epochShown = w.epochCount ∧
      ∀ b, d.rgp.cause.getLsbD b =
        (c.rgp.cause.getLsbD b || (b == causePick && (noticeShown .pick w.pickTotal c).2) ||
          (b == causeEvent && (noticeShown .event w.eventTotal c).2) ||
          (b == causeEpoch && decide (c.dlv.epochShown.toNat < w.epochCount.toNat)) ||
          (b == causeFault && w.showsFault)) := by
  simp only [concludeStep_frame, rewriteProgress_frame, completeProgress_dlv, completeProgress_getLsbD]
  exact ⟨rfl, rfl, rfl, trivial, fun _ => rfl⟩

end Sys2Proof.Machine
end

section
/-! PROOFS. The statements about the words of a progress block write and about the notice counts (R149, R150, R164,
R173). -/

namespace Sys2Proof.Machine

/-- The answer to a word before the last changes the memory port alone. -/
theorem exec_progressBlockWordWriteDone {c : Chip} {a : Access} (q : List Instr) (onBus : c.mpt.onBus = some a)
    (purpose : a.purpose = .progressFirst ∨ a.purpose = .progressMiddle) (running : c.rgp.partState ≠ .faulted)
    (notAsked : c.dlv.progressAsked = false) :
    exec (.progressBlockWordWriteDone true) ⟨c, q⟩ = .next ⟨{ c with mpt := (freeBus c).mpt.grant }, q⟩ := by
  have concerns : isProgressWord a.purpose = true := by rcases purpose with h | h <;> rw [h] <;> rfl
  have answered : exec (.progressBlockWordWriteDone true) ⟨c, q⟩ =
      .next ⟨accessEnds progressWordAnswered a (some []) c, q⟩ := answerWrite_on _ _ true c q a onBus concerns
  rw [answered, accessEnds_data _ a _ c running]
  exact congrArg (fun d : Chip => Host.Outcome.next (State.mk d q)) (concludeStep_of_notAsked (freeBus c) notAsked)

/-- Settles O46: the words before the last by `exec_progressBlockWordWriteDone`, and the last one by what
`completeProgress` leaves, with or without the rewrite mark. -/
theorem completedWriteShowsTheTotals : Obligations.CompletedWriteShowsTheTotals := by
  refine ⟨fun c q a onBus purpose running notAsked => ?_, ?_⟩
  · refine ⟨_, exec_progressBlockWordWriteDone q onBus purpose running notAsked, rfl, ?_, ?_, ?_⟩ <;> simp [freeBus]
  intro c q a w onBus purpose running bound inFlight notAsked
  let done := completeProgress w (freeBus c)
  have dlv := completeProgress_dlv w (freeBus c)
  obtain ⟨pick, event, counters, epoch, cause⟩ := progressWriteDone_shows w c
  refine ⟨_, exec_progressWriteDone q onBus purpose running bound inFlight, congrArg StreamState.shown pick,
    congrArg StreamState.shown event, counters, epoch, fun higher => ?_, fun fault => ?_, fun b _ raised => ?_,
    fun unmarked => ?_, fun marked active => ?_, by simp, by simp, by simp, by simp, by simp, by simp, by simp⟩
  · rw [Chip.raised, cause]
    simp [higher]
  · rw [Chip.raised, cause]
    simp [fault]
  · rw [cause, raised]
    simp
  · have kept : (concludeStep (rewriteProgress done)).dlv = done.dlv := by
      rw [rewriteProgress_unmarked (by rw [dlv]; exact unmarked),
        concludeStep_dlv_of_notAsked (by rw [dlv]; exact notAsked)]
    rw [kept, dlv]
    exact ⟨rfl, rfl⟩
  · have asked := rewriteProgress_marked (c := done) (by rw [dlv]; exact marked) (by simpa [done] using active)
      (by rw [dlv]) (by rw [dlv]; exact notAsked)
    rw [concludeStep_begins (by simpa [done] using active) (by rw [asked]), asked, dlv]
    exact ⟨rfl, rfl, rfl, countOrFree_below _⟩

/-- Settles O47: the arithmetic by `noticeSteps_below` and its companions, the completed write by
`progressWriteDone_shows`, and the row by itself by the two cases of `takeNotice`. -/
theorem noticeCountPromptsOnceForEachKRecords : Obligations.NoticeCountPromptsOnceForEachKRecords := by
  refine ⟨fun k m count _ below => ?_, fun k m count positive past shown => ?_, fun m count shown => ?_,
    fun c q a w onBus purpose running bound inFlight _ => ?_, fun id c q settled =>
    ⟨fun still => ?_, fun limit reached => ?_⟩⟩
  · simp [noticeSteps_below k m count below]
  · obtain ⟨m, rfl⟩ := Nat.exists_eq_succ_of_ne_zero shown.ne'
    exact noticeSteps_past k m count positive past
  · obtain ⟨m, rfl⟩ := Nat.exists_eq_succ_of_ne_zero shown.ne'
    exact noticeSteps_unlimited m count
  · obtain ⟨pick, event, -, -, cause⟩ := progressWriteDone_shows w c
    have pickBit := cause causePick
    have eventBit := cause causeEvent
    simp only [causePick, causeEvent, causeEpoch, causeFault, Nat.reduceBEq, Bool.true_and, Bool.false_and,
      Bool.or_false] at pickBit eventBit
    exact ⟨_, exec_progressWriteDone q onBus purpose running bound inFlight, pick, event, pickBit, eventBit⟩
  · have same : takeNotice id c = c := if_neg still
    rw [exec, execNoticeCountReached, commandStep_next, same, concludeStep_of_settled c settled]
  · have taken : takeNotice id c = setCause (noticeCause id) (onStream id (fun s => { s with notice := 0 }) c) :=
      if_pos ⟨limit, reached⟩
    have settles : (takeNotice id c).settled := by simpa [Chip.settled] using settled
    refine ⟨takeNotice id c, ?_, ?_⟩
    · rw [exec, execNoticeCountReached, commandStep_next, concludeStep_of_settled _ settles]
    rw [taken]
    refine ⟨?_, ?_, fun other ne => ?_, by simp, by simp, by simp, by simp, by simp, by simp, by simp, by simp⟩
    · cases id <;> rfl
    · exact (onStream_stream id id _ c).trans (if_pos rfl)
    · exact (onStream_stream id other _ c).trans (if_neg ne)

end Sys2Proof.Machine
end

section
/-! SUPPORT. The raw writer (R161, R162, R169): what each answer has it do while an epoch is outgoing, and how the half
is chosen. -/

namespace Sys2Proof.Machine

/-! ## The choice of a half (R161) -/

/-- The half that the statement names is the half chosen: the preferred one if FREE, else the other if FREE. -/
theorem chooseHalf_eq_some {selector : Option (Fin 2)} {free0 free1 : Bool} {h : Fin 2}
    (named : (free1 = true ∧ h = 1 ∧ (free0 = false ∨ selector = some 0)) ∨
      (free0 = true ∧ h = 0 ∧ (free1 = false ∨ selector ≠ some 0))) :
    chooseHalf selector free0 free1 = some h := by
  obtain ⟨rfl, rfl, rfl | rfl⟩ | ⟨rfl, rfl, rfl | other⟩ := named
  case inl.inl => simp [chooseHalf]
  case inl.inr => cases free0 <;> simp [chooseHalf, preferredHalf]
  case inr.inl => simp [chooseHalf]
  case inr.inr =>
    have preferred : preferredHalf selector = 0 := by
      cases selector with
      | none => rfl
      | some s => exact if_neg fun zero => other (congrArg some zero)
    cases free1 <;> simp [chooseHalf, preferred]

/-- The state word of a half reads FREE; a failed read does not. -/
theorem rawFree_getD (x : Option (List Byte)) :
    (x.map rawFree).getD false = x.any fun b => leValue b 0 4 == 1 := by cases x <;> rfl

/-! ## The state reads (R161, R169) -/

/-- The answer for half 0 is noted, and the state of half 1 is read. -/
theorem rawStateAnswered_half0 {a : Access} (x : Option (List Byte)) {c : Chip} {o : Outgoing}
    (purpose : a.purpose = .rawState 0) (outgoing : c.dlv.outgoing = some o) :
    rawStateAnswered a x c = request .dlv (readAccess (.rawState 1) c.layout.raw1 4) (c.onDlv fun d =>
      { d with outgoing := some ⟨o.epoch, x.any fun b => leValue b 0 4 == 1⟩ }) := by
  simp only [rawStateAnswered, outgoing, rawFree_getD, if_pos purpose]
  rfl

/-- The answer for half 1 has the header of the half chosen written. -/
theorem rawStateAnswered_chooses {a : Access} {x : Option (List Byte)} {c : Chip} {o : Outgoing} {h : Fin 2}
    (purpose : a.purpose = .rawState 1) (outgoing : c.dlv.outgoing = some o)
    (chosen : chooseHalf c.dlv.selector o.half0Free (x.any fun b => leValue b 0 4 == 1) = some h) :
    rawStateAnswered a x c =
      request .dlv (writeAccess (.rawHeader h.val) (c.layout.rawBase h.val + 8) (rawHeaderBytes o.epoch)) c := by
  have other : a.purpose ≠ .rawState 0 := by simp [purpose]
  simp only [rawStateAnswered, outgoing, rawFree_getD, if_neg other, chosen]
  rfl

/-- With neither half FREE the epoch is lost. -/
theorem rawStateAnswered_loses {a : Access} {x : Option (List Byte)} {c : Chip} {o : Outgoing}
    (purpose : a.purpose = .rawState 1) (outgoing : c.dlv.outgoing = some o) (half0 : o.half0Free = false)
    (half1 : (x.any fun b => leValue b 0 4 == 1) = false) : rawStateAnswered a x c = loseEpoch c := by
  have other : a.purpose ≠ .rawState 0 := by simp [purpose]
  simp only [rawStateAnswered, outgoing, rawFree_getD, if_neg other, half0, half1]
  rfl

/-! ## The writes (R161, R162, R169) -/

/-- After the header comes tick 0. -/
theorem rawHalfAnswered_header {a : Access} {h : Nat} {c : Chip} {o : Outgoing} (purpose : a.purpose = .rawHeader h)
    (outgoing : c.dlv.outgoing = some o) :
    rawHalfAnswered a (some []) c =
      request .dlv (writeAccess (.rawTick h 0) (c.layout.rawBase h + 0x80) (rawTickBytes o.epoch 0)) c := by
  simp only [rawHalfAnswered, outgoing, purpose]
  rfl

/-- After a tick below 499 comes the next one, and after tick 499 the FULL write. -/
theorem rawHalfAnswered_tick {a : Access} {h i : Nat} {c : Chip} {o : Outgoing} (purpose : a.purpose = .rawTick h i)
    (outgoing : c.dlv.outgoing = some o) :
    rawHalfAnswered a (some []) c = request .dlv (if i < 499 then
        writeAccess (.rawTick h (i + 1)) (c.layout.rawBase h + 0x80 + 1024 * (i + 1)) (rawTickBytes o.epoch (i + 1))
      else writeAccess (.rawFull h) (c.layout.rawBase h) [2, 0, 0, 0]) c := by
  simp only [rawHalfAnswered, outgoing, purpose]
  by_cases more : i < 499
  · rw [if_pos (show i + 1 < epochTicks from Nat.succ_lt_succ more), if_pos more]
    rfl
  · rw [if_neg (show ¬ i + 1 < epochTicks from fun h => more (Nat.lt_of_succ_lt_succ h)), if_neg more]
    rfl

/-- The FULL write names its half. -/
theorem fullHalf_rawFull (h : Fin 2) : fullHalf (.rawFull h.val) = h := by
  obtain rfl | rfl : h = 0 ∨ h = 1 := by omega
  · rfl
  · rfl

/-- What the loss of an epoch changes: the writer is idle, and the loss is counted. -/
theorem loseEpoch_dlv (c : Chip) :
    (loseEpoch c).dlv = { c.dlv with
      outgoing := none
      counters := { c.dlv.counters with rawLost := countUp c.dlv.counters.rawLost } } := rfl

/-! ## The end of a step (R165, R171) -/

/-- A failure in BOUND, LISTENING or STOPPING is shown after the step, when the block that asked leaves the asking. -/
theorem concludeStep_showsFailure (a : Access) {c d : Chip} (active : c.active = true) (same : d.active = c.active)
    (kept : d.dlv.progress = (c.answered a none).dlv.progress ∧
      d.dlv.progressAsked = (c.answered a none).dlv.progressAsked ∧
      d.dlv.rewrite = (c.answered a none).dlv.rewrite) :
    c.dlv.showsNext (concludeStep d).dlv := by
  obtain ⟨progress, asked, rewrite⟩ := kept
  exact concludeStep_showsNext (same.trans active)
    ((answered_asks a active).mono progress (asked.trans ·) (rewrite.trans ·))

/-- A request made in a step is carried after it. -/
theorem concludeStep_request_carries (b : Requester) (x : Access) (c : Chip) :
    (concludeStep (request b x c)).mpt.carries x := concludeStep_carries _ x ((request_carries ..).mpr (.inr rfl))

/-- What the part has lost with an epoch when a write of the raw writer has failed. -/
theorem concludeStep_loseEpoch_answered {a : Access} (source : faultSourceOf a.purpose = .raw) (c : Chip) :
    let d := concludeStep (loseEpoch (c.answered a none))
    d.dlv.outgoing = none ∧ d.dlv.selector = c.dlv.selector ∧ d.dlv.assembly = c.dlv.assembly ∧
      d.dlv.counters = { c.dlv.counters with rawLost := countUp c.dlv.counters.rawLost } ∧
      d.mpt.records = (c.mpt.record .raw .bus a.addr c.lki.horizon).records ∧
      (c.active = true → c.dlv.showsNext d.dlv) ∧ d.lki = c.lki ∧ d.chc = c.chc ∧ d.ccu = c.ccu ∧ d.sce = c.sce ∧
      d.tcu = c.tcu ∧ d.ord = c.ord := by
  obtain ⟨records, -⟩ := answered_records source none c
  refine ⟨by simp [loseEpoch_dlv], by simp, by simp, by simp [loseEpoch_dlv], by simpa using records, fun active => ?_,
    by simp, by simp, by simp, by simp, by simp, by simp⟩
  exact concludeStep_showsFailure a active (by simp) ⟨by simp, by simp, by simp⟩

end Sys2Proof.Machine
end

section
/-! PROOFS. The statement about the raw writer (R161, R162, R165, R169, R171). -/

namespace Sys2Proof.Machine

/-- The answer to a state read. -/
theorem exec_rawStateReadDone {c : Chip} {a : Access} {x : Option (List Byte)} {h : Nat} (q : List Instr)
    (onBus : c.mpt.onBus = some a) (purpose : a.purpose = .rawState h) (length : ∀ b, x = some b → b.length = a.len)
    (running : c.rgp.partState ≠ .faulted) :
    exec (.rawStateReadDone (readAnswerOf x)) ⟨c, q⟩ =
      .next ⟨concludeStep (rawStateAnswered a x (c.answered a x)), q⟩ :=
  answerRead_answered isRawState rawStateAnswered q onBus (by rw [purpose]; rfl) (by rw [purpose]; rfl) length running

/-- The answer to a header or tick write. -/
theorem exec_rawHalfWriteDone {c : Chip} {a : Access} (q : List Instr) (ok : Bool) (onBus : c.mpt.onBus = some a)
    (purpose : (∃ h, a.purpose = .rawHeader h) ∨ ∃ h i, a.purpose = .rawTick h i)
    (running : c.rgp.partState ≠ .faulted) :
    exec (.rawHalfWriteDone ok) ⟨c, q⟩ = .next ⟨concludeStep (rawHalfAnswered a (if ok then some [] else none)
      (c.answered a (if ok then some [] else none))), q⟩ := by
  obtain ⟨h, purpose⟩ | ⟨h, i, purpose⟩ := purpose
  all_goals
    exact answerWrite_answered isRawHalf rawHalfAnswered q ok onBus (by rw [purpose]; rfl) (by rw [purpose]; rfl)
      running

/-- The answer to a FULL write. -/
theorem exec_rawFullWriteDone {c : Chip} {a : Access} {h : Nat} (q : List Instr) (ok : Bool)
    (onBus : c.mpt.onBus = some a) (purpose : a.purpose = .rawFull h) (running : c.rgp.partState ≠ .faulted) :
    exec (.rawFullWriteDone ok) ⟨c, q⟩ = .next ⟨concludeStep (rawFullAnswered a (if ok then some [] else none)
      (c.answered a (if ok then some [] else none))), q⟩ :=
  answerWrite_answered isRawFull rawFullAnswered q ok onBus (by rw [purpose]; rfl) (by rw [purpose]; rfl) running

/-- Settles O48: by the access answered, each with the equation of what the raw writer does then. -/
theorem rawEpochGoesToAFreeHalf : Obligations.RawEpochGoesToAFreeHalf := by
  intro c q a o onBus running outgoing
  have layout (x : Option (List Byte)) : (c.answered a x).layout = c.layout := by simp [Chip.layout]
  have outgoing' (x : Option (List Byte)) : (c.answered a x).dlv.outgoing = some o := by simpa using outgoing
  refine ⟨fun x length => ⟨fun ⟨h, purpose⟩ => ?state, fun purpose => ?half0, fun purpose => ?half1⟩,
    fun h purpose => ?header, fun h i purpose => ?tick, fun h purpose => ?full, fun i h k failed => ?failed⟩
  case state =>
    obtain ⟨records, -⟩ := answered_records (source := .raw) (by rw [purpose]; rfl) x c
    refine ⟨_, exec_rawStateReadDone q onBus purpose length running, by simp, by simp, fun none active => ?_,
      by simpa using records⟩
    subst none
    exact concludeStep_showsFailure a active (by simp) ⟨by simp, by simp, by simp⟩
  case half0 =>
    refine ⟨_, exec_rawStateReadDone q onBus purpose length running, ?_⟩
    rw [rawStateAnswered_half0 x purpose (outgoing' x), layout x]
    exact ⟨by simp, by simp, concludeStep_request_carries ..⟩
  case half1 =>
    refine ⟨_, exec_rawStateReadDone q onBus purpose length running, fun h named => ?_, fun half0 half1 => ?_⟩
    · rw [rawStateAnswered_chooses purpose (outgoing' x) (chooseHalf_eq_some (by simpa using named)), layout x]
      exact ⟨by simpa using outgoing, by simp, concludeStep_request_carries ..⟩
    · rw [rawStateAnswered_loses purpose (outgoing' x) half0 half1]
      exact ⟨by simp [loseEpoch_dlv], by simp [loseEpoch_dlv]⟩
  case header =>
    refine ⟨_, exec_rawHalfWriteDone q true onBus (.inl ⟨h, purpose⟩) running, ?_⟩
    rw [if_pos rfl, rawHalfAnswered_header purpose (outgoing' _), layout]
    exact ⟨by simpa using outgoing, concludeStep_request_carries ..⟩
  case tick =>
    refine ⟨_, exec_rawHalfWriteDone q true onBus (.inr ⟨h, i, purpose⟩) running, ?_⟩
    rw [if_pos rfl, rawHalfAnswered_tick purpose (outgoing' _), layout]
    exact ⟨by simpa using outgoing, concludeStep_request_carries ..⟩
  case full =>
    refine ⟨_, exec_rawFullWriteDone q true onBus purpose running, ?_⟩
    rw [if_pos rfl]
    refine ⟨?_, ?_, ?_, by simp [Chip.answered, freeBus], by simp, by simp, by simp, by simp, by simp, by simp⟩
    · simp [rawFullAnswered]
    · simp [rawFullAnswered, purpose, fullHalf_rawFull]
    · simp [rawFullAnswered]
  case failed =>
    have source : faultSourceOf a.purpose = .raw := by
      obtain ⟨-, purpose | purpose⟩ | ⟨-, purpose⟩ := failed <;> rw [purpose] <;> rfl
    refine ⟨_, ?_, concludeStep_loseEpoch_answered source c⟩
    obtain ⟨rfl, purpose | purpose⟩ | ⟨rfl, purpose⟩ := failed
    · exact exec_rawHalfWriteDone q false onBus (.inl ⟨h, purpose⟩) running
    · exact exec_rawHalfWriteDone q false onBus (.inr ⟨h, k, purpose⟩) running
    · exact exec_rawFullWriteDone q false onBus purpose running

end Sys2Proof.Machine
end

section
/-! SUPPORT. The return block read (R151, R152, R158): the totals that a read adopts, the pending write in one equation,
and the end of the read. -/

namespace Sys2Proof.Machine

/-! ## The totals adopted (R152) -/

/-- A stream that has adopted a released total, its no-room mark cleared if it has room. Irreducible: two parts are then
compared without a comparison of the totals; `readReleased_eq` says what it is. -/
@[irreducible] def StreamState.readReleased (r : Word32) (s : StreamState) : StreamState := clearNoRoom (s.adopt r)

/-- The stream, field by field. -/
theorem StreamState.readReleased_eq (r : Word32) (s : StreamState) :
    let ahead := decide ((s.written - s.released).toNat < (r - s.released).toNat)
    let released := if ahead = true then s.written else r
    s.readReleased r = { s with
      released := released
      noRoom := s.noRoom && !decide ((s.written - released).toNat < s.slots) } := by
  unfold StreamState.readReleased
  rfl

/-- The clamp that a released total read counts. -/
def StreamState.clamps (r : Word32) (s : StreamState) : Nat := if s.beyond r = true then 1 else 0

/-- A released total is adopted, and a clamp counted. -/
theorem adoptReleased_eq (id : StreamId) (r : Word32) (c : Chip) :
    adoptReleased id r c = (onStream id (StreamState.adopt r) c).onDlvCounters fun n =>
      { n with clamps := addCount n.clamps ((c.dlv.stream id).clamps r) } := by
  unfold adoptReleased StreamState.clamps
  dsimp only
  split
  case isTrue => rfl
  case isFalse =>
    simp only [addCount_zero]
    rfl

/-- The part once the return block has been read, before the pending write. -/
def Chip.totalsRead (pick event : Word32) (c : Chip) : Chip :=
  { c with dlv := { c.dlv with
      pick := c.dlv.pick.readReleased pick
      event := c.dlv.event.readReleased event
      counters := { c.dlv.counters with
        clamps := addCount (addCount c.dlv.counters.clamps (c.dlv.pick.clamps pick)) (c.dlv.event.clamps event) } } }

/-- Both totals are adopted, and the no-room marks of streams with room are cleared. -/
theorem totalsRead_eq (pick event : Word32) (c : Chip) :
    onStream .event clearNoRoom (onStream .pick clearNoRoom (adoptReleased .event event (adoptReleased .pick pick c))) =
      c.totalsRead pick event := by
  have picks : adoptReleased .pick pick c = { c with dlv := { c.dlv with
      pick := c.dlv.pick.adopt pick
      counters := { c.dlv.counters with clamps := addCount c.dlv.counters.clamps (c.dlv.pick.clamps pick) } } } :=
    adoptReleased_eq .pick pick c
  rw [picks, adoptReleased_eq, Chip.totalsRead]
  unfold StreamState.readReleased
  rfl

/-- Both totals are adopted, and then the pending write is made. -/
theorem adoptReturnBlock_eq (b : List Byte) (c : Chip) :
    adoptReturnBlock b c =
      pendingWrite (c.totalsRead (BitVec.ofNat 32 (leValue b 0 4)) (BitVec.ofNat 32 (leValue b 4 4))) :=
  congrArg pendingWrite (totalsRead_eq ..)

/-! ## The pending write (R158) -/

/-- The records of a list are assigned the next slots of the event stream, in their order. -/
def assignEvents : List EventRecord → Chip → Chip
  | [], c => c
  | r :: rest, c => assignEvents rest (assignRecord .event (eventBytes r) c)

/-- The records left wait. With some left and the mark clear they have met a stream with no room. -/
def leaveWaiting (l : List EventRecord) (c : Chip) : Chip :=
  if !l.isEmpty && !c.dlv.event.noRoom then meetNoRoom .event (setPendingEvents l c) else setPendingEvents l c

/-- The slots of a stream that are free. -/
def StreamState.free (s : StreamState) : Nat := s.slots - (s.written - s.released).toNat

/-- A stream with no room has no free slot. -/
theorem StreamState.free_of_noRoom (s : StreamState) (noRoom : s.hasRoom = false) : s.free = 0 :=
  Nat.sub_eq_zero_of_le (Nat.le_of_not_lt (of_decide_eq_false noRoom))

/-- A record assigned takes one free slot: the total written does not pass the slot count. -/
theorem StreamState.free_written (s : StreamState) (few : s.slots ≤ 4294967295) (room : s.hasRoom = true) :
    ({ s with written := s.written + 1 } : StreamState).free + 1 = s.free := by
  have room : (s.written - s.released).toNat < s.slots := of_decide_eq_true room
  have next : (s.written + 1 - s.released).toNat = (s.written - s.released).toNat + 1 := by bv_omega
  simp only [StreamState.free, next]
  omega

/-- With no room nothing is assigned. -/
theorem writePending_noRoom (l : List EventRecord) {c : Chip} (noRoom : c.dlv.event.hasRoom = false) :
    writePending l c = leaveWaiting l c := by
  cases l with
  | nil => rfl
  | cons r rest =>
    rw [writePending, if_neg (Bool.eq_false_iff.mp noRoom), leaveWaiting]
    cases c.dlv.event.noRoom <;> rfl

/-- The oldest records are assigned slots while there are free ones, and the others wait. -/
theorem writePending_eq (l : List EventRecord) (c : Chip) (few : c.dlv.event.slots ≤ 4294967295) :
    writePending l c = leaveWaiting (l.drop (min l.length c.dlv.event.free))
      (assignEvents (l.take (min l.length c.dlv.event.free)) c) := by
  induction l generalizing c with
  | nil => simp [writePending, leaveWaiting, assignEvents]
  | cons r rest ih =>
    cases room : c.dlv.event.hasRoom with
    | false =>
      simp [writePending_noRoom _ room, c.dlv.event.free_of_noRoom room, assignEvents]
    | true =>
      have free := c.dlv.event.free_written few room
      have slots : (assignRecord .event (eventBytes r) c).dlv.event =
        { c.dlv.event with written := c.dlv.event.written + 1 } := rfl
      rw [writePending, if_pos room, ih _ (by rw [slots]; exact few), slots, ← free, List.length_cons,
        Nat.add_min_add_right, List.drop_succ_cons, List.take_succ_cons, assignEvents]

/-- One record more. -/
theorem add_ofNat_succ (w : Word32) (n : Nat) : w + BitVec.ofNat 32 (n + 1) = w + 1 + BitVec.ofNat 32 n := by
  rw [Nat.add_comm, BitVec.ofNat_add, BitVec.add_assoc]
  rfl

/-- The write of an event record in the slot of a written total. -/
def eventWrite (c : Chip) (written : Word32) (r : EventRecord) : Access :=
  writeAccess (.record .event) (c.layout.events + (written.toNat % c.dlv.event.slots) * 256) (eventBytes r)

/-- One record assigned: the write of its slot is requested, and the written total moves on. -/
theorem assignRecord_event (r : EventRecord) (c : Chip) :
    assignRecord .event (eventBytes r) c = onStream .event (fun s => { s with written := s.written + 1 })
      (request .dlv (eventWrite c c.dlv.event.written r) c) := rfl

/-- Of DLV the records assigned change the written total alone. -/
theorem assignEvents_dlv (l : List EventRecord) (c : Chip) :
    (assignEvents l c).dlv = { c.dlv with event :=
      { c.dlv.event with written := c.dlv.event.written + BitVec.ofNat 32 l.length } } := by
  induction l generalizing c with
  | nil => simp [assignEvents]
  | cons r rest ih =>
    have first : (assignRecord .event (eventBytes r) c).dlv =
      { c.dlv with event := { c.dlv.event with written := c.dlv.event.written + 1 } } := rfl
    rw [assignEvents, ih, first, List.length_cons, add_ofNat_succ]

/-- The records assigned change no register. -/
theorem assignEvents_rgp (l : List EventRecord) (c : Chip) : (assignEvents l c).rgp = c.rgp := by
  induction l generalizing c with
  | nil => rfl
  | cons r rest ih => rw [assignEvents, ih]; simp

/-- A record assigned loses no access, and its own is carried. -/
theorem assignRecord_event_carries (r : EventRecord) (c : Chip) (x : Access) :
    (assignRecord .event (eventBytes r) c).mpt.carries x ↔
      c.mpt.carries x ∨ x = eventWrite c c.dlv.event.written r := by
  rw [assignRecord_event, (onStream_frame ..).2.1, request_carries]

/-- The records assigned lose no access, and each is written at its slot. -/
theorem assignEvents_carries (l : List EventRecord) (c : Chip) :
    (∀ x, c.mpt.carries x → (assignEvents l c).mpt.carries x) ∧
      ∀ i r, l[i]? = some r →
        (assignEvents l c).mpt.carries (eventWrite c (c.dlv.event.written + BitVec.ofNat 32 i) r) := by
  induction l generalizing c with
  | nil => exact ⟨fun _ h => h, fun i r listed => by simp at listed⟩
  | cons r rest ih =>
    obtain ⟨keeps, writes⟩ := ih (assignRecord .event (eventBytes r) c)
    have first (x : Access) := assignRecord_event_carries r c x
    refine ⟨fun x h => keeps x ((first x).mpr (.inl h)), fun i r' listed => ?_⟩
    cases i with
    | zero =>
      obtain rfl : r = r' := by simpa using listed
      exact keeps _ ((first _).mpr (.inr (by simp)))
    | succ i =>
      have next := writes i r' (by simpa using listed)
      have moved : (assignRecord .event (eventBytes r) c).dlv.event.written = c.dlv.event.written + 1 := rfl
      rw [moved, ← add_ofNat_succ] at next
      exact next

/-- The part with the no-room mark of the event stream set, and ROOM with it. -/
def Chip.eventsMarked (c : Chip) : Chip :=
  { c with
    rgp := { c.rgp with cause := c.rgp.cause ||| 0x08 }
    dlv := { c.dlv with event := { c.dlv.event with noRoom := true } } }

/-- A stream whose no-room mark is clear meets a record: the mark and ROOM are set, and the return block is read. -/
theorem meetNoRoom_unmarked {c : Chip} (unmarked : c.dlv.event.noRoom = false) :
    meetNoRoom .event c = beginReturnRead c.eventsMarked :=
  congrArg beginReturnRead (if_neg (by simpa [Dlv.stream] using unmarked))

/-- What the records that are left to wait leave of DLV, of the registers and of the accesses. -/
theorem leaveWaiting_spec (l : List EventRecord) (c : Chip) :
    let d := leaveWaiting l c
    let meets := !l.isEmpty && !c.dlv.event.noRoom
    d.dlv.pendingEvents = l ∧ d.dlv.pick = c.dlv.pick ∧
      d.dlv.event = { c.dlv.event with noRoom := c.dlv.event.noRoom || !l.isEmpty } ∧
      d.rgp = (if meets = true then { c.rgp with cause := c.rgp.cause ||| 0x08 } else c.rgp) ∧
      (c.dlv.returnRead = true → c.active = true →
        d.dlv.returnRead = true ∧ d.dlv.reread = (c.dlv.reread || meets)) ∧
      ∀ x, c.mpt.carries x → d.mpt.carries x := by
  dsimp only
  cases meets : !l.isEmpty && !c.dlv.event.noRoom with
  | false =>
    have left : leaveWaiting l c = setPendingEvents l c := if_neg (by simp [meets])
    have mark : (c.dlv.event.noRoom || !l.isEmpty) = c.dlv.event.noRoom := by
      cases h : c.dlv.event.noRoom <;> simp_all
    rw [left, mark]
    exact ⟨rfl, rfl, rfl, rfl, fun read _ => ⟨read, by simp⟩, fun _ h => h⟩
  | true =>
    obtain ⟨some, unmarked⟩ : (!l.isEmpty) = true ∧ c.dlv.event.noRoom = false := by simpa using meets
    have left : leaveWaiting l c = meetNoRoom .event (setPendingEvents l c) := if_pos meets
    rw [left, meetNoRoom_unmarked (c := setPendingEvents l c) unmarked, some, Bool.or_true, Bool.or_true, if_pos rfl]
    simp only [beginReturnRead_frame]
    refine ⟨rfl, rfl, rfl, rfl, fun read active => ?_, fun x h => beginReturnRead_carries _ x h⟩
    have kept : (setPendingEvents l c).eventsMarked.dlv.returnRead = true := read
    rw [beginReturnRead_dlv _ (show (setPendingEvents l c).eventsMarked.active = true from active), kept]
    exact ⟨rfl, Bool.or_true _⟩

/-- Records are left when fewer have been dropped than there are. -/
theorem drop_not_isEmpty {α : Type} (l : List α) (k : Nat) : (!(l.drop k).isEmpty) = decide (k < l.length) := by
  rw [Bool.eq_iff_iff]
  simp

/-- What the pending write leaves when the stream has at most 2^32 - 1 slots: the oldest records assigned to the free
slots, and the others left to wait. -/
theorem writePending_spec (l : List EventRecord) (c : Chip) (few : c.dlv.event.slots ≤ 4294967295) :
    let k := min l.length c.dlv.event.free
    let left := decide (k < l.length)
    let d := writePending l c
    d.dlv.pendingEvents = l.drop k ∧
      d.dlv.event = { c.dlv.event with
        written := c.dlv.event.written + BitVec.ofNat 32 k
        noRoom := c.dlv.event.noRoom || left } ∧
      (∀ i r, i < k → l[i]? = some r →
        d.mpt.carries (eventWrite c (c.dlv.event.written + BitVec.ofNat 32 i) r)) ∧
      d.rgp = (if left = true ∧ c.dlv.event.noRoom = false then { c.rgp with cause := c.rgp.cause ||| 0x08 }
        else c.rgp) ∧
      (c.dlv.returnRead = true → c.active = true →
        d.dlv.returnRead = true ∧ d.dlv.reread = (c.dlv.reread || (left && !c.dlv.event.noRoom))) := by
  intro k left d
  let assigned := assignEvents (l.take k) c
  have eq : d = leaveWaiting (l.drop k) assigned := writePending_eq l c few
  have length : (l.take k).length = k := List.length_take_of_le (Nat.min_le_left _ _)
  have dlv : assigned.dlv = { c.dlv with event :=
      { c.dlv.event with written := c.dlv.event.written + BitVec.ofNat 32 k } } := by
    rw [assignEvents_dlv, length]
  have rgp : assigned.rgp = c.rgp := assignEvents_rgp _ c
  obtain ⟨-, writes⟩ := assignEvents_carries (l.take k) c
  obtain ⟨pending, -, event, cause, read, keeps⟩ := leaveWaiting_spec (l.drop k) assigned
  rw [drop_not_isEmpty, dlv] at event cause read
  rw [rgp] at cause
  rw [eq]
  refine ⟨pending, event, fun i r early listed => keeps _ (writes i r ?_), ?_, fun inFlight active => ?_⟩
  · rwa [List.getElem?_take_of_lt early]
  · simpa [left] using cause
  · exact read inFlight (by simpa [Chip.active, rgp] using active)

/-- The pending write changes neither the pick stream nor the released total of the event stream. -/
theorem writePending_totals (l : List EventRecord) (c : Chip) :
    (writePending l c).dlv.pick = c.dlv.pick ∧ (writePending l c).dlv.event.released = c.dlv.event.released := by
  induction l generalizing c with
  | nil => exact ⟨rfl, rfl⟩
  | cons r rest ih =>
    cases room : c.dlv.event.hasRoom with
    | true =>
      rw [writePending, if_pos room]
      exact ih _
    | false =>
      rw [writePending_noRoom _ room]
      obtain ⟨-, pick, event, -⟩ := leaveWaiting_spec (r :: rest) c
      exact ⟨pick, by rw [event]⟩

/-! ## The end of the read (R151) -/

/-- With no reread mark the read is over. -/
theorem endReturnRead_over {c : Chip} (unmarked : c.dlv.reread = false) :
    endReturnRead c = c.onDlv fun d => { d with returnRead := false } := if_neg (by simp [unmarked])

/-- With the mark a new read begins. -/
theorem endReturnRead_again {c : Chip} (marked : c.dlv.reread = true) (active : c.active = true) :
    endReturnRead c = request .dlv (readAccess .returnBlock c.layout.returnBlock 64)
      (c.onDlv fun d => { d with returnRead := true, reread := false }) := by
  rw [endReturnRead, if_pos marked, beginReturnRead, if_pos (by simpa [Chip.active] using active)]
  rfl

/-- The end of a read loses no access. -/
theorem endReturnRead_carries (c : Chip) (x : Access) (h : c.mpt.carries x) : (endReturnRead c).mpt.carries x := by
  unfold endReturnRead
  split
  · exact beginReturnRead_carries _ x h
  · exact h

/-- What the end of a read leaves of it in BOUND, LISTENING and STOPPING. -/
theorem endReturnRead_spec {c : Chip} (active : c.active = true) :
    (endReturnRead c).dlv.reread = false ∧ (endReturnRead c).dlv.returnRead = c.dlv.reread ∧
      (c.dlv.reread = true →
        (endReturnRead c).mpt.carries (readAccess .returnBlock c.layout.returnBlock 64)) := by
  cases marked : c.dlv.reread with
  | true =>
    rw [endReturnRead_again marked active]
    exact ⟨by simp, by simp, fun _ => (request_carries ..).mpr (.inr rfl)⟩
  | false =>
    rw [endReturnRead_over marked]
    exact ⟨marked, rfl, nofun⟩

/-! ## The pending write and the end of the read, to the end of the step (R151, R158) -/

/-- The part that the answer to a return block read with data leaves, from the part with the totals read. -/
def Chip.roomGiven (c : Chip) : Chip := concludeStep (endReturnRead (pendingWrite c))

/-- What it leaves of DLV's other totals and counters and of the other blocks. -/
theorem roomGiven_frame (c : Chip) :
    c.roomGiven.dlv.pick = c.dlv.pick ∧ c.roomGiven.dlv.event.released = c.dlv.event.released ∧
      c.roomGiven.dlv.counters = c.dlv.counters ∧ c.roomGiven.lki = c.lki ∧ c.roomGiven.chc = c.chc ∧
      c.roomGiven.ccu = c.ccu ∧ c.roomGiven.sce = c.sce ∧ c.roomGiven.tcu = c.tcu ∧ c.roomGiven.ord = c.ord := by
  obtain ⟨pick, released⟩ := writePending_totals c.dlv.pendingEvents c
  refine ⟨?_, ?_, by simp [Chip.roomGiven], by simp [Chip.roomGiven], by simp [Chip.roomGiven],
    by simp [Chip.roomGiven], by simp [Chip.roomGiven], by simp [Chip.roomGiven], by simp [Chip.roomGiven]⟩
  · simpa [Chip.roomGiven, pendingWrite] using pick
  · simpa [Chip.roomGiven, pendingWrite] using released

/-- The streams, the queue and the registers are those of the pending write. -/
theorem roomGiven_dlv (c : Chip) :
    c.roomGiven.dlv.event = (pendingWrite c).dlv.event ∧
      c.roomGiven.dlv.pendingEvents = (pendingWrite c).dlv.pendingEvents ∧
      c.roomGiven.dlv.returnRead = (endReturnRead (pendingWrite c)).dlv.returnRead ∧
      c.roomGiven.dlv.reread = (endReturnRead (pendingWrite c)).dlv.reread ∧
      c.roomGiven.rgp = (pendingWrite c).rgp := by
  simp [Chip.roomGiven, -pendingWrite_frame]

/-- It loses no access. -/
theorem roomGiven_carries {c : Chip} {x : Access} (h : (pendingWrite c).mpt.carries x) :
    c.roomGiven.mpt.carries x := concludeStep_carries _ x (endReturnRead_carries _ x h)

/-- With no record waiting the pending write does nothing, and without the reread mark no read begins. -/
theorem roomGiven_none {c : Chip} (none : c.dlv.pendingEvents = []) :
    c.roomGiven.dlv.event = c.dlv.event ∧ c.roomGiven.dlv.pendingEvents = [] ∧ c.roomGiven.rgp = c.rgp ∧
      (c.dlv.reread = false → c.roomGiven.dlv.returnRead = false) := by
  obtain ⟨event, pending, read, -, rgp⟩ := roomGiven_dlv c
  have idle : pendingWrite c = setPendingEvents [] c := by rw [pendingWrite, none]; rfl
  rw [event, pending, read, rgp, idle]
  refine ⟨rfl, rfl, rfl, fun unmarked => ?_⟩
  rw [endReturnRead_over (c := setPendingEvents [] c) unmarked]
  rfl

/-- The one record that waits is written at the next slot while the stream has room. -/
theorem roomGiven_one {c : Chip} {r : EventRecord} (one : c.dlv.pendingEvents = [r])
    (room : c.dlv.event.hasRoom = true) :
    c.roomGiven.dlv.pendingEvents = [] ∧ c.roomGiven.dlv.event.written = c.dlv.event.written + 1 ∧
      c.roomGiven.mpt.carries (eventWrite c c.dlv.event.written r) := by
  obtain ⟨event, pending, -⟩ := roomGiven_dlv c
  have writes : pendingWrite c = setPendingEvents [] (assignRecord .event (eventBytes r) c) := by
    rw [pendingWrite, one]
    exact if_pos room
  have carried : (pendingWrite c).mpt.carries (eventWrite c c.dlv.event.written r) := by
    rw [writes]
    exact (assignRecord_event_carries r c _).mpr (.inr rfl)
  refine ⟨?_, ?_, roomGiven_carries carried⟩
  · rw [pending, writes]; rfl
  · rw [event, writes]; rfl

/-- What it leaves of the event stream and the queue when the stream has at most 2^32 - 1 slots. -/
theorem roomGiven_spec (c : Chip) (few : c.dlv.event.slots ≤ 4294967295) :
    let k := min c.dlv.pendingEvents.length c.dlv.event.free
    let left := decide (k < c.dlv.pendingEvents.length)
    let d := c.roomGiven
    d.dlv.pendingEvents = c.dlv.pendingEvents.drop k ∧
      d.dlv.event = { c.dlv.event with
        written := c.dlv.event.written + BitVec.ofNat 32 k
        noRoom := c.dlv.event.noRoom || left } ∧
      (∀ i r, i < k → c.dlv.pendingEvents[i]? = some r →
        d.mpt.carries (eventWrite c (c.dlv.event.written + BitVec.ofNat 32 i) r)) ∧
      d.rgp = (if left = true ∧ c.dlv.event.noRoom = false then { c.rgp with cause := c.rgp.cause ||| 0x08 }
        else c.rgp) ∧
      (c.dlv.returnRead = true → c.active = true →
        d.dlv.reread = false ∧ d.dlv.returnRead = (c.dlv.reread || (left && !c.dlv.event.noRoom)) ∧
        (d.dlv.returnRead = true → d.mpt.carries (readAccess .returnBlock c.layout.returnBlock 64))) := by
  intro k left d
  obtain ⟨event, pending, read, reread, rgp⟩ := roomGiven_dlv c
  obtain ⟨waiting, stream, writes, cause, marks⟩ := writePending_spec c.dlv.pendingEvents c few
  refine ⟨pending.trans waiting, event.trans stream,
    fun i r early listed => roomGiven_carries (writes i r early listed), rgp.trans cause, fun inFlight active => ?_⟩
  obtain ⟨-, marked⟩ := marks inFlight active
  obtain ⟨clear, again, requests⟩ := endReturnRead_spec (c := pendingWrite c) (by simpa using active)
  have layout : (pendingWrite c).layout = c.layout := by simp [Chip.layout]
  refine ⟨reread.trans clear, read.trans (again.trans marked), fun begins => concludeStep_carries _ _ ?_⟩
  rw [← layout]
  exact requests (again.symm.trans (read.symm.trans begins))

end Sys2Proof.Machine
end

section
/-! PROOFS. The statement about the return block read (R148, R151, R152, R153, R158, R171). -/

namespace Sys2Proof.Machine

/-- The answer to a return block read. -/
theorem exec_returnBlockReadDone {c : Chip} {a : Access} (q : List Instr) (x : Option (List Byte))
    (onBus : c.mpt.onBus = some a) (purpose : a.purpose = .returnBlock) (length : ∀ b, x = some b → b.length = a.len)
    (running : c.rgp.partState ≠ .faulted) :
    exec (.returnBlockReadDone (readAnswerOf x)) ⟨c, q⟩ =
      .next ⟨concludeStep (returnBlockAnswered a x (c.answered a x)), q⟩ :=
  answerRead_answered isReturnBlock returnBlockAnswered q onBus (by rw [purpose]; rfl) (by rw [purpose]; rfl) length
    running

/-- The part once a return block read is counted and, with data, its totals are read. -/
def Chip.returnRead (pick event : Word32) (c : Chip) : Chip :=
  ((freeBus c).onDlvCounters fun n => { n with returnReads := countUp n.returnReads }).totalsRead pick event

/-- The clamps and the read are counted, and all but the streams, those counters and the bus is as before. -/
theorem returnRead_frame (pick event : Word32) (c : Chip) :
    let d := c.returnRead pick event
    d.dlv.counters.clamps =
        addCount c.dlv.counters.clamps (c.dlv.pick.clamps pick + c.dlv.event.clamps event) ∧
      d.dlv.counters.returnReads = countUp c.dlv.counters.returnReads ∧
      d.dlv.pendingEvents = c.dlv.pendingEvents ∧ d.dlv.returnRead = c.dlv.returnRead ∧
      d.dlv.reread = c.dlv.reread ∧ d.rgp = c.rgp ∧ d.lki = c.lki ∧ d.chc = c.chc ∧ d.ccu = c.ccu ∧ d.sce = c.sce ∧
      d.tcu = c.tcu ∧ d.ord = c.ord :=
  ⟨addCount_addCount .., rfl, rfl, rfl, rfl, rfl, rfl, rfl, rfl, rfl, rfl, rfl⟩

/-- What a return block read with data leaves. -/
theorem exec_returnBlockReadDone_data {c : Chip} {a : Access} (q : List Instr) (b : List Byte)
    (onBus : c.mpt.onBus = some a) (purpose : a.purpose = .returnBlock) (length : b.length = a.len)
    (running : c.rgp.partState ≠ .faulted) :
    exec (.returnBlockReadDone (.data b)) ⟨c, q⟩ = .next
      ⟨(c.returnRead (BitVec.ofNat 32 (leValue b 0 4)) (BitVec.ofNat 32 (leValue b 4 4))).roomGiven, q⟩ := by
  have answered := exec_returnBlockReadDone q (some b) onBus purpose
    (fun _ same => Option.some.inj same ▸ length) running
  rw [readAnswerOf] at answered
  rw [answered, returnBlockAnswered, adoptReturnBlock_eq]
  rfl

/-- Settles O44: with data the pending write on the totals read and the end of the read, each by its lemma; without, the
end of the read alone. -/
theorem returnBlockGivesRoomBack : Obligations.ReturnBlockGivesRoomBack := by
  refine ⟨fun c q a b onBus purpose length running => ?data, fun c q a onBus purpose running => ?failed⟩
  case data =>
    intro r ahead released room
    obtain ⟨read, is⟩ : ∃ read, c.returnRead (r .pick) (r .event) = read := ⟨_, rfl⟩
    have next : exec (.returnBlockReadDone (.data b)) ⟨c, q⟩ = .next ⟨read.roomGiven, q⟩ :=
      is ▸ exec_returnBlockReadDone_data q b onBus purpose length running
    have stream (id : StreamId) : read.dlv.stream id = { c.dlv.stream id with
        released := released id
        noRoom := (c.dlv.stream id).noRoom && !room id } := by
      have reads : read.dlv.stream id = (c.dlv.stream id).readReleased (r id) := by
        rw [← is]
        cases id <;> rfl
      exact reads.trans (StreamState.readReleased_eq (r id) (c.dlv.stream id))
    have picks : read.dlv.pick = { c.dlv.pick with
        released := released .pick
        noRoom := c.dlv.pick.noRoom && !room .pick } := stream .pick
    have events : read.dlv.event = { c.dlv.event with
        released := released .event
        noRoom := c.dlv.event.noRoom && !room .event } := stream .event
    obtain ⟨clamps, reads, pending, inFlight, marked, rgp, blocks⟩ := is ▸ returnRead_frame (r .pick) (r .event) c
    obtain ⟨pick, event, counters, lki, chc, ccu, sce, tcu, ord⟩ := roomGiven_frame read
    have active : read.active = c.active := congrArg (fun g : Rgp => g.partState.active) rgp
    have layout : read.layout = c.layout := congrArg (fun g : Rgp => g.layout.getD _) rgp
    refine ⟨read.roomGiven, next, fun id => ?_, ?_, ?_, fun none => ?_, fun rec one roomy => ?_, fun few => ?_,
      pick.trans picks, ?_⟩
    · cases id with
      | pick => exact congrArg StreamState.released (pick.trans picks)
      | event => exact event.trans (congrArg StreamState.released events)
    · rw [counters, clamps]
      rfl
    · rw [counters, reads]
    · obtain ⟨stream, waiting, same, ended⟩ := roomGiven_none (pending.trans none)
      refine ⟨fun id => ?_, waiting, same.trans rgp, fun unmarked => ended (marked.trans unmarked)⟩
      cases id with
      | pick => exact pick.trans picks
      | event => exact stream.trans events
    · have hasRoom : read.dlv.event.hasRoom = true := by
        rw [events]
        exact roomy
      obtain ⟨waiting, written, writes⟩ := roomGiven_one (pending.trans one) hasRoom
      rw [eventWrite, layout, events] at writes
      rw [events] at written
      exact ⟨waiting, written, writes⟩
    · have given := roomGiven_spec read (by rw [events]; exact few)
      simp only [eventWrite, StreamState.free, events, layout, pending, inFlight, marked, active, rgp] at given
      exact given
    · obtain ⟨lki', chc', ccu', sce', tcu', ord'⟩ := blocks
      exact ⟨lki.trans lki', chc.trans chc', ccu.trans ccu', sce.trans sce', tcu.trans tcu', ord.trans ord'⟩
  case failed =>
    let counted := (c.answered a none).onDlvCounters fun n => { n with returnReads := countUp n.returnReads }
    have next : exec (.returnBlockReadDone .error) ⟨c, q⟩ = .next ⟨concludeStep (endReturnRead counted), q⟩ :=
      exec_returnBlockReadDone q none onBus purpose nofun running
    obtain ⟨records, overflow⟩ := answered_records (source := .streams) (by rw [purpose]; rfl) none c
    refine ⟨_, next, by simp [counted], by simp [counted], by simp [counted], by simp [counted], fun active => ?_,
      by simp [counted], by simpa [counted] using records, by simpa [counted] using overflow, by simp [counted],
      by simp [counted], by simp [counted], by simp [counted], by simp [counted], by simp [counted]⟩
    obtain ⟨-, read, -⟩ := endReturnRead_spec (c := counted) (by simpa [counted] using active)
    have kept := concludeStep_showsFailure a (d := endReturnRead counted) active (by simp [counted])
      ⟨by simp [counted], by simp [counted], by simp [counted]⟩
    exact ⟨kept, by simp [counted, answered_rgp a fun _ => active], by simp [read, counted]⟩

end Sys2Proof.Machine
end

section
/-! SUPPORT. The fault records (R168, R172, R174): the three ways in which MPT records a fault, and that each of them,
and a FAULT-CLEAR, leaves the records sound. -/

namespace Sys2Proof.Machine

/-! ## The three ways (R172) -/

/-- Some record has a source exactly when a valid record has it. -/
theorem any_hasSource (src : FaultSource) (l : List (Option FaultRecord)) :
    l.any (hasSource src) = true ↔ ∃ f, some f ∈ l ∧ f.source = src := by
  rw [List.any_eq_true]
  constructor
  · rintro ⟨_ | f, listed, has⟩
    · cases has
    · exact ⟨f, listed, beq_iff_eq.mp has⟩
  · rintro ⟨f, listed, has⟩
    exact ⟨some f, listed, beq_iff_eq.mpr has⟩

/-- A fault joins the record of its source, takes the lowest free place, or counts as overflow. -/
theorem Mpt.record_ways (src : FaultSource) (kind : FaultKind) (addr : Nat) (hz : Option Nat) (m : Mpt) :
    ((∃ f, some f ∈ m.records ∧ f.source = src) ∧
        m.record src kind addr hz = { m with records := m.records.map (againIn src) }) ∨
      ((∀ f, some f ∈ m.records → f.source ≠ src) ∧
        ((∃ n, m.records[n]? = some none ∧ (∀ k < n, m.records[k]? ≠ some none) ∧
            m.record src kind addr hz = { m with records := m.records.set n (some ⟨src, kind, addr, 1, hz⟩) }) ∨
          none ∉ m.records ∧ m.record src kind addr hz = { m with overflow := countUp m.overflow })) := by
  by_cases has : m.records.any (hasSource src) = true
  · exact .inl ⟨(any_hasSource src m.records).mp has, Mpt.record_again src kind addr hz m has⟩
  · refine .inr ⟨fun f listed same => has ((any_hasSource src m.records).mpr ⟨f, listed, same⟩), ?_⟩
    rcases putFree_spec ⟨src, kind, addr, 1, hz⟩ m.records with ⟨full, none⟩ | ⟨n, put, free, lowest⟩
    · exact .inr ⟨none, by simp [Mpt.record, has, full]⟩
    · exact .inl ⟨n, free, lowest, by simp [Mpt.record, has, put]⟩

/-! ## The sources of the valid records -/

/-- A fault that joins a record leaves the sources. -/
theorem validSources_againIn (src : FaultSource) (l : List (Option FaultRecord)) :
    validSources (l.map (againIn src)) = validSources l := by
  have same (r : Option FaultRecord) : (againIn src r).map FaultRecord.source = r.map FaultRecord.source := by
    cases r with
    | none => rfl
    | some f => simp only [againIn, Option.map_some]; split <;> rfl
  simp only [validSources, List.filterMap_map, Function.comp_def, same]

/-- A record put in a free place adds its source to the others. -/
theorem validSources_put (f : FaultRecord) (n : Nat) (l : List (Option FaultRecord)) (free : l[n]? = some none) :
    (validSources (l.set n (some f))).Perm (f.source :: validSources l) := by
  induction l generalizing n with
  | nil => cases free
  | cons r l ih =>
    cases n with
    | zero =>
      cases Option.some.inj free
      exact .refl _
    | succ n =>
      have put := ih n free
      cases r with
      | none => exact put
      | some g => exact (put.cons g.source).trans (.swap f.source g.source _)

/-- A record freed takes its source away, and leaves the others in their order. -/
theorem validSources_free (n : Nat) (l : List (Option FaultRecord)) :
    (validSources (l.set n none)).Sublist (validSources l) := by
  induction l generalizing n with
  | nil => exact .slnil
  | cons r l ih =>
    cases n with
    | zero =>
      cases r with
      | none => exact .refl _
      | some g => exact .cons g.source (.refl _)
    | succ n =>
      cases r with
      | none => exact ih n
      | some g => exact (ih n).cons_cons g.source

theorem mem_validSources (src : FaultSource) (l : List (Option FaultRecord)) :
    src ∈ validSources l ↔ ∃ f, some f ∈ l ∧ f.source = src := by
  simp [validSources]

/-! ## Sound records -/

theorem recordSound_some (f : FaultRecord) :
    recordSound (some f) = true ↔ 1 ≤ f.count ∧ f.count ≤ 65535 ∧ f.kind ≠ .windowWrite := by
  simp [recordSound, and_assoc]

/-- One more fault leaves a count of 1 to 65,535. -/
theorem againIn_sound (src : FaultSource) (r : Option FaultRecord) (sound : recordSound r = true) :
    recordSound (againIn src r) = true := by
  cases r with
  | none => rfl
  | some f =>
    obtain ⟨least, most, kind⟩ := (recordSound_some f).mp sound
    rw [againIn, recordSound_some]
    split
    · exact ⟨Nat.le_min.mpr ⟨Nat.le_add_left 1 _, by decide⟩, Nat.min_le_right _ _, kind⟩
    · exact ⟨least, most, kind⟩

/-- A place given a sound record, or freed, leaves the records sound one by one. -/
theorem all_recordSound_set (l : List (Option FaultRecord)) (n : Nat) (r : Option FaultRecord)
    (sound : l.all recordSound = true) (put : recordSound r = true) : (l.set n r).all recordSound = true := by
  rw [List.all_eq_true] at sound ⊢
  intro x listed
  rcases List.mem_or_eq_of_mem_set listed with kept | rfl
  · exact sound x kept
  · exact put

/-- Soundness rests on the records alone. -/
theorem Mpt.faultsSound.keeps {m n : Mpt} (h : m.faultsSound) (same : n.records = m.records) : n.faultsSound := by
  rwa [Mpt.faultsSound, same]

/-- A fault recorded leaves the records sound, but for one of kind WINDOW-WRITE, which the part never records (R168). -/
theorem Mpt.record_faultsSound (src : FaultSource) (kind : FaultKind) (addr : Nat) (hz : Option Nat) {m : Mpt}
    (h : m.faultsSound) (read : kind ≠ .windowWrite) : (m.record src kind addr hz).faultsSound := by
  obtain ⟨four, distinct, sound⟩ := h
  rcases Mpt.record_ways src kind addr hz m with ⟨-, eq⟩ | ⟨fresh, ⟨n, free, -, eq⟩ | ⟨-, eq⟩⟩ <;> rw [eq]
  · refine ⟨List.length_map _ |>.trans four, (validSources_againIn src _).symm ▸ distinct, ?_⟩
    rw [List.all_eq_true] at sound
    rw [List.all_map, List.all_eq_true]
    exact fun r listed => againIn_sound src r (sound r listed)
  · have new : src ∉ validSources m.records := fun listed => by
      obtain ⟨f, listed, same⟩ := (mem_validSources src _).mp listed
      exact fresh f listed same
    exact ⟨List.length_set.trans four,
      (validSources_put _ n _ free).nodup_iff.mpr (List.nodup_cons.mpr ⟨new, distinct⟩),
      all_recordSound_set _ n _ sound ((recordSound_some _).mpr ⟨Nat.le_refl 1, show 1 ≤ 65535 by decide, read⟩)⟩
  · exact ⟨four, distinct, sound⟩

/-- Four free records are sound. -/
theorem faultsSound_of_free {m : Mpt} (free : m.records = List.replicate 4 none) : m.faultsSound := by
  rw [Mpt.faultsSound, free]
  exact ⟨rfl, by decide, rfl⟩

/-- A FAULT-CLEAR leaves the records sound: it frees one of them or all. -/
theorem Mpt.clearFaults_faultsSound (index : Nat) {m : Mpt} (h : m.faultsSound) :
    (m.clearFaults index).faultsSound := by
  obtain ⟨four, distinct, sound⟩ := h
  rw [clearFaults_eq]
  split
  · exact faultsSound_of_free (four ▸ rfl)
  · exact ⟨List.length_set.trans four, distinct.sublist (validSources_free index _),
      all_recordSound_set _ index none sound rfl⟩

end Sys2Proof.Machine
end

section
/-! PROOFS. The statement about how a fault is recorded (R168, R172). -/

namespace Sys2Proof.Machine

/-- Settles O50: by the way the fault is recorded; the records leave one way open. -/
theorem faultIsRecordedInOneOfThreeWays : Obligations.FaultIsRecordedInOneOfThreeWays := by
  intro src kind addr hz m
  rcases Mpt.record_ways src kind addr hz m with
    ⟨⟨g, listed, source⟩, eq⟩ | ⟨fresh, ⟨n, free, lowest, eq⟩ | ⟨full, eq⟩⟩ <;> rw [eq]
  · refine ⟨rfl, fun _ => ⟨rfl, List.length_map _, fun n free => ?_, fun n f valid => ?_⟩,
      fun fresh => absurd source (fresh g listed)⟩
    · rw [List.getElem?_map, free]
      rfl
    · rw [List.getElem?_map, valid]
      rfl
  · exact ⟨rfl, fun ⟨f, listed, same⟩ => absurd same (fresh f listed), fun _ => ⟨fun _ => ⟨rfl, n, free, lowest, rfl⟩,
      fun full => absurd (List.mem_of_getElem? free) full⟩⟩
  · exact ⟨rfl, fun ⟨f, listed, same⟩ => absurd same (fresh f listed), fun _ => ⟨fun free => absurd free full,
      fun _ => ⟨rfl, addCount_toNat m.overflow 1⟩⟩⟩

end Sys2Proof.Machine
end

section
/-! PROOFS. The statement about the end of a step (R164, R169). -/

namespace Sys2Proof.Machine

/-- No command touches the queue behind it. -/
theorem exec_pending (i : Instr) (c : Chip) (q : List Instr) (t : State) (next : exec i ⟨c, q⟩ = .next t) :
    t.pending = q := by
  have form : CommandForm i c q (.next t) := next ▸ exec_form i c q
  cases form with
  | ignored | event | answered => rfl

/-- Settles O2: by what the end of a step keeps of each block, and by the forms of a command. -/
theorem endOfStepGrantsTheBus : Obligations.EndOfStepGrantsTheBus := by
  refine ⟨fun c => ?_, exec_pending⟩
  obtain ⟨rgp, windows, records, overflow, lki, chc, ccu, sce, tcu, ord, -⟩ := concludeStep_frame c
  exact ⟨concludeStep_settled c, concludeStep_of_settled c, rgp, lki, chc, ccu, sce, tcu, ord, windows, records,
    overflow, concludeStep_carries c, concludeStep_dlv c⟩

end Sys2Proof.Machine
end

section
/-! PROOFS. The statement about answers in FAULTED, late answers and unanswered accesses (R170, R173, R175). -/

namespace Sys2Proof.Machine

/-! ## Late answers (R170) -/

theorem answerRead_late (isFor : Purpose → Bool) (handler : Access → Option (List Byte) → Chip → Chip)
    (answer : ReadAnswer) {c : Chip} (q : List Instr) (free : c.mpt.onBus = none) :
    answerRead isFor handler answer ⟨c, q⟩ = .next ⟨c, q⟩ := by simp [answerRead, free]

theorem answerWrite_late (isFor : Purpose → Bool) (handler : Access → Option (List Byte) → Chip → Chip) (ok : Bool)
    {c : Chip} (q : List Instr) (free : c.mpt.onBus = none) :
    answerWrite isFor handler ok ⟨c, q⟩ = .next ⟨c, q⟩ := by simp [answerWrite, free]

/-- With nothing on the bus every answer is discarded, whatever it is for. -/
theorem exec_answerTo_late (p : Purpose) (result : Option (List Byte)) {c : Chip} (q : List Instr)
    (free : c.mpt.onBus = none) : exec (answerTo p result) ⟨c, q⟩ = .next ⟨c, q⟩ := by
  cases p with
  | directory | bindSettings | bindGrid | bindHub | bindStation | row | refine | reloadConfig | slotRead | returnBlock
  | rawState => exact answerRead_late _ _ _ q free
  | reloadGrid g last | reloadStation n last | reloadHub h last => cases last <;> exact answerRead_late _ _ _ q free
  | slotResult | slotState | record | progressFirst | progressMiddle | progressLast | rawHeader | rawTick | rawFull =>
    exact answerWrite_late _ _ _ q free

/-! ## The answer limit (R170) -/

theorem exec_answerLimitExpiry (c : Chip) (q : List Instr) (a : Access) (onBus : c.mpt.onBus = some a) :
    exec .answerLimitExpiry ⟨c, q⟩ = .next ⟨accessEnds (handlerOf a.purpose) a none c, q⟩ := by
  simp [exec, execAnswerLimitExpiry, endUnanswered, onBus]

theorem exec_answerLimitExpiry_late (c : Chip) (q : List Instr) (free : c.mpt.onBus = none) :
    exec .answerLimitExpiry ⟨c, q⟩ = .next ⟨c, q⟩ := by
  simp [exec, execAnswerLimitExpiry, endUnanswered, free]

/-! ## Answers in FAULTED (R175) -/

/-- The answer without error to the access on the bus ends it, whatever it is for: with its data for a read, and without
data for a write. -/
theorem exec_answerTo_data (c : Chip) (q : List Instr) (a : Access) (b : List Byte) (onBus : c.mpt.onBus = some a)
    (length : b.length = a.len) :
    ∃ data, exec (answerTo a.purpose (some b)) ⟨c, q⟩ =
      .next ⟨accessEnds (handlerOf a.purpose) a (some data) c, q⟩ := by
  cases p : a.purpose with
  | directory | bindSettings | bindGrid | bindHub | bindStation | row | refine | reloadConfig | slotRead | returnBlock
  | rawState => exact ⟨b, answerRead_data _ _ c q a b onBus (by rw [p]; rfl) length⟩
  | reloadGrid g last | reloadStation n last | reloadHub h last =>
    cases last <;> exact ⟨b, answerRead_data _ _ c q a b onBus (by rw [p]; rfl) length⟩
  | slotResult | slotState | record | progressFirst | progressMiddle | progressLast | rawHeader | rawTick | rawFull =>
    exact ⟨[], answerWrite_on _ _ true c q a onBus (by rw [p]; rfl)⟩

/-- Settles O53: the forms of an answer to the access on the bus and of a late one, and the end of an access in
FAULTED. -/
theorem faultedPartAndUnansweredAccess : Obligations.FaultedPartAndUnansweredAccess := by
  refine ⟨fun c q => ⟨fun a onBus => ?_, fun free => ⟨exec_answerLimitExpiry_late c q free, fun p result =>
    exec_answerTo_late p result q free⟩⟩, fun c q a settled onBus faulted => ⟨fun b length => ?_, ?_⟩⟩
  · rw [exec_answerLimitExpiry c q a onBus, exec_answerTo_error c q a onBus]
  · obtain ⟨data, next⟩ := exec_answerTo_data c q a b onBus length
    have ended := accessEnds_faulted (handlerOf a.purpose) a (some data) c faulted
    rw [Option.isSome_some, if_pos rfl, concludeStep_of_notAsked (freeBus c) settled.1] at ended
    exact ⟨_, next, by rw [ended]; rfl, by simp [ended], by simp [ended], by simp [ended]⟩
  · have next := exec_answerTo_error c q a onBus
    have ended := accessEnds_faulted (handlerOf a.purpose) a none c faulted
    have port := recordFaultNow_freeBus_mpt (faultSourceOf a.purpose) .bus a.addr c
    rw [Option.isSome_none, if_neg Bool.false_ne_true,
      concludeStep_of_notAsked (recordFaultNow _ _ _ (freeBus c)) settled.1] at ended
    exact ⟨_, next, by rw [ended]; rfl, by simp [ended, port], by simp [ended, port], by simp [ended]⟩

end Sys2Proof.Machine
end

section
/-! SUPPORT. Sound fault records (R168, R172) through the scan engine, the settlement of ticks and the links: every
operation of these that can record a fault, in the order of the definitions. An operation whose frame keeps the records
needs no lemma of its own: `Mpt.faultsSound.keeps` reads it off the frame. -/

namespace Sys2Proof.Machine

/-! ## The faults that are recorded (R170, R171, R173) -/

theorem recordFault_faultsSound (src : FaultSource) (kind : FaultKind) (addr : Nat) {c : Chip} (h : c.mpt.faultsSound)
    (read : kind ≠ .windowWrite) : (recordFault src kind addr c).mpt.faultsSound := by
  rw [recordFault_mpt]
  exact Mpt.record_faultsSound src kind addr c.lki.horizon h read

theorem recordFaultNow_faultsSound (src : FaultSource) (kind : FaultKind) (addr : Nat) {c : Chip}
    (h : c.mpt.faultsSound) (read : kind ≠ .windowWrite) : (recordFaultNow src kind addr c).mpt.faultsSound :=
  Mpt.record_faultsSound src kind addr c.lki.horizon h read

/-! ## Reads that can fail their window check (R110, R114, R168) -/

theorem missRow_faultsSound (g : GridDef) (grid node : Nat) {c : Chip} (h : c.mpt.faultsSound) :
    (missRow g grid node c).1.mpt.faultsSound := by
  unfold missRow
  dsimp only
  split
  · exact h.keeps (by simp)
  · exact recordFault_faultsSound _ _ _ (h.keeps (by simp)) nofun

theorem requestRow_faultsSound (grid node : Nat) {c : Chip} (h : c.mpt.faultsSound) :
    (requestRow grid node c).1.mpt.faultsSound := by
  unfold requestRow
  split
  · exact h
  · split
    · exact h
    · split
      · exact h
      · exact missRow_faultsSound _ grid node h

theorem requestRefine_faultsSound (grid node : Nat) {c : Chip} (h : c.mpt.faultsSound) :
    (requestRefine grid node c).1.mpt.faultsSound := by
  unfold requestRefine
  split
  · exact h
  · split
    · exact h
    · dsimp only
      split
      · exact h.keeps (by simp)
      · exact recordFault_faultsSound _ _ _ h nofun

/-! ## The actions of the scan engine (R83 to R102) -/

theorem requestScanRow_faultsSound (bank grid node : Nat) (phase : ScanPhase) (next : List (BitVec 16) → EngineTask)
    {c : Chip} (h : c.mpt.faultsSound) : (requestScanRow bank grid node phase next c).1.mpt.faultsSound := by
  have asked := requestRow_faultsSound grid node (c := onScan bank (fun sc =>
    { sc.widenRange grid node with phase := phase }) c) h
  unfold requestScanRow
  dsimp only
  split
  all_goals
    rename_i reply
    rw [reply] at asked
    exact asked

theorem requestScanRefine_faultsSound (bank : Nat) (p : Peak) {c : Chip} (h : c.mpt.faultsSound) :
    (requestScanRefine bank p c).1.mpt.faultsSound := by
  have asked := requestRefine_faultsSound p.grid p.node
    (c := onScan bank (fun s => { s with phase := .refineEntry }) c) h
  unfold requestScanRefine
  split
  all_goals
    rename_i reply
    rw [reply] at asked
    exact asked

theorem stage1End_faultsSound (bank : Nat) (sc : Scan) {c : Chip} (h : c.mpt.faultsSound) :
    (stage1End bank sc c).1.mpt.faultsSound := by
  unfold stage1End
  split
  · exact h
  · dsimp only
    split
    · exact h
    · split
      · exact requestScanRefine_faultsSound bank _ h
      · exact h

theorem stageEndAction_faultsSound (bank : Nat) (sc : Scan) {c : Chip} (h : c.mpt.faultsSound) :
    (stageEndAction bank sc c).1.mpt.faultsSound := by
  unfold stageEndAction
  split
  · exact stage1End_faultsSound bank sc h
  · exact h.keeps (by simp)

/-- An action of the RUNNING scan asks for a row or a refine entry, or keeps the fault records. -/
theorem scanAction_faultsSound (task : EngineTask) (bank : Nat) (sc : Scan) {c : Chip} (h : c.mpt.faultsSound) :
    (scanAction task bank sc c).1.mpt.faultsSound := by
  cases task with
  | select => exact h
  | node => exact requestScanRow_faultsSound _ _ _ _ _ h
  | rowIn row => exact h.keeps (n := (rowAction bank sc row c).1.mpt) (by simp)
  | nodeEnd => exact h
  | boundary => exact h.keeps (n := (boundaryAction bank sc c).1.mpt) (by simp)
  | stageEnd => exact stageEndAction_faultsSound bank sc h
  | refined e => exact h.keeps (n := (refinedAction bank sc e c).1.mpt) (by simp)
  | arrival o =>
    simp only [scanAction, arrivalAction]
    split
    · exact h
    · exact requestScanRow_faultsSound _ _ _ _ _ h
  | listRow o row => exact h.keeps (n := (listAction bank sc o row 0 [] c).1.mpt) (by simp)
  | conclude o arrivals => exact h.keeps (n := (concludeAction bank sc o arrivals c).1.mpt) (by simp)

theorem engineAction_faultsSound (task : EngineTask) (c : Chip) (h : c.mpt.faultsSound) :
    (engineAction task c).1.mpt.faultsSound := by
  unfold engineAction
  split
  · exact h.keeps (by simp)
  · split
    · exact scanAction_faultsSound task _ _ h
    · exact h

theorem engine_faultsSound (task : EngineTask) {c : Chip} (h : c.mpt.faultsSound) : (engine task c).mpt.faultsSound :=
  engine_induct (fun d => d.mpt.faultsSound) engineAction_faultsSound task c h

theorem offerRipe_faultsSound {c : Chip} (h : c.mpt.faultsSound) : (offerRipe c).mpt.faultsSound := by
  unfold offerRipe
  split
  · exact engine_faultsSound _ h
  · exact h

theorem selectIfIdle_faultsSound {c : Chip} (h : c.mpt.faultsSound) : (selectIfIdle c).mpt.faultsSound := by
  unfold selectIfIdle
  split
  · exact h
  · exact engine_faultsSound _ h

/-! ## The answers the engine waits for (R96, R115) -/

theorem rowArrived_faultsSound (row : List (BitVec 16)) {c : Chip} (h : c.mpt.faultsSound) :
    (rowArrived row c).mpt.faultsSound := by
  unfold rowArrived
  split
  · split
    case h_1 | h_2 => exact engine_faultsSound _ h
    all_goals exact h
  · exact h

theorem rowFetchAnswered_faultsSound (a : Access) (r : Option (List Byte)) {c : Chip} (h : c.mpt.faultsSound) :
    (rowFetchAnswered a r c).mpt.faultsSound := by
  cases r with
  | some b => exact rowArrived_faultsSound _ h
  | none => exact rowArrived_faultsSound _ (h.keeps (by simp))

theorem refineAnswered_faultsSound (a : Access) (r : Option (List Byte)) {c : Chip} (h : c.mpt.faultsSound) :
    (refineAnswered a r c).mpt.faultsSound := by
  unfold refineAnswered
  split
  · split
    · exact engine_faultsSound _ h
    · exact h
  · exact h

/-! ## Declarations (R64 to R72) -/

theorem declare_faultsSound (s : Settings) (t v level : Nat) {c : Chip} (h : c.mpt.faultsSound) :
    (declare s t v level c).mpt.faultsSound := by
  unfold declare
  exact offerRipe_faultsSound (h.keeps (by simp))

theorem declareCrossing_faultsSound (s : Settings) (t v level : Nat) {c : Chip} (h : c.mpt.faultsSound) :
    (declareCrossing s t v level c).mpt.faultsSound := by
  unfold declareCrossing
  split
  · exact declare_faultsSound s t v level h
  · unfold declareFull
    split
    · exact declare_faultsSound s t v level (h.keeps (by simp))
    · exact h.keeps (by simp)

theorem crossing_faultsSound (s : Settings) (t v : Nat) {c : Chip} (h : c.mpt.faultsSound) :
    (crossing s t v c).mpt.faultsSound := by
  unfold crossing
  split
  · split
    · exact h.keeps (by simp)
    · exact declareCrossing_faultsSound _ _ _ _ h
  · exact declareCrossing_faultsSound _ _ _ _ h

theorem takeTickNotice_faultsSound (n : TickNotice) {c : Chip} (h : c.mpt.faultsSound) :
    (takeTickNotice n c).mpt.faultsSound := by
  unfold takeTickNotice
  split
  case h_1 => exact h
  case h_2 s _ =>
    have crossed := crossing_faultsSound s n.tick (voteCount n.tick s.window c.chc.channels) h
    dsimp only
    split
    · exact crossed.keeps (by simp)
    · exact h

/-! ## Settlement and the links (R28 to R38) -/

theorem settleTick_faultsSound (t : Nat) {c : Chip} (h : c.mpt.faultsSound) : (settleTick t c).mpt.faultsSound := by
  have conditioned : (conditionTick t (tickSamples t c) c).mpt.faultsSound := h.keeps (by simp)
  have noticed : (handTickNotice t (conditionTick t (tickSamples t c) c)).mpt.faultsSound :=
    takeTickNotice_faultsSound _ conditioned
  unfold settleTick
  exact noticed.keeps (by simp)

theorem settleTicks_faultsSound (t n : Nat) {c : Chip} (h : c.mpt.faultsSound) :
    (settleTicks t n c).mpt.faultsSound := by
  induction n generalizing t c with
  | zero => exact h
  | succ n ih => exact ih _ (settleTick_faultsSound t h)

theorem settle_faultsSound (h0 h1 : Nat) {c : Chip} (h : c.mpt.faultsSound) : (settle h0 h1 c).mpt.faultsSound := by
  unfold settle
  exact offerRipe_faultsSound ((settleTicks_faultsSound h0 (h1 - h0) h).keeps (by simp))

theorem updateHorizon_faultsSound {c : Chip} (h : c.mpt.faultsSound) : (updateHorizon c).mpt.faultsSound := by
  unfold updateHorizon
  split
  · split
    · exact settle_faultsSound _ _ h
    · exact h
  all_goals exact h

theorem fallBackHub_faultsSound (n : Nat) {c : Chip} (h : c.mpt.faultsSound) : (fallBackHub n c).mpt.faultsSound :=
  updateHorizon_faultsSound (h.keeps (by simp))

theorem stallCheck_faultsSound {c : Chip} (h : c.mpt.faultsSound) : (stallCheck c).mpt.faultsSound :=
  updateHorizon_faultsSound (h.keeps (by simp))

theorem linkEvent_faultsSound (f : Chip → Chip) {c : Chip} (h : (f c).mpt.faultsSound) :
    (linkEvent f c).mpt.faultsSound := h.keeps (by simp)

theorem takeGoodFrame_faultsSound (port : Nat) (b : List Byte) {c : Chip} (h : c.mpt.faultsSound) :
    (takeGoodFrame port b c).mpt.faultsSound := by
  unfold takeGoodFrame
  dsimp only
  split
  · exact stallCheck_faultsSound (h.keeps (by simp))
  · exact h.keeps (by simp)

theorem takeFrame_faultsSound (port : Nat) (b : List Byte) {c : Chip} (h : c.mpt.faultsSound) :
    (takeFrame port b c).mpt.faultsSound := by
  have due : (fallBackIfDue port c).mpt.faultsSound := by
    unfold fallBackIfDue
    split
    · exact fallBackHub_faultsSound port h
    · exact h
  unfold takeFrame
  dsimp only
  split
  case h_1 => exact takeGoodFrame_faultsSound port b due
  all_goals exact due.keeps (by simp)

theorem burstEnds_faultsSound (port : Nat) (line : List Bool) {c : Chip} (h : c.mpt.faultsSound) :
    (burstEnds port line c).mpt.faultsSound := by
  unfold burstEnds
  split
  · exact h
  · split
    · exact linkEvent_faultsSound _ (takeFrame_faultsSound port _ h)
    · exact h

theorem badLimitEvent_faultsSound (n : Nat) {c : Chip} (h : c.mpt.faultsSound) :
    (badLimitEvent n c).mpt.faultsSound := by
  unfold badLimitEvent
  split
  · exact linkEvent_faultsSound _ (fallBackHub_faultsSound n h)
  · exact h

theorem silenceEvent_faultsSound (n : Nat) {c : Chip} (h : c.mpt.faultsSound) : (silenceEvent n c).mpt.faultsSound := by
  unfold silenceEvent
  split
  · exact linkEvent_faultsSound _ (fallBackHub_faultsSound n h)
  · exact h

end Sys2Proof.Machine
end

section
/-! SUPPORT. Sound fault records (R168, R172, R174) through the reloads, the orders and the effects of the commands. -/

namespace Sys2Proof.Machine

/-! ## The reloads that move H (R37, R123) -/

theorem hubsAnswered_faultsSound (a : Access) (r : Option (List Byte)) {c : Chip} (h : c.mpt.faultsSound) :
    (hubsAnswered a r c).mpt.faultsSound := by
  have noted : (noteReloadRead r c).mpt.faultsSound := h.keeps (by simp)
  have adopted (new : List (Option HubEntry)) :
      (linkEvent (adoptHubs new) (noteReloadRead r c)).mpt.faultsSound :=
    linkEvent_faultsSound _ (updateHorizon_faultsSound (noted.keeps (by simp)))
  unfold hubsAnswered performHubs
  dsimp only
  split
  case h_1 reload _ => exact (adopted (reloadedHubs reload.got (noteReloadRead r c).tcu.hubEntries)).keeps (by simp)
  case h_2 => exact noted

theorem configAnswered_faultsSound (a : Access) (r : Option (List Byte)) {c : Chip} (h : c.mpt.faultsSound) :
    (configAnswered a r c).mpt.faultsSound := by
  have applied : (applyConfig r c).1.mpt.faultsSound := by
    unfold applyConfig
    split
    · exact h
    · split
      · exact linkEvent_faultsSound _ (stallCheck_faultsSound (h.keeps (by simp)))
      · exact h
  unfold configAnswered
  split
  · exact applied.keeps (by simp)
  · exact h

/-! ## The orders (R132 to R142) -/

theorem dispatchScan_faultsSound (slot : Nat) (seq : BitVec 8) (o : ScanOrder) {c : Chip} (h : c.mpt.faultsSound) :
    (dispatchScan slot seq o c).mpt.faultsSound := by
  have taken : (takeScanOrder slot seq o c).1.mpt.faultsSound := h.keeps (by simp)
  unfold dispatchScan
  split
  · exact h.keeps (by simp)
  · split
    all_goals
      rename_i answer
      rw [answer] at taken
    · exact offerRipe_faultsSound (taken.keeps (by simp))
    · exact taken.keeps (by simp)

theorem dispatchCancel_faultsSound (slot : Nat) (seq : BitVec 8) (number : Nat) {c : Chip} (h : c.mpt.faultsSound) :
    (dispatchCancel slot seq number c).mpt.faultsSound := by
  unfold dispatchCancel cancelRequest
  split
  · exact h.keeps (by simp)
  · split
    · exact h.keeps (by simp)
    · split
      · unfold cancelInService
        split
        · exact h.keeps (by simp)
        · exact selectIfIdle_faultsSound (h.keeps (by simp))
      · exact h.keeps (by simp)

theorem dispatchFaultClear_faultsSound (slot : Nat) (seq : BitVec 8) (index : Nat) {c : Chip}
    (h : c.mpt.faultsSound) : (dispatchFaultClear slot seq index c).mpt.faultsSound := by
  unfold dispatchFaultClear
  split
  · exact (Mpt.clearFaults_faultsSound index h).keeps (by simp)
  · exact h.keeps (by simp)

theorem dispatchOrder_faultsSound (slot : Nat) (b : List Byte) {c : Chip} (h : c.mpt.faultsSound) :
    (dispatchOrder slot b c).mpt.faultsSound := by
  unfold dispatchOrder
  dsimp only
  split
  · exact dispatchScan_faultsSound _ _ _ h
  · split
    · exact h.keeps (by simp)
    · split
      · exact dispatchCancel_faultsSound _ _ _ h
      · split
        · exact h.keeps (by simp)
        · split
          · exact dispatchFaultClear_faultsSound _ _ _ h
          · exact h.keeps (by simp)

theorem takeSlot_faultsSound (slot : Nat) (b : List Byte) (others : List (Nat × List Byte)) {c : Chip}
    (h : c.mpt.faultsSound) : (takeSlot slot b others c).mpt.faultsSound := by
  have answered : (writeDuplicates others c).mpt.faultsSound := h.keeps (by simp)
  have judged : (judgeSlot slot b (writeDuplicates others c)).mpt.faultsSound := by
    unfold judgeSlot
    split
    · exact dispatchOrder_faultsSound slot b answered
    · exact answered.keeps (by simp)
  exact judged

theorem takeRun_faultsSound (n : Nat) (slots : List (Option (List Byte))) {c : Chip} (h : c.mpt.faultsSound) :
    (takeRun n slots c).mpt.faultsSound := by
  induction n generalizing c with
  | zero => exact h
  | succ n ih =>
    unfold takeRun
    split
    case h_1 => exact h
    case h_2 slot b others _ =>
      have taken := takeSlot_faultsSound slot b others h
      dsimp only
      split
      · exact taken
      · exact ih taken

theorem slotReadAnswered_faultsSound (a : Access) (r : Option (List Byte)) {c : Chip} (h : c.mpt.faultsSound) :
    (slotReadAnswered a r c).mpt.faultsSound := by
  unfold slotReadAnswered
  split
  case h_1 => exact h
  case h_2 got _ =>
    dsimp only
    split
    · exact h
    · unfold runPoll
      have begun : ((c.onOrd fun o => { o with poll := some (got ++ [r]) }).onOrd fun o =>
          { o with takeRun := some [] }).mpt.faultsSound := h
      exact (takeRun_faultsSound slotCount (got ++ [r]) begun).keeps (by simp)

/-! ## The end of an access (R170, R171, R175) -/

/-- Each block's handling of an answer keeps the fault records sound. -/
theorem handlerOf_faultsSound (p : Purpose) (a : Access) (r : Option (List Byte)) {c : Chip} (h : c.mpt.faultsSound) :
    (handlerOf p a r c).mpt.faultsSound := by
  cases p with
  | row => exact rowFetchAnswered_faultsSound a r h
  | refine => exact refineAnswered_faultsSound a r h
  | reloadHub _ last =>
    cases last with
    | true => exact hubsAnswered_faultsSound a r h
    | false => exact h.keeps (n := (reloadReadAnswered a r c).mpt) (by simp)
  | reloadConfig => exact configAnswered_faultsSound a r h
  | slotRead => exact slotReadAnswered_faultsSound a r h
  | reloadGrid _ last | reloadStation _ last => cases last <;> exact h.keeps (by simp [handlerOf])
  | _ => exact h.keeps (by simp [handlerOf])

theorem enterFaulted_faultsSound (hs : HaltSource) {c : Chip} (h : c.mpt.faultsSound) :
    (enterFaulted hs c).mpt.faultsSound := h.keeps (by simp)

/-- A failed access is recorded with kind BUS. -/
theorem accessEnds_faultsSound (p : Purpose) (a : Access) (r : Option (List Byte)) {c : Chip}
    (h : c.mpt.faultsSound) : (accessEnds (handlerOf p) a r c).mpt.faultsSound := by
  have freed : (freeBus c).mpt.faultsSound := h
  have ended : (accessResult (handlerOf p) a r (freeBus c)).mpt.faultsSound := by
    unfold accessResult
    split
    · split
      · exact freed
      · exact handlerOf_faultsSound p a _ freed
    · split
      · exact recordFaultNow_faultsSound _ _ _ freed nofun
      · unfold accessFails
        split
        · exact enterFaulted_faultsSound _ (recordFaultNow_faultsSound _ _ _ freed nofun)
        · exact handlerOf_faultsSound p a none (recordFault_faultsSound _ _ _ freed nofun)
  exact ended.keeps (by simp [accessEnds])

/-! ## The effects of the commands -/

/-- A reset release frees the fault records (R176). -/
theorem releaseReset_faultsSound (auto : Bool) (dirsel : BitVec 2) (c : Chip) :
    (releaseReset auto dirsel c).mpt.faultsSound := by cases auto <;> exact faultsSound_of_free rfl

/-- The event of every command keeps the fault records sound: the resets and BIND free them. -/
theorem eventEffect_faultsSound (i : Instr) {c : Chip} (h : c.mpt.faultsSound) :
    (eventEffect i c).mpt.faultsSound := by
  have written (f : Chip → Chip) (effect : (f c).mpt.faultsSound) :
      (if c.rgp.resetHeld then c else f c).mpt.faultsSound := by split <;> assumption
  have control (code : BitVec 8) (valid : Chip → Bool) (effect : Chip → Chip)
      (keeps : ∀ d : Chip, d.mpt.faultsSound → (effect d).mpt.faultsSound) :
      (controlCommand code valid effect c).mpt.faultsSound := by
    unfold controlCommand
    split
    · exact keeps _ h
    · exact h
  cases i with
  | powerOnReset auto dirsel => exact releaseReset_faultsSound auto dirsel c
  | reset auto dirsel => exact written _ (releaseReset_faultsSound auto dirsel c)
  | bind => exact written _ (control _ _ _ fun _ _ => faultsSound_of_free rfl)
  | listen => exact written _ (control _ _ _ fun _ hd => hd.keeps (by simp))
  | stop => exact written _ (control _ _ _ fun _ hd => hd.keeps (by simp))
  | nudge => exact written _ (control _ _ _ fun _ hd => hd.keeps (by simp))
  | refusedCode | causeWrite | maskWrite => exact written _ h
  | dirbaseWrite hi value => exact written (writeDirbase hi value) (h.keeps (by simp))
  | hubFrameArrival port line => exact burstEnds_faultsSound port.val line h
  | badFrameLimit hub => exact badLimitEvent_faultsSound hub.val h
  | silenceTimerExpiry hub => exact silenceEvent_faultsSound hub.val h
  | cfReadAnswer =>
    exact engineOn_induct (fun d => d.mpt.faultsSound) engineAction_faultsSound _ (h.keeps (by simp))
  | pollTimerExpiry => exact h.keeps (n := (pollTimerEvent c).mpt) (by simp)
  | noticeCountReached stream => exact h.keeps (n := (takeNotice stream c).mpt) (by simp)
  | powerOnResetHold => exact faultsSound_of_free rfl
  | _ => exact h

/-- Every command that answers a next state keeps the fault records sound. -/
theorem exec_faultsSound (i : Instr) {c d : Chip} {q r : List Instr} (h : c.mpt.faultsSound)
    (next : exec i ⟨c, q⟩ = .next ⟨d, r⟩) : d.mpt.faultsSound := by
  have form : CommandForm i c q (.next ⟨d, r⟩) := next ▸ exec_form i c q
  cases form with
  | ignored => exact h
  | event => exact (eventEffect_faultsSound i h).keeps (by simp)
  | answered a r _ => exact accessEnds_faultsSound _ a r h

end Sys2Proof.Machine
end

section
/-! PROOFS. The statement that a step keeps the fault records sound (R168, R172, R174, R176). -/

namespace Sys2Proof.Machine

/-- Settles O55: a fault recorded, with kind WINDOW-READ or BUS, a FAULT-CLEAR, a reset and a BIND each leave the
records sound, and nothing else changes them. -/
theorem stepKeepsTheFaultRecordsSound : Obligations.StepKeepsTheFaultRecordsSound := by
  rintro ⟨c, pending⟩ ⟨d, rest⟩ sound next
  cases pending with
  | nil =>
    cases next
    exact sound
  | cons i q => exact exec_faultsSound i sound next

end Sys2Proof.Machine
end

section
/-! PROOFS. The statement that a step runs the command at the front of the queue, one lemma for each form of the queue. -/

namespace Sys2Proof.Machine

/-- A step takes the front command off the queue before it runs it. -/
theorem step_cons (i : Instr) (rest : List Instr) (c : Chip) : step ⟨c, i :: rest⟩ = exec i ⟨c, rest⟩ := rfl

/-- An idle block is a model choice (log entry 3): an empty queue is no stop. -/
theorem step_nil (c : Chip) : step ⟨c, []⟩ = .next ⟨c, []⟩ := rfl

/-- Settles O1, by the two forms of the queue. -/
theorem stepRunsFrontCommand : Obligations.StepRunsFrontCommand :=
  ⟨step_cons, step_nil⟩

end Sys2Proof.Machine
end

section
/-! SUPPORT. Conditioning of one channel (R44 to R54): how far an average moves, what each judgement of a trigger
leaves, and the CF history. -/

namespace Sys2Proof.Machine

/-! ## The averages (R44 to R46) -/

/-- A floor quotient by a power of 2 lies between 0 and the dividend. -/
theorem ediv_two_pow_between (d : Int) (shift : Nat) : min 0 d ≤ d / 2 ^ shift ∧ d / 2 ^ shift ≤ max 0 d := by
  have pos : (0 : Int) < 2 ^ shift := by positivity
  constructor
  · rw [Int.le_ediv_iff_mul_le pos]
    rcases le_total 0 d with h | h
    · simp [h]
    · rw [min_eq_right h]
      nlinarith
  · rcases le_total 0 d with h | h
    · exact le_max_of_le_right (Int.ediv_le_self _ h)
    · exact le_max_of_le_left (Int.ediv_nonpos_of_nonpos_of_neg h pos)

/-- An average moves by the floor quotient of its distance to the input; the natural number loses nothing. -/
theorem stepAverage_eq (avg input shift : Nat) :
    (stepAverage avg input shift : Int) = avg + ((input : Int) - avg) / 2 ^ shift := by
  have low := (ediv_two_pow_between ((input : Int) - avg) shift).1
  rw [stepAverage, Int.toNat_of_nonneg (by push_cast; omega)]
  push_cast
  rfl

/-- An average never passes its input. -/
theorem stepAverage_between (avg input shift : Nat) :
    min avg input ≤ stepAverage avg input shift ∧ stepAverage avg input shift ≤ max avg input := by
  have moved := stepAverage_eq avg input shift
  obtain ⟨low, high⟩ := ediv_two_pow_between ((input : Int) - avg) shift
  omega

/-- An average stays at or below a bound of itself and its input. -/
theorem stepAverage_le {avg input bound : Nat} (shift : Nat) (h : avg ≤ bound) (input_le : input ≤ bound) :
    stepAverage avg input shift ≤ bound := (stepAverage_between avg input shift).2.trans (max_le h input_le)

/-- An average at its input stays there. -/
theorem stepAverage_self (avg shift : Nat) : stepAverage avg avg shift = avg := by
  have between := stepAverage_between avg avg shift
  omega

/-- The input to the averages is 16 times a clipped magnitude. -/
theorem inputLevel_le (d : Int) : inputLevel d ≤ averageMax := by
  simp only [inputLevel, clipLimit, averageMax]
  omega

/-- The difference of two samples of 24 bits. -/
theorem sampleDiff_between (prev : Option (BitVec 24)) (x : BitVec 24) :
    -16777215 ≤ sampleDiff prev x ∧ sampleDiff prev x ≤ 16777215 := by
  have hx := And.intro (BitVec.le_toInt x) (BitVec.toInt_lt (x := x))
  cases prev with
  | none => simp [sampleDiff]
  | some p =>
    have hp := And.intro (BitVec.le_toInt p) (BitVec.toInt_lt (x := p))
    simp only [sampleDiff]
    omega

end Sys2Proof.Machine
end

section
/-! PROOFS. The statement about the averages (R44 to R46). -/

namespace Sys2Proof.Machine

/-- Settles O24: S and L move by `stepAverage`, which never passes the input. -/
theorem averagesMoveTowardTheInput : Obligations.AveragesMoveTowardTheInput := by
  intro x p ch d a after
  have diff : d = sampleDiff ch.xPrev x := rfl
  have input : a = inputLevel d := by simp [a, inputLevel, clipLimit]
  obtain ⟨low, high⟩ := sampleDiff_between ch.xPrev x
  have level := inputLevel_le d
  have sta : after.sta = stepAverage ch.sta (inputLevel d) p.ks := by rw [diff]; rfl
  have lta : after.lta = if ch.trigger = .on then ch.lta else stepAverage ch.lta (inputLevel d) p.kl := by
    rw [diff]; rfl
  have staBetween := stepAverage_between ch.sta (inputLevel d) p.ks
  have ltaBetween := stepAverage_between ch.lta (inputLevel d) p.kl
  have bounds : after.xPrev = some x ∧ -16777215 ≤ d ∧ d ≤ 16777215 ∧ 0 ≤ a ∧ a ≤ 16777200 := by
    rw [input, diff] at *
    exact ⟨rfl, low, high, Int.natCast_nonneg _, by exact_mod_cast level⟩
  obtain ⟨prev, low, high, pos, top⟩ := bounds
  rw [input] at *
  refine ⟨prev, low, high, pos, top, ?_, ?_, ?_, ?_, ?_, ?_, fun at_input => ?_, fun at_input => ?_, rfl, rfl, rfl⟩
  · rw [sta, stepAverage_eq]
  · rw [lta]
    split
    · rfl
    · rw [stepAverage_eq]
  · rw [sta]; omega
  · rw [sta]; omega
  · rw [lta]; split <;> omega
  · rw [lta]; split <;> omega
  · rw [sta]; omega
  · rw [lta]; split <;> omega

end Sys2Proof.Machine
end

section
/-! SUPPORT. Conditioning of one channel (R43, R50 to R56): what each judgement of a trigger keeps, and a sound channel
stays sound. -/

namespace Sys2Proof.Machine

/-! ## What a judgement keeps (R51 to R53) -/

/-- The fields of a channel that no judgement of its trigger changes. -/
abbrev Kept.byJudge (a b : Channel) : Prop :=
  b.xPrev = a.xPrev ∧ b.sta = a.sta ∧ b.lta = a.lta ∧ b.warm = a.warm ∧ b.params = a.params ∧ b.invalid = a.invalid ∧
    b.history = a.history

@[simp] theorem endTrigger_frame (target : Trigger) (ch : Channel) :
    Kept.byJudge ch (ch.endTrigger target) ∧ (ch.endTrigger target).lastOn = ch.lastOn := by
  and_intros <;> rfl

@[simp] theorem goOn_frame (t cf : Nat) (ch : Channel) : Kept.byJudge ch (ch.goOn t cf) := by
  and_intros <;> rfl

@[simp] theorem raisePeak_frame (t cf : Nat) (ch : Channel) :
    Kept.byJudge ch (ch.raisePeak t cf) ∧ (ch.raisePeak t cf).trigger = ch.trigger ∧
      (ch.raisePeak t cf).onTick = ch.onTick ∧ (ch.raisePeak t cf).lastOn = ch.lastOn := by
  unfold Channel.raisePeak
  split <;> (and_intros <;> rfl)

/-- What a judgement does to the channel: nothing, ON, the peak, or the end of the trigger, with the peak raised or
not. -/
theorem judgeTrigger_cases (number t cf : Nat) (p : StationParams) (ch : Channel) :
    (judgeTrigger number t cf p ch).1 = ch ∨ (judgeTrigger number t cf p ch).1 = ch.goOn t cf ∨
      (ch.trigger = .on ∧ (judgeTrigger number t cf p ch).1 = ch.raisePeak t cf) ∨
      ∃ target, target ≠ .on ∧ ((judgeTrigger number t cf p ch).1 = ch.endTrigger target ∨
        (judgeTrigger number t cf p ch).1 = (ch.raisePeak t cf).endTrigger target) := by
  unfold judgeTrigger
  split
  · unfold judgeOff
    split <;> simp
  case h_2 on =>
    unfold judgeOn
    split
    · exact .inr (.inr (.inr ⟨.off, nofun, .inl rfl⟩))
    · split
      · exact .inr (.inr (.inr ⟨.blocked, nofun, .inr rfl⟩))
      · exact .inr (.inr (.inl ⟨on, rfl⟩))
  · unfold judgeBlocked
    split
    · exact .inr (.inr (.inr ⟨.off, nofun, .inl rfl⟩))
    · exact .inl rfl

@[simp] theorem judgeTrigger_frame (number t cf : Nat) (p : StationParams) (ch : Channel) :
    Kept.byJudge ch (judgeTrigger number t cf p ch).1 := by
  obtain same | on | ⟨-, raised⟩ | ⟨target, -, ended | ended⟩ := judgeTrigger_cases number t cf p ch
  · rw [same]; and_intros <;> rfl
  · rw [on]; exact goOn_frame t cf ch
  · rw [raised]; exact (raisePeak_frame t cf ch).1
  · rw [ended]; exact (endTrigger_frame target ch).1
  · rw [ended]; and_intros <;> simp

/-- An absent sample leaves the channel as it is, or ends its ON trigger. -/
theorem judgeAbsent_cases (number t : Nat) (ch : Channel) :
    (ch.trigger ≠ .on ∧ judgeAbsent number t ch = (ch, none)) ∨
      (ch.trigger = .on ∧ judgeAbsent number t ch = (ch.endTrigger .off, some (endPick number t .cut ch))) := by
  cases trigger : ch.trigger <;> simp [judgeAbsent, trigger]

@[simp] theorem judgeAbsent_frame (number t : Nat) (ch : Channel) :
    Kept.byJudge ch (judgeAbsent number t ch).1 ∧ (judgeAbsent number t ch).1.lastOn = ch.lastOn := by
  obtain ⟨-, same⟩ | ⟨-, ended⟩ := judgeAbsent_cases number t ch
  · rw [same]; and_intros <;> rfl
  · rw [ended]; exact endTrigger_frame .off ch

/-! ## The two ways of conditioning (R43, R50) -/

/-- The channel of a present sample, before its trigger is judged. -/
def Channel.heard (t : Nat) (x : BitVec 24) (p : StationParams) (ch : Channel) : Channel :=
  (ch.takeSample x p).recordCf t (BitVec.ofNat 8 (ratioCf (ch.takeSample x p).sta (ch.takeSample x p).lta p.floor))

/-- A present sample of an enabled channel is judged with its CF. -/
theorem condition_present (number t : Nat) (x : BitVec 24) {p : StationParams} {ch : Channel}
    (enabled : ch.params = some p) :
    condition number t (some x) ch =
      judgeTrigger number t (ratioCf (ch.heard t x p).sta (ch.heard t x p).lta p.floor) p (ch.heard t x p) := by
  simp only [condition, enabled]
  rfl

/-- An absent sample. -/
theorem condition_absent (number t : Nat) (ch : Channel) :
    condition number t none ch = judgeAbsent number t (ch.takeAbsent.recordCf t absentCf) := rfl

/-- A channel that is not enabled takes every sample as absent. -/
theorem condition_disabled (number t : Nat) (x : Option (BitVec 24)) {ch : Channel} (disabled : ch.params = none) :
    condition number t x ch = condition number t none ch := by
  cases x <;> simp [condition, disabled]

/-- A sample is conditioned as present, of an enabled channel, or as absent. -/
theorem condition_cases (number t : Nat) (x : Option (BitVec 24)) (ch : Channel) :
    (∃ y p, x = some y ∧ ch.params = some p) ∨ condition number t x ch = condition number t none ch := by
  cases x with
  | none => exact .inr rfl
  | some y =>
    cases enabled : ch.params with
    | none => exact .inr (condition_disabled number t _ enabled)
    | some p => exact .inl ⟨y, p, rfl, rfl⟩

theorem ratioCf_le (sta lta floor : Nat) : ratioCf sta lta floor ≤ 254 := min_le_left _ _

/-! ## The CF history (R56) -/

/-- A write adds no key but the place written. -/
theorem cellWrite_keys {α : Type} [DecidableEq α] (d : α) (m : List (Nat × α)) (i bound : Nat) (v : α) (h : i < bound)
    (keys : ∀ cell ∈ m, cell.1 < bound) : ∀ cell ∈ cellWrite d m i v, cell.1 < bound := by
  induction m with
  | nil => unfold cellWrite; split <;> simp [h]
  | cons e m ih =>
    obtain ⟨hd, tl⟩ := List.forall_mem_cons.mp keys
    unfold cellWrite
    split
    · split
      · exact keys
      · exact List.forall_mem_cons.mpr ⟨h, keys⟩
    · split
      · split
        · exact tl
        · exact List.forall_mem_cons.mpr ⟨h, tl⟩
      · exact List.forall_mem_cons.mpr ⟨hd, ih tl⟩

/-- A CF history that is written stays canonical and over its cells. -/
theorem recordCf_historySound (t : Nat) (cf : BitVec 8) {ch : Channel} (sound : ch.historySound = true) :
    (ch.recordCf t cf).historySound = true := by
  simp only [Channel.historySound, Bool.and_eq_true] at sound ⊢
  obtain ⟨canonical, cells⟩ := sound
  refine ⟨cellWrite_wf _ _ _ _ canonical, ?_⟩
  simp only [List.all_eq_true, decide_eq_true_eq] at cells ⊢
  exact cellWrite_keys _ _ _ _ _ (Nat.mod_lt _ (by decide)) cells

/-! ## Sound channels (R40, R49, R54, R56) -/

/-- A channel whose trigger values, averages and history are sound. -/
structure Channel.Sound (ch : Channel) : Prop where
  trigger : ch.triggerSound = true
  averages : ch.averagesSound = true
  history : ch.historySound = true

/-- A trigger that is not ON and holds no values. -/
theorem Channel.triggerSound_of_idle {ch : Channel} (idle : ch.trigger ≠ .on) (on : ch.onTick = none)
    (peak : ch.peakCf = none) (peakAt : ch.peakTick = none) : ch.triggerSound = true := by
  simp [Channel.triggerSound, idle, on, peak, peakAt]

theorem endTrigger_triggerSound {target : Trigger} (ch : Channel) (idle : target ≠ .on) :
    (ch.endTrigger target).triggerSound = true := Channel.triggerSound_of_idle idle rfl rfl rfl

theorem goOn_triggerSound (t : Nat) {cf : Nat} (ch : Channel) (h : cf ≤ 254) : (ch.goOn t cf).triggerSound = true := by
  simp [Channel.triggerSound, Channel.goOn, h]

theorem raisePeak_triggerSound (t : Nat) {cf : Nat} {ch : Channel} (h : cf ≤ 254) (on : ch.trigger = .on)
    (sound : ch.triggerSound = true) : (ch.raisePeak t cf).triggerSound = true := by
  unfold Channel.raisePeak
  split
  · simp_all [Channel.triggerSound]
  · exact sound

/-- Soundness of the averages rests on the averages and the captured values. -/
theorem Channel.averagesSound_of_eq {a b : Channel} (same : Kept.byJudge a b) (sound : a.averagesSound = true) :
    b.averagesSound = true := by
  obtain ⟨-, sta, lta, -, params, -, -⟩ := same
  rw [Channel.averagesSound, sta, lta, params]
  exact sound

theorem Channel.historySound_of_eq {a b : Channel} (same : Kept.byJudge a b) (sound : a.historySound = true) :
    b.historySound = true := by
  obtain ⟨-, -, -, -, -, -, history⟩ := same
  rw [Channel.historySound, history]
  exact sound

theorem judgeTrigger_sound (number t : Nat) {cf : Nat} (p : StationParams) {ch : Channel} (h : cf ≤ 254)
    (sound : ch.Sound) : (judgeTrigger number t cf p ch).1.Sound := by
  have same := judgeTrigger_frame number t cf p ch
  refine ⟨?_, Channel.averagesSound_of_eq same sound.averages, Channel.historySound_of_eq same sound.history⟩
  obtain same | on | ⟨on, raised⟩ | ⟨target, idle, ended | ended⟩ := judgeTrigger_cases number t cf p ch
  · rw [same]; exact sound.trigger
  · rw [on]; exact goOn_triggerSound t ch h
  · rw [raised]; exact raisePeak_triggerSound t h on sound.trigger
  · rw [ended]; exact endTrigger_triggerSound _ idle
  · rw [ended]; exact endTrigger_triggerSound _ idle

theorem judgeAbsent_sound (number t : Nat) {ch : Channel} (sound : ch.Sound) : (judgeAbsent number t ch).1.Sound := by
  have same := (judgeAbsent_frame number t ch).1
  refine ⟨?_, Channel.averagesSound_of_eq same sound.averages, Channel.historySound_of_eq same sound.history⟩
  obtain ⟨-, same⟩ | ⟨-, ended⟩ := judgeAbsent_cases number t ch
  · rw [same]; exact sound.trigger
  · rw [ended]; exact endTrigger_triggerSound _ nofun

theorem recordCf_sound (t : Nat) (cf : BitVec 8) {ch : Channel} (sound : ch.Sound) : (ch.recordCf t cf).Sound :=
  ⟨sound.trigger, sound.averages, recordCf_historySound t cf sound.history⟩

/-- The averages of a present sample stay at or below the largest input. -/
theorem takeSample_sound (x : BitVec 24) (p : StationParams) {ch : Channel} (sound : ch.Sound) :
    (ch.takeSample x p).Sound := by
  refine ⟨sound.trigger, ?_, sound.history⟩
  have averages := sound.averages
  have level := inputLevel_le (sampleDiff ch.xPrev x)
  simp only [Channel.averagesSound, Channel.takeSample, Bool.and_eq_true] at averages ⊢
  obtain ⟨⟨sta, lta⟩, floor⟩ := averages
  refine ⟨⟨decide_eq_true (stepAverage_le _ (of_decide_eq_true sta) level), decide_eq_true ?_⟩, floor⟩
  split
  · exact of_decide_eq_true lta
  · exact stepAverage_le _ (of_decide_eq_true lta) level

theorem takeAbsent_sound {ch : Channel} (sound : ch.Sound) : ch.takeAbsent.Sound :=
  ⟨sound.trigger, sound.averages, sound.history⟩

/-- Conditioning a tick keeps a channel sound. -/
theorem condition_sound (number t : Nat) (x : Option (BitVec 24)) {ch : Channel} (sound : ch.Sound) :
    (condition number t x ch).1.Sound := by
  obtain ⟨y, p, rfl, enabled⟩ | absent := condition_cases number t x ch
  · rw [condition_present number t y enabled]
    exact judgeTrigger_sound _ _ _ (ratioCf_le _ _ _) (recordCf_sound t _ (takeSample_sound y p sound))
  · rw [absent, condition_absent]
    exact judgeAbsent_sound _ _ (recordCf_sound t _ (takeAbsent_sound sound))

end Sys2Proof.Machine
end

section
/-! PROOFS. The statements about an absent sample and about the judgement of a trigger (R43, R48, R50 to R54). -/

namespace Sys2Proof.Machine

/-! ## Absent samples -/

/-- A written CF is read back at its tick, and every other cell is as it was (R56). -/
theorem recordCf_cells (t : Nat) (cf : BitVec 8) {ch : Channel} (sound : ch.historySound = true) :
    cellRead absentCf (ch.recordCf t cf).history (t % 4096) = cf ∧
      ∀ i < 4096, i ≠ t % 4096 →
        cellRead absentCf (ch.recordCf t cf).history i = cellRead absentCf ch.history i := by
  simp only [Channel.historySound, Bool.and_eq_true] at sound
  exact ⟨cellRead_cellWrite_same _ _ 0 _ _ sound.1, fun i _ other => cellRead_cellWrite_other _ _ 0 _ _ _ other sound.1⟩

/-- Settles O26: an absent sample is `judgeAbsent` of the channel with ABSENT recorded. -/
theorem absentSampleKeepsTheFilter : Obligations.AbsentSampleKeepsTheFilter := by
  intro number t ch sound after
  let quiet := ch.takeAbsent.recordCf t absentCf
  have kept : Kept.byJudge quiet after ∧ after.lastOn = quiet.lastOn := judgeAbsent_frame number t quiet
  obtain ⟨⟨prev, sta, lta, warm, params, invalid, history⟩, lastOn⟩ := kept
  obtain ⟨cell, others⟩ := recordCf_cells t absentCf (ch := ch.takeAbsent) sound
  refine ⟨history ▸ cell, fun i small other => history ▸ others i small other, sta, lta, warm, prev, params, lastOn,
    invalid, fun on => ?_, fun idle => ?_⟩
  · obtain ⟨idle, -⟩ | ⟨-, ended⟩ := judgeAbsent_cases number t quiet
    · exact absurd on idle
    · have ended : condition number t none ch = _ := ended
      rw [show after = quiet.endTrigger .off from congrArg Prod.fst ended, ended]
      exact ⟨rfl, rfl, rfl, rfl, rfl⟩
  · obtain ⟨-, same⟩ | ⟨on, -⟩ := judgeAbsent_cases number t quiet
    · have same : condition number t none ch = _ := same
      rw [show after = quiet from congrArg Prod.fst same, same]
      exact ⟨rfl, rfl, rfl, rfl, rfl⟩
    · exact absurd on idle

/-! ## The judgement of a trigger -/

/-- A CF raises the peak when it is greater: peak CF and peak tick after it. -/
theorem raisePeak_eq (t cf : Nat) {ch : Channel} {peak peakAt : Nat} (hp : ch.peakCf = some peak)
    (ht : ch.peakTick = some peakAt) :
    ch.raisePeak t cf =
      { ch with peakCf := some (max peak cf), peakTick := some (if peak < cf then t else peakAt) } := by
  unfold Channel.raisePeak
  rw [hp, Option.getD_some]
  split
  case isTrue higher => rw [max_eq_right higher.le]
  case isFalse lower => rw [max_eq_left (Nat.not_lt.mp lower), ← hp, ← ht]

/-- Settles O27: the CF judged is that of the sample just taken, and each trigger state has its own judgement. -/
theorem triggersAreJudgedInOrder : Obligations.TriggersAreJudgedInOrder := by
  refine ⟨fun number t x p ch enabled => ?_, fun number t cf p ch enabled => ⟨fun off => ?_,
    fun on pk pt trigger onTick peak peakAt started => ?_, fun blocked => ?_⟩⟩
  · exact ⟨_, ch.heard t x p, condition_present number t x enabled, rfl, rfl, rfl, rfl, rfl, rfl, rfl, rfl⟩
  · simp only [judgeTrigger, off]
    rfl
  · have late : p.maxLength ≤ t - on ↔ on + p.maxLength ≤ t := by omega
    simp only [judgeTrigger, trigger, judgeOn, raisePeak_eq t cf peak peakAt, Channel.endTrigger, endPick, onTick, peak,
      peakAt, enabled, Option.getD_some, Option.map_some, late]
  · simp only [judgeTrigger, blocked, judgeBlocked, Channel.endTrigger]
    split <;> rfl

end Sys2Proof.Machine
end

section
/-! SUPPORT. The channels (R40 to R61): what each operation that touches them leaves, and that it keeps them sound. An
operation whose frame keeps the channels needs no lemma of its own. -/

namespace Sys2Proof.Machine

/-! ## The conditioning of all channels (R43) -/

/-- Each channel is conditioned with its own number and its own sample. -/
theorem conditionAll_getElem? (t n : Nat) (xs : List (Option (BitVec 24))) (chs : List Channel) (i : Nat) :
    (conditionAll t n xs chs)[i]? = (chs[i]?).map fun ch => condition (n + i) t (xs.getD i none) ch := by
  induction chs generalizing n xs i with
  | nil => cases xs <;> simp [conditionAll]
  | cons ch chs ih =>
    cases xs with
    | nil => cases i <;> simp [conditionAll, ih, Nat.add_assoc, Nat.add_comm 1]
    | cons x xs => cases i <;> simp [conditionAll, ih, Nat.add_assoc, Nat.add_comm 1]

@[simp] theorem conditionAll_length (t n : Nat) (xs : List (Option (BitVec 24))) (chs : List Channel) :
    (conditionAll t n xs chs).length = chs.length := by
  induction chs generalizing n xs with
  | nil => cases xs <;> simp [conditionAll]
  | cons ch chs ih => cases xs <;> simp [conditionAll, ih]

/-- The channels after a tick. -/
theorem conditionTick_channels (t : Nat) (samples : List (Option (BitVec 24))) (c : Chip) :
    (conditionTick t samples c).chc.channels = (conditionAll t 0 samples c.chc.channels).map Prod.fst := by
  simp [conditionTick]

/-- The channels after a settled tick. -/
theorem settleTick_channels (t : Nat) (c : Chip) :
    (settleTick t c).chc.channels = (conditionAll t 0 (tickSamples t c) c.chc.channels).map Prod.fst := by
  simp [settleTick, conditionTick_channels]

/-! ## Sound channels -/

/-- 256 channels, each sound. -/
structure Chip.ChannelsSound (c : Chip) : Prop where
  count : c.chc.channels.length = 256
  each : ∀ ch ∈ c.chc.channels, ch.Sound

/-- Sound channels as the statement has them. -/
theorem Chip.channelsSound_iff (c : Chip) : c.ChannelsSound ↔ c.chc.sound := by
  simp only [Chc.sound, List.all_eq_true]
  exact ⟨fun ⟨count, each⟩ => ⟨count, fun ch h => (each ch h).trigger, fun ch h => (each ch h).averages,
      fun ch h => (each ch h).history⟩,
    fun ⟨count, trigger, averages, history⟩ =>
      ⟨count, fun ch h => ⟨trigger ch h, averages ch h, history ch h⟩⟩⟩

/-- What leaves the channels alone keeps them sound. -/
theorem Chip.ChannelsSound.keeps {c d : Chip} (h : c.ChannelsSound) (same : d.chc.channels = c.chc.channels) :
    d.ChannelsSound := ⟨by rw [same]; exact h.count, by rw [same]; exact h.each⟩

/-- A change of every channel that keeps each one sound. -/
theorem Chip.ChannelsSound.map {c d : Chip} (h : c.ChannelsSound) (f : Channel → Channel)
    (sound : ∀ ch : Channel, ch.Sound → (f ch).Sound) (mapped : d.chc.channels = c.chc.channels.map f) :
    d.ChannelsSound := by
  refine ⟨by rw [mapped, List.length_map, h.count], ?_⟩
  intro ch member
  rw [mapped] at member
  obtain ⟨before, present, rfl⟩ := List.mem_map.mp member
  exact sound before (h.each before present)

/-- A change of one channel that keeps it sound. -/
theorem Chip.ChannelsSound.onChannel {c : Chip} (h : c.ChannelsSound) (n : Nat) (f : Channel → Channel)
    (sound : ∀ ch ∈ c.chc.channels, (f ch).Sound) : (onChannel n f c).ChannelsSound := by
  refine ⟨by simp [Machine.onChannel, h.count], fun ch member => ?_⟩
  obtain ⟨i, here⟩ := List.mem_iff_getElem?.mp member
  rw [show (Machine.onChannel n f c).chc.channels = modifyAt f c.chc.channels n from rfl, modifyAt_getElem?] at here
  split at here
  · obtain ⟨before, at_i, rfl⟩ := Option.map_eq_some_iff.mp here
    exact sound before (List.mem_of_getElem? at_i)
  · exact h.each ch (List.mem_of_getElem? here)

/-- The channels of a part just reset, bound or unbound. -/
theorem Chip.channelsSound_of_atReset {c : Chip} (reset : c.chc = Chc.atReset) : c.ChannelsSound := by
  rw [Chip.channelsSound_iff, reset]
  have reset := resetMeetsEveryInvariant
  obtain ⟨-, -, -, -, channels, -⟩ := reset
  exact channels

/-! ## Settlement and the links (R28 to R38) -/

theorem settleTick_channelsSound (t : Nat) {c : Chip} (h : c.ChannelsSound) : (settleTick t c).ChannelsSound := by
  refine ⟨by rw [settleTick_channels, List.length_map, conditionAll_length, h.count], fun ch member => ?_⟩
  obtain ⟨i, here⟩ := List.mem_iff_getElem?.mp member
  rw [settleTick_channels, List.getElem?_map, conditionAll_getElem?, Option.map_map] at here
  obtain ⟨before, at_i, rfl⟩ := Option.map_eq_some_iff.mp here
  exact condition_sound _ _ _ (h.each before (List.mem_of_getElem? at_i))

theorem settleTicks_channelsSound (t n : Nat) {c : Chip} (h : c.ChannelsSound) :
    (settleTicks t n c).ChannelsSound := by
  induction n generalizing t c with
  | zero => exact h
  | succ n ih => exact ih _ (settleTick_channelsSound t h)

theorem updateHorizon_channelsSound {c : Chip} (h : c.ChannelsSound) : (updateHorizon c).ChannelsSound := by
  unfold updateHorizon
  split
  · split
    case _ h0 h1 _ _ _ => exact (settleTicks_channelsSound h0 (h1 - h0) h).keeps (by simp [settle])
    · exact h
  · exact h
  · exact h.keeps rfl
  · exact h

theorem stallCheck_channelsSound {c : Chip} (h : c.ChannelsSound) : (stallCheck c).ChannelsSound :=
  updateHorizon_channelsSound (h.keeps (by simp))

theorem linkEvent_channelsSound (f : Chip → Chip) {c : Chip} (h : (f c).ChannelsSound) :
    (linkEvent f c).ChannelsSound := h.keeps (by simp)

theorem fallBackHub_channelsSound (n : Nat) {c : Chip} (h : c.ChannelsSound) : (fallBackHub n c).ChannelsSound :=
  updateHorizon_channelsSound (h.keeps (by simp))

theorem fallBackIfDue_channelsSound (n : Nat) {c : Chip} (h : c.ChannelsSound) :
    (fallBackIfDue n c).ChannelsSound := by
  unfold fallBackIfDue
  split
  · exact fallBackHub_channelsSound n h
  · exact h

theorem takeGoodFrame_channelsSound (port : Nat) (b : List Byte) {c : Chip} (h : c.ChannelsSound) :
    (takeGoodFrame port b c).ChannelsSound := by
  unfold takeGoodFrame
  dsimp only
  split
  · exact stallCheck_channelsSound (h.keeps rfl)
  · exact h.keeps rfl

theorem takeFrame_channelsSound (port : Nat) (b : List Byte) {c : Chip} (h : c.ChannelsSound) :
    (takeFrame port b c).ChannelsSound := by
  have due := fallBackIfDue_channelsSound port h
  unfold takeFrame
  dsimp only
  split
  case h_1 => exact takeGoodFrame_channelsSound port b due
  all_goals exact due.keeps (by simp)

theorem burstEnds_channelsSound (port : Nat) (line : List Bool) {c : Chip} (h : c.ChannelsSound) :
    (burstEnds port line c).ChannelsSound := by
  unfold burstEnds
  split
  · exact h
  · split
    · exact linkEvent_channelsSound _ (takeFrame_channelsSound port _ h)
    · exact h

theorem badLimitEvent_channelsSound (n : Nat) {c : Chip} (h : c.ChannelsSound) :
    (badLimitEvent n c).ChannelsSound := by
  unfold badLimitEvent
  split
  · exact linkEvent_channelsSound _ (fallBackHub_channelsSound n h)
  · exact h

theorem silenceEvent_channelsSound (n : Nat) {c : Chip} (h : c.ChannelsSound) : (silenceEvent n c).ChannelsSound := by
  unfold silenceEvent
  split
  · exact linkEvent_channelsSound _ (fallBackHub_channelsSound n h)
  · exact h

/-! ## Station entries (R41, R42, R58) -/

/-- A captured floor lies in its range (R41). -/
theorem stationParams_floor {e : StationEntry} {p : StationParams} (captured : stationParams e = some p) :
    1 ≤ p.floor ∧ p.floor ≤ 65535 := by
  unfold stationParams at captured
  split at captured
  case isTrue valid =>
    cases captured
    simp only [stationFieldsValid, inRange, Bool.and_eq_true, decide_eq_true_eq] at valid
    obtain ⟨-, ⟨⟨⟨⟨⟨⟨-, floor⟩, -⟩, -⟩, -⟩, -⟩, -⟩, -⟩ := valid
    exact floor
  case isFalse => cases captured

theorem capture_sound (e : StationEntry) {ch : Channel} (sound : ch.Sound) : (ch.capture e).Sound := by
  refine ⟨sound.trigger, ?_, sound.history⟩
  have averages := sound.averages
  simp only [Channel.averagesSound, Bool.and_eq_true] at averages ⊢
  refine ⟨averages.1, ?_⟩
  change (stationParams e).all _ = true
  cases captured : stationParams e with
  | none => rfl
  | some p =>
    obtain ⟨low, high⟩ := stationParams_floor captured
    simp [low, high]

/-- A restarted channel has its L at 16 times the floor, which lies in the range of an average. -/
theorem restart_sound {ch : Channel} (sound : ch.Sound) : ch.restart.Sound := by
  refine ⟨Channel.triggerSound_of_idle nofun rfl rfl rfl, ?_, sound.history⟩
  have averages := sound.averages
  simp only [Channel.averagesSound, Bool.and_eq_true, Channel.restart] at averages ⊢
  refine ⟨⟨decide_eq_true (Nat.zero_le _), decide_eq_true ?_⟩, averages.2⟩
  cases enabled : ch.params with
  | none => exact Nat.zero_le _
  | some p =>
    obtain ⟨-, floor⟩ := averages
    simp only [enabled, Option.all_some, Bool.and_eq_true, decide_eq_true_eq] at floor
    simp only [averageMax, Option.map_some, Option.getD_some]
    omega

theorem restartEnabled_sound {ch : Channel} (sound : ch.Sound) : (restartEnabled ch).Sound := by
  unfold restartEnabled
  split
  · exact restart_sound sound
  · exact sound

theorem reloadChannel_channelsSound (n : Nat) (e : StationEntry) {c : Chip} (h : c.ChannelsSound) :
    (reloadChannel n e c).ChannelsSound := by
  unfold reloadChannel
  split
  · exact (h.onChannel n (fun ch => (ch.capture e).restart)
      fun ch member => restart_sound (capture_sound e (h.each ch member))).keeps (by simp)
  · exact h.onChannel n _ fun ch member => capture_sound e (h.each ch member)

theorem presentStations_channelsSound (n : Nat) (got : List (Option (List Byte))) {c : Chip} (h : c.ChannelsSound) :
    (presentStations n got c).ChannelsSound := by
  induction got generalizing n c with
  | nil => exact h
  | cons x got ih =>
    cases x with
    | none => exact ih _ h
    | some b => exact ih _ (reloadChannel_channelsSound _ _ (h.keeps rfl))

theorem stationsAnswered_channelsSound (a : Access) (r : Option (List Byte)) {c : Chip} (h : c.ChannelsSound) :
    (stationsAnswered a r c).ChannelsSound := by
  unfold stationsAnswered
  dsimp only
  split
  case h_1 reload _ =>
    exact (presentStations_channelsSound reload.order.first reload.got
      (h.keeps (d := noteReloadRead r c) (by simp))).keeps (by simp [performStations])
  case h_2 => exact h.keeps (by simp)

theorem hubsAnswered_channelsSound (a : Access) (r : Option (List Byte)) {c : Chip} (h : c.ChannelsSound) :
    (hubsAnswered a r c).ChannelsSound := by
  unfold hubsAnswered
  dsimp only
  split
  case h_1 reload _ =>
    have adopted : (adoptHubs (reloadedHubs reload.got (noteReloadRead r c).tcu.hubEntries)
        (noteReloadRead r c)).ChannelsSound := updateHorizon_channelsSound (h.keeps (by simp))
    exact (linkEvent_channelsSound _ adopted).keeps (by simp [performHubs])
  case h_2 => exact h.keeps (by simp)

theorem applyConfig_channelsSound (r : Option (List Byte)) {c : Chip} (h : c.ChannelsSound) :
    (applyConfig r c).1.ChannelsSound := by
  unfold applyConfig
  split
  · exact h
  · split
    · exact linkEvent_channelsSound _ (stallCheck_channelsSound (h.keeps rfl))
    · exact h

theorem configAnswered_channelsSound (a : Access) (r : Option (List Byte)) {c : Chip} (h : c.ChannelsSound) :
    (configAnswered a r c).ChannelsSound := by
  unfold configAnswered
  split
  · exact (applyConfig_channelsSound r h).keeps (by simp)
  · exact h

/-! ## Bindings (R9 to R13, R61) -/

theorem failBinding_channelsSound (result : BindResult) (c : Chip) : (failBinding result c).ChannelsSound :=
  Chip.channelsSound_of_atReset rfl

theorem directoryAnswered_channelsSound (a : Access) (r : Option (List Byte)) {c : Chip} (h : c.ChannelsSound) :
    (directoryAnswered a r c).ChannelsSound := by
  unfold directoryAnswered judgeDirectory
  split
  · exact failBinding_channelsSound _ _
  · split
    · exact failBinding_channelsSound _ _
    · dsimp only
      split
      · exact h.keeps (by simp)
      · exact failBinding_channelsSound _ _

theorem loadGrid_channelsSound (g : Nat) (b : List Byte) {c : Chip} (h : c.ChannelsSound) :
    (loadGrid g b c).ChannelsSound := by
  unfold loadGrid
  dsimp only
  split
  · exact h.keeps (by simp)
  · split
    · exact h.keeps (by simp)
    · exact failBinding_channelsSound _ _

theorem loadStation_channelsSound (n : Nat) (b : List Byte) {c : Chip} (h : c.ChannelsSound) :
    (loadStation n b c).ChannelsSound := by
  have captured := (h.keeps (d := c.onTcu fun t =>
    { t with stationEntries := modifyAt (fun _ => some (parseStation b)) t.stationEntries n }) rfl).onChannel n
    (Channel.capture (parseStation b)) fun ch member => capture_sound _ (h.each ch member)
  unfold loadStation
  dsimp only
  split
  · exact captured.keeps (by simp)
  · exact captured.map restartEnabled (fun ch => restartEnabled_sound) (by simp [writeFirstImage])

theorem bindTableAnswered_channelsSound (a : Access) (r : Option (List Byte)) {c : Chip} (h : c.ChannelsSound) :
    (bindTableAnswered a r c).ChannelsSound := by
  unfold bindTableAnswered
  split
  · exact failBinding_channelsSound _ _
  · split
    · exact h.keeps (by simp)
    · exact loadGrid_channelsSound _ _ h
    · exact h.keeps (by simp)
    · exact loadStation_channelsSound _ _ h
    · exact h

/-! ## The end of an access (R170, R171, R175) -/

theorem handlerOf_channelsSound (p : Purpose) (a : Access) (r : Option (List Byte)) {c : Chip} (h : c.ChannelsSound) :
    (handlerOf p a r c).ChannelsSound := by
  cases p with
  | directory => exact directoryAnswered_channelsSound a r h
  | bindSettings | bindGrid | bindHub | bindStation => exact bindTableAnswered_channelsSound a r h
  | reloadStation _ last =>
    cases last with
    | true => exact stationsAnswered_channelsSound a r h
    | false => exact h.keeps (by simp [handlerOf])
  | reloadHub _ last =>
    cases last with
    | true => exact hubsAnswered_channelsSound a r h
    | false => exact h.keeps (by simp [handlerOf])
  | reloadGrid _ last => cases last <;> exact h.keeps (by simp [handlerOf])
  | reloadConfig => exact configAnswered_channelsSound a r h
  | _ => exact h.keeps (by simp [handlerOf])

theorem accessEnds_channelsSound (p : Purpose) (a : Access) (r : Option (List Byte)) {c : Chip} (h : c.ChannelsSound) :
    (accessEnds (handlerOf p) a r c).ChannelsSound := by
  have freed : (freeBus c).ChannelsSound := h.keeps rfl
  refine Chip.ChannelsSound.keeps (c := accessResult (handlerOf p) a r (freeBus c)) ?_ (by simp [accessEnds])
  unfold accessResult
  split
  · split
    · exact freed
    · exact handlerOf_channelsSound p a _ freed
  · split
    · exact h.keeps (by simp)
    · unfold accessFails
      split
      · exact h.keeps (by simp)
      · exact handlerOf_channelsSound p a none (h.keeps (by simp))

/-! ## The effects of the commands -/

theorem releaseReset_channelsSound (auto : Bool) (dirsel : BitVec 2) (c : Chip) :
    (releaseReset auto dirsel c).ChannelsSound := by cases auto <;> exact Chip.channelsSound_of_atReset rfl

/-- The event of every command keeps the channels sound. -/
theorem eventEffect_channelsSound (i : Instr) {c : Chip} (h : c.ChannelsSound) : (eventEffect i c).ChannelsSound := by
  have written (f : Chip → Chip) (effect : (f c).ChannelsSound) :
    (if c.rgp.resetHeld then c else f c).ChannelsSound := by
    split <;> assumption
  have control (code : BitVec 8) (valid : Chip → Bool) (effect : Chip → Chip)
      (keeps : ∀ d : Chip, d.ChannelsSound → (effect d).ChannelsSound) :
      (controlCommand code valid effect c).ChannelsSound := by
    unfold controlCommand
    split
    · exact keeps _ (h.keeps rfl)
    · exact h.keeps rfl
  cases i with
  | powerOnReset auto dirsel => exact releaseReset_channelsSound auto dirsel c
  | reset auto dirsel => exact written _ (releaseReset_channelsSound auto dirsel c)
  | bind => exact written _ (control _ _ _ fun _ _ => Chip.channelsSound_of_atReset rfl)
  | listen => exact written _ (control _ _ _ fun _ hd => hd.keeps (by simp))
  | stop => exact written _ (control _ _ _ fun _ hd => hd.keeps (by simp))
  | nudge => exact written _ (control _ _ _ fun _ hd => hd.keeps (by simp))
  | refusedCode | causeWrite | maskWrite => exact written _ (h.keeps rfl)
  | dirbaseWrite hi value => exact written (writeDirbase hi value) (h.keeps (by simp))
  | hubFrameArrival port line => exact burstEnds_channelsSound port.val line h
  | badFrameLimit hub => exact badLimitEvent_channelsSound hub.val h
  | silenceTimerExpiry hub => exact silenceEvent_channelsSound hub.val h
  | cfReadAnswer =>
    exact engineOn_induct Chip.ChannelsSound (fun task d hd => hd.keeps (by simp)) _
      (h.keeps (d := (cfAnswered c).1) (by simp))
  | pollTimerExpiry => exact h.keeps (d := pollTimerEvent c) (by simp)
  | noticeCountReached stream => exact h.keeps (d := takeNotice stream c) (by simp)
  | powerOnResetHold => exact Chip.channelsSound_of_atReset rfl
  | _ => exact h

theorem exec_channelsSound (i : Instr) {c d : Chip} {q r : List Instr} (h : c.ChannelsSound)
    (next : exec i ⟨c, q⟩ = .next ⟨d, r⟩) : d.ChannelsSound := by
  have form : CommandForm i c q (.next ⟨d, r⟩) := next ▸ exec_form i c q
  cases form with
  | ignored => exact h
  | event => exact (eventEffect_channelsSound i h).keeps (by simp)
  | answered a r _ => exact accessEnds_channelsSound _ a r h

end Sys2Proof.Machine
end

section
/-! PROOFS. The statement that a step keeps the channels in their ranges (R40, R49, R56, R61). -/

namespace Sys2Proof.Machine

/-- Settles O57: every command keeps the channels sound, and an empty queue leaves the part as it is. -/
theorem channelsStayInTheirRanges : Obligations.ChannelsStayInTheirRanges := by
  rintro ⟨c, pending⟩ ⟨d, rest⟩ sound next
  have h : c.ChannelsSound := c.channelsSound_iff.mpr sound
  refine d.channelsSound_iff.mp ?_
  cases pending with
  | nil =>
    cases next
    exact h
  | cons i q => exact exec_channelsSound i h next

end Sys2Proof.Machine
end

section
/-! SUPPORT. The hubs and H (R22 to R32): what each state of a hub lets it hold, what a good or a bad frame leaves of
it, and the places of the LIVE hubs, of which H is the smallest. -/

namespace Sys2Proof.Machine

/-! ## What each state holds (R22, R23, R26, R27, R29) -/

/-- A hub with a place in time: next_tick, a last sequence, a silence timer, a bad-frame count of at most 8, no
marker. -/
structure Hub.Placed (h : Hub) (next : Nat) : Prop where
  place : h.nextTick = some next
  edge : onEdge next = true
  seq : h.lastSeq.isSome = true
  timer : h.silence.isSome = true
  bad : h.badCount ≤ 8
  marker : h.marker = none

/-- A hub without a place in time. -/
structure Hub.Unplaced (h : Hub) : Prop where
  next : h.nextTick = none
  seq : h.lastSeq = none
  timer : h.silence = none
  bad : h.badCount = 0

theorem Hub.sound_disabled {h : Hub} (state : h.state = .disabled) :
    h.sound = true ↔ h.Unplaced ∧ h.marker = none ∧ h.buffer = [] := by
  simp only [Hub.sound, Hub.holdsItsState, state, HubState.placed, Bool.and_eq_true, beq_iff_eq,
    Option.isSome_eq_false_iff,
    Option.isNone_iff_eq_none, List.isEmpty_iff, decide_eq_true_eq, Bool.or_eq_true]
  constructor
  · rintro ⟨-, ⟨⟨⟨⟨next, seq⟩, timer⟩, bad⟩, marker⟩, empty⟩
    exact ⟨⟨next, seq, timer, by simpa using bad⟩, by simpa using marker, empty⟩
  · rintro ⟨⟨next, seq, timer, bad⟩, marker, empty⟩
    simp [next, seq, timer, bad, marker, empty]

theorem Hub.sound_seeking {h : Hub} (state : h.state = .seeking) :
    h.sound = true ↔ h.Unplaced ∧ (h.marker.map Prod.fst).all onEdge = true ∧
      h.buffer.map Frame.firstTick = h.marker.toList.map Prod.fst := by
  simp only [Hub.sound, Hub.holdsItsState, state, HubState.placed, Bool.and_eq_true, beq_iff_eq,
    Option.isSome_eq_false_iff,
    Option.isNone_iff_eq_none, decide_eq_true_eq]
  constructor
  · rintro ⟨⟨⟨-, marker⟩, -⟩, ⟨⟨⟨⟨next, seq⟩, timer⟩, bad⟩, -⟩, frames⟩
    exact ⟨⟨next, seq, timer, by simpa using bad⟩, marker, frames⟩
  · rintro ⟨⟨next, seq, timer, bad⟩, marker, frames⟩
    have edges : h.buffer.all (fun f => onEdge f.firstTick) = true := by
      have edges : (h.buffer.map Frame.firstTick).all onEdge = true := by
        rw [frames]
        revert marker
        cases h.marker <;> simp
      simpa [List.all_map, Function.comp_def] using edges
    simp [next, seq, timer, bad, marker, frames, edges]

theorem Hub.sound_live {h : Hub} (state : h.state = .live) :
    h.sound = true ↔ ∃ next, h.Placed next ∧ h.buffer.all (fun f => onEdge f.firstTick) = true ∧
      framesEndBy next h.buffer = true := by
  simp only [Hub.sound, Hub.holdsItsState, state, HubState.placed, Bool.and_eq_true, beq_iff_eq,
    decide_eq_true_eq, Option.isSome_iff_exists (x := h.nextTick)]
  constructor
  · rintro ⟨⟨⟨edge, -⟩, edges⟩, ⟨⟨⟨⟨⟨next, at_next⟩, seq⟩, timer⟩, bad⟩, marker⟩, frames⟩
    exact ⟨next, ⟨at_next, by simpa [at_next] using edge, seq, timer, by simpa [badFrameLimitCount] using bad,
      by simpa using marker⟩, edges, by simpa [at_next] using frames⟩
  · rintro ⟨next, ⟨at_next, edge, seq, timer, bad, marker⟩, edges, frames⟩
    simp [at_next, edge, seq, timer, bad, marker, edges, frames, badFrameLimitCount]

theorem Hub.sound_stalled {h : Hub} (state : h.state = .stalled) :
    h.sound = true ↔ (∃ next, h.Placed next) ∧ h.buffer = [] := by
  simp only [Hub.sound, Hub.holdsItsState, state, HubState.placed, Bool.and_eq_true, beq_iff_eq,
    decide_eq_true_eq, Option.isSome_iff_exists (x := h.nextTick), List.isEmpty_iff]
  constructor
  · rintro ⟨⟨⟨edge, -⟩, -⟩, ⟨⟨⟨⟨⟨next, at_next⟩, seq⟩, timer⟩, bad⟩, marker⟩, empty⟩
    exact ⟨⟨next, ⟨at_next, by simpa [at_next] using edge, seq, timer, by simpa [badFrameLimitCount] using bad,
      by simpa using marker⟩⟩, empty⟩
  · rintro ⟨⟨next, ⟨at_next, edge, seq, timer, bad, marker⟩⟩, empty⟩
    simp [at_next, edge, seq, timer, bad, marker, empty, badFrameLimitCount]

/-! ## Frames in order (R29) -/

theorem Frame.below_iff {f : Frame} {hz : Nat} : f.below hz = true ↔ f.firstTick + 25 ≤ hz := decide_eq_true_iff

theorem framesEndBy_filter (p : Frame → Bool) {next : Nat} {l : List Frame} (h : framesEndBy next l = true) :
    framesEndBy next (l.filter p) = true := by
  induction l with
  | nil => rfl
  | cons f l ih =>
    simp only [framesEndBy, Bool.and_eq_true] at h
    obtain ⟨⟨ends, before⟩, rest⟩ := h
    rw [List.filter_cons]
    split
    · simp only [framesEndBy, Bool.and_eq_true]
      refine ⟨⟨ends, ?_⟩, ih rest⟩
      rw [List.all_eq_true] at before ⊢
      exact fun g member => before g (List.mem_of_mem_filter member)
    · exact ih rest

/-- A frame at or above next_tick may join the end of the buffer. -/
theorem framesEndBy_snoc {next : Nat} {l : List Frame} {f : Frame} (h : framesEndBy next l = true)
    (after : next ≤ f.firstTick) : framesEndBy (f.firstTick + 25) (l ++ [f]) = true := by
  induction l with
  | nil => simp [framesEndBy, frameTicks]
  | cons g l ih =>
    simp only [framesEndBy, Bool.and_eq_true, decide_eq_true_eq, List.cons_append, List.all_append, List.all_cons,
      List.all_nil, Bool.and_true] at h ⊢
    obtain ⟨⟨ends, before⟩, rest⟩ := h
    exact ⟨⟨by omega, before, by omega⟩, ih rest⟩

/-! ## What an event leaves of a sound hub -/

theorem disable_sound (h : Hub) : h.disable.sound = true :=
  (Hub.sound_disabled rfl).mpr ⟨⟨rfl, rfl, rfl, rfl⟩, rfl, rfl⟩

theorem fallBack_sound (h : Hub) : h.fallBack.sound = true :=
  (Hub.sound_seeking rfl).mpr ⟨⟨rfl, rfl, rfl, rfl⟩, rfl, rfl⟩

theorem seek_sound {h : Hub} (sound : h.sound = true) : h.seek.sound = true := by
  unfold Hub.seek
  split
  case h_1 state => exact (Hub.sound_seeking rfl).mpr ⟨⟨((Hub.sound_disabled state).mp sound).1.next,
      ((Hub.sound_disabled state).mp sound).1.seq, ((Hub.sound_disabled state).mp sound).1.timer,
      ((Hub.sound_disabled state).mp sound).1.bad⟩, rfl, rfl⟩
  all_goals exact sound

/-- The counters and the actual lane count are free. -/
theorem Hub.sound_recount {h : Hub} (counters : LinkCounters) (lanes : Nat) :
    ({ h with counters := counters, actualLanes := lanes } : Hub).sound = h.sound := rfl

theorem release_sound (h1 : Nat) {h : Hub} (sound : h.sound = true) : (h.release h1).sound = true := by
  cases state : h.state with
  | seeking => rwa [Hub.release_seeking h1 h state]
  | disabled =>
    obtain ⟨-, -, empty⟩ := (Hub.sound_disabled state).mp sound
    rwa [Hub.release_empty h1 empty]
  | stalled =>
    obtain ⟨-, empty⟩ := (Hub.sound_stalled state).mp sound
    rwa [Hub.release_empty h1 empty]
  | live =>
    obtain ⟨next, ⟨place, edge, seq, timer, bad, marker⟩, edges, frames⟩ := (Hub.sound_live state).mp sound
    have kept : h.release h1 = { h with buffer := h.buffer.filter fun f => !f.below h1 } := if_neg (by simp [state])
    rw [kept]
    refine (Hub.sound_live (by exact state)).mpr
      ⟨next, ⟨place, edge, seq, timer, bad, marker⟩, ?_, framesEndBy_filter _ frames⟩
    rw [List.all_eq_true] at edges ⊢
    exact fun f member => edges f (List.mem_of_mem_filter member)

theorem stallBelow_sound (lmax lead : Nat) {h : Hub} (sound : h.sound = true) :
    (h.stallBelow lmax lead).sound = true := by
  unfold Hub.stallBelow
  split
  case h_1 n next =>
    split
    · by_cases state : h.state = .live
      · obtain ⟨next, ⟨place, edge, seq, timer, bad, marker⟩, -⟩ := (Hub.sound_live state).mp sound
        exact (Hub.sound_stalled rfl).mpr ⟨⟨next, place, edge, seq, timer, bad, marker⟩, rfl⟩
      · simp [Hub.liveNext, state] at next
    · exact sound
  case h_2 => exact sound

/-- A bad frame at a SEEKING hub (R19, R23). -/
theorem takeBad_seeking (f : FrameCheck) {h : Hub} (state : h.state = .seeking) :
    h.takeBad f = { h with buffer := [], marker := none, counters := countBad h.counters f } := by
  simp [Hub.takeBad, Hub.count, state]

/-- A bad frame at a LIVE or STALLED hub (R19, R26). -/
theorem takeBad_placed (f : FrameCheck) {h : Hub} (placed : h.state.placed = true) :
    h.takeBad f = { h with badCount := min 8 (h.badCount + 1), counters := countBad h.counters f } := by
  cases state : h.state <;> simp_all [Hub.takeBad, Hub.count, HubState.placed, badFrameLimitCount]

/-- A bad frame leaves a sound hub sound. -/
theorem takeBad_sound (f : FrameCheck) {h : Hub} (sound : h.sound = true) : (h.takeBad f).sound = true := by
  cases state : h.state with
  | disabled =>
    have counted : h.takeBad f = { h with counters := countBad h.counters f } := by
      simp [Hub.takeBad, Hub.count, state]
    rw [counted]
    exact sound
  | seeking =>
    obtain ⟨⟨next, seq, timer, bad⟩, -⟩ := (Hub.sound_seeking state).mp sound
    rw [takeBad_seeking f state]
    exact (Hub.sound_seeking (by exact state)).mpr ⟨⟨next, seq, timer, bad⟩, rfl, rfl⟩
  | live =>
    obtain ⟨next, ⟨place, edge, seq, timer, -, marker⟩, frames⟩ := (Hub.sound_live state).mp sound
    rw [takeBad_placed f (by rw [state]; rfl)]
    exact (Hub.sound_live (by exact state)).mpr ⟨next, ⟨place, edge, seq, timer, min_le_left _ _, marker⟩, frames⟩
  | stalled =>
    obtain ⟨⟨next, place, edge, seq, timer, -, marker⟩, empty⟩ := (Hub.sound_stalled state).mp sound
    rw [takeBad_placed f (by rw [state]; rfl)]
    exact (Hub.sound_stalled (by exact state)).mpr
      ⟨⟨next, place, edge, seq, timer, min_le_left _ _, marker⟩, empty⟩

/-- What every good frame does to a LIVE or STALLED hub (R21, R26, R27). -/
theorem noteGood_placed (limit : Nat) (b : List Byte) {h : Hub} (placed : h.state.placed = true) :
    h.noteGood limit b =
      { h with
        actualLanes := byteAt b 3, counters := countGood b h.counters, badCount := 0, silence := some limit } := by
  simp [Hub.noteGood, placed, frameLanes]

/-- What every good frame does to a DISABLED or SEEKING hub (R21). -/
theorem noteGood_unplaced (limit : Nat) (b : List Byte) {h : Hub} (unplaced : h.state.placed = false) :
    h.noteGood limit b = { h with actualLanes := byteAt b 3, counters := countGood b h.counters } := by
  simp [Hub.noteGood, unplaced, frameLanes]

theorem noteGood_sound (limit : Nat) (b : List Byte) {h : Hub} (sound : h.sound = true) :
    (h.noteGood limit b).sound = true := by
  cases state : h.state with
  | disabled | seeking =>
    rw [noteGood_unplaced limit b (by rw [state]; rfl)]
    exact sound
  | live =>
    obtain ⟨next, ⟨place, edge, seq, -, -, marker⟩, frames⟩ := (Hub.sound_live state).mp sound
    rw [noteGood_placed limit b (by rw [state]; rfl)]
    exact (Hub.sound_live (by exact state)).mpr ⟨next, ⟨place, edge, seq, rfl, Nat.zero_le _, marker⟩, frames⟩
  | stalled =>
    obtain ⟨⟨next, place, edge, seq, -, -, marker⟩, empty⟩ := (Hub.sound_stalled state).mp sound
    rw [noteGood_placed limit b (by rw [state]; rfl)]
    exact (Hub.sound_stalled (by exact state)).mpr ⟨⟨next, place, edge, seq, rfl, Nat.zero_le _, marker⟩, empty⟩

/-! ## A good frame (R22 to R25, R32) -/

/-- What a good frame leaves: a sound hub, and either the LIVE places as they were, or the hub LIVE with its place at
the frame's end, at or above H; H stays, or a first admission sets it. -/
structure Judged.Follows (j : Judged) (f : Frame) (horizon : Option Nat) (h : Hub) : Prop where
  sound : j.hub.sound = true
  edge : j.horizon.all onEdge = true
  kept : j.check = false → j.hub.liveNext = h.liveNext ∧ j.horizon = horizon
  joined : j.check = true → j.hub.liveNext = some (f.firstTick + 25) ∧
    (∀ h0, j.horizon = some h0 → h0 ≤ f.firstTick + 25)
    ∧ (horizon.isSome = true → j.horizon = horizon)

theorem onEdge_add (t : Nat) : onEdge (t + 25) = onEdge t := by simp [onEdge]

theorem judgeSeeking_follows (limit : Nat) {horizon : Option Nat} {f : Frame} (seq : BitVec 8) {h : Hub}
    (state : h.state = .seeking) (sound : h.sound = true) (edge : onEdge f.firstTick = true)
    (hzEdge : horizon.all onEdge = true) : (judgeSeeking limit horizon f seq h).Follows f horizon h := by
  obtain ⟨⟨next, lastSeq, timer, bad⟩, marked, frames⟩ := (Hub.sound_seeking state).mp sound
  have stored : Judged.Follows ⟨h.storeProvisional f seq, false, horizon⟩ f horizon h :=
    ⟨(Hub.sound_seeking (by exact state)).mpr ⟨⟨next, lastSeq, timer, bad⟩, by simpa [Hub.storeProvisional] using edge,
      rfl⟩, hzEdge,
      fun _ => ⟨rfl, rfl⟩, nofun⟩
  have discarded : Judged.Follows
      ⟨{ h with buffer := [], marker := none, counters := { h.counters with late := addCount h.counters.late 2 } },
        false, horizon⟩ f horizon h :=
    ⟨(Hub.sound_seeking (by exact state)).mpr ⟨⟨next, lastSeq, timer, bad⟩, rfl, rfl⟩, hzEdge, fun _ => ⟨rfl, rfl⟩,
      nofun⟩
  have joins (first : Nat) (seq1 : BitVec 8) (hz : Nat) (marker : h.marker = some (first, seq1))
      (follows : f.firstTick = first + 25) : (h.allow limit hz seq1 f seq).sound = true := by
    have named : h.buffer.map Frame.firstTick = [first] := by simpa [marker] using frames
    obtain ⟨g, buffer⟩ := List.length_eq_one_iff.mp (by simpa using congrArg List.length named)
    have at_first : g.firstTick = first := by simpa [buffer] using named
    have first_edge : onEdge first = true := by simpa [marker] using marked
    refine (Hub.sound_live rfl).mpr ⟨f.firstTick + 25, ⟨rfl, by rwa [onEdge_add], rfl, rfl, Nat.zero_le _, rfl⟩, ?_, ?_⟩
    · rw [List.all_eq_true]
      intro k member
      have member : k ∈ [g, f] := by
        have := List.mem_of_mem_filter member
        rwa [buffer] at this
      obtain rfl | rfl := List.mem_pair.mp member
      · rwa [at_first]
      · exact edge
    · refine framesEndBy_filter _ (framesEndBy_snoc (next := f.firstTick) ?_ le_rfl)
      simp [buffer, framesEndBy, frameTicks, at_first, follows]
  unfold judgeSeeking
  split
  case h_1 first seq1 marker =>
    split
    case isTrue follows =>
      have follows : f.firstTick = first + 25 := follows
      have first_edge : onEdge first = true := by simpa [marker] using marked
      unfold judgeAdmission
      split
      · exact ⟨joins first seq1 first marker follows, first_edge, nofun, fun _ => ⟨rfl, by
          rintro h0 ⟨⟩
          omega, nofun⟩⟩
      case h_2 hz =>
        split
        · exact discarded
        case isFalse ahead =>
          refine ⟨joins first seq1 hz marker follows, hzEdge, nofun, fun _ => ⟨rfl, ?_, fun _ => rfl⟩⟩
          rintro h0 ⟨⟩
          rw [Frame.below_iff] at ahead
          omega
    case isFalse => exact stored
  case h_2 => exact stored

/-- The slip test changes one counter alone (R25, R32). -/
theorem testSlip_eq (f : Frame) (seq : BitVec 8) (h : Hub) :
    h.testSlip f seq = { h with counters := { h.counters with slips :=
      (if h.nextTick = some f.firstTick ∧ h.lastSeq.map (· + 1) ≠ some seq then countUp h.counters.slips
        else h.counters.slips) } } := by
  by_cases consistent : h.nextTick = some f.firstTick <;> by_cases follows : h.lastSeq.map (· + 1) = some seq <;>
    simp only [Hub.testSlip, Hub.count, countSlip, consistent, follows, if_true, if_false, ne_eq, not_true,
      not_false_iff,
      and_true, and_false]

theorem judgeLive_follows {horizon : Option Nat} {f : Frame} (seq : BitVec 8) {h : Hub} (state : h.state = .live)
    (sound : h.sound = true) (edge : onEdge f.firstTick = true) (hzEdge : horizon.all onEdge = true)
    (below : ∀ h0 n, horizon = some h0 → h.liveNext = some n → h0 ≤ n) :
    (judgeLive horizon f seq h).Follows f horizon h := by
  obtain ⟨next, ⟨place, -, -, timer, bad, marker⟩, edges, frames⟩ := (Hub.sound_live state).mp sound
  simp only [judgeLive, place, Option.getD_some]
  split
  · exact ⟨sound, hzEdge, fun _ => ⟨rfl, rfl⟩, nofun⟩
  case isFalse later =>
    rw [Nat.not_lt] at later
    refine ⟨?_, hzEdge, nofun, fun _ => ⟨?_, fun h0 set => ?_, fun _ => rfl⟩⟩
    · simp only [testSlip_eq, Hub.countGap, Hub.count, Hub.movePast, Hub.keep]
      exact (Hub.sound_live (by exact state)).mpr ⟨f.firstTick + 25,
        ⟨rfl, by rwa [onEdge_add], rfl, timer, bad, marker⟩,
        by simp [edges, edge], framesEndBy_snoc frames later⟩
    · simp [testSlip_eq, Hub.countGap, Hub.count, Hub.movePast, Hub.keep, Hub.liveNext, state, frameTicks]
    · have := below h0 next set (by simp [Hub.liveNext, state, place])
      omega

theorem judgeStalled_follows {horizon : Option Nat} {f : Frame} (seq : BitVec 8) {h : Hub} (state : h.state = .stalled)
    (sound : h.sound = true) (edge : onEdge f.firstTick = true) (hzEdge : horizon.all onEdge = true) :
    (judgeStalled horizon f seq h).Follows f horizon h := by
  obtain ⟨⟨next, place, -, -, timer, bad, marker⟩, empty⟩ := (Hub.sound_stalled state).mp sound
  simp only [judgeStalled, place, Option.getD_some]
  split
  · exact ⟨sound, hzEdge, fun _ => ⟨rfl, rfl⟩, nofun⟩
  · split
    · refine ⟨?_, hzEdge, fun _ => ⟨?_, rfl⟩, nofun⟩
      · simp only [Hub.takeLate, testSlip_eq, Hub.count, Hub.movePast]
        exact (Hub.sound_stalled (by exact state)).mpr
          ⟨⟨f.firstTick + 25, rfl, by rwa [onEdge_add], rfl, timer, bad, marker⟩, empty⟩
      · simp [Hub.takeLate, testSlip_eq, Hub.count, Hub.movePast, Hub.liveNext, state]
    case isFalse ahead =>
      refine ⟨?_, hzEdge, nofun, fun _ => ⟨?_, fun h0 set => ?_, fun _ => rfl⟩⟩
      · simp only [Hub.rejoin, testSlip_eq, Hub.countGap, Hub.count, Hub.movePast, Hub.keep, empty]
        exact (Hub.sound_live rfl).mpr ⟨f.firstTick + 25, ⟨rfl, by rwa [onEdge_add], rfl, timer, bad, marker⟩,
          by simp [edge], framesEndBy_snoc (next := 0) rfl (Nat.zero_le _)⟩
      · simp [Hub.rejoin, Hub.movePast, Hub.keep, Hub.liveNext, frameTicks]
      · rw [Frame.below_iff] at ahead
        simp only at set
        rw [set, Option.getD_some] at ahead
        omega

/-- A good frame leaves a sound hub sound, and its LIVE place at or above H. -/
theorem judgeFrame_follows (limit : Nat) {horizon : Option Nat} {f : Frame} (seq : BitVec 8) {h : Hub}
    (sound : h.sound = true) (edge : onEdge f.firstTick = true) (hzEdge : horizon.all onEdge = true)
    (below : ∀ h0 n, horizon = some h0 → h.liveNext = some n → h0 ≤ n) :
    (judgeFrame limit horizon f seq h).Follows f horizon h := by
  unfold judgeFrame
  split
  case h_1 => exact ⟨sound, hzEdge, fun _ => ⟨rfl, rfl⟩, nofun⟩
  case h_2 state => exact judgeSeeking_follows limit seq state sound edge hzEdge
  case h_3 state => exact judgeLive_follows seq state sound edge hzEdge below
  case h_4 state => exact judgeStalled_follows seq state sound edge hzEdge

end Sys2Proof.Machine
end

section
/-! SUPPORT. The places of the LIVE hubs and H (R30 to R33): the smallest and the largest place, what the update of H
and the stall check leave of the links, and that H at or below every LIVE place becomes the smallest of them. -/

namespace Sys2Proof.Machine

/-! ## The smallest and the largest place (R30, R31) -/

theorem minOf_eq_some {l : List Nat} {m : Nat} : minOf l = some m ↔ m ∈ l ∧ ∀ x ∈ l, m ≤ x := by
  induction l generalizing m with
  | nil => simp [minOf]
  | cons a l ih =>
    cases rest : minOf l with
    | none =>
      have empty : l = [] := by cases l <;> simp_all [minOf]
      simp only [minOf, empty, List.mem_singleton, Option.some.injEq]
      grind
    | some k =>
      obtain ⟨member, least⟩ := ih.mp rest
      simp only [minOf, rest, Option.some.injEq, List.mem_cons, forall_eq_or_imp]
      constructor
      · rintro rfl
        refine ⟨?_, min_le_left _ _, fun x h => (min_le_right _ _).trans (least x h)⟩
        rcases min_choice a k with h | h <;> simp [h, member]
      · rintro ⟨rfl | h, low, lowest⟩
        · exact min_eq_left (lowest k member)
        · exact le_antisymm (le_trans (min_le_right _ _) (least m h)) (le_min low (lowest k member))

theorem maxOf_eq_some {l : List Nat} {m : Nat} : maxOf l = some m ↔ m ∈ l ∧ ∀ x ∈ l, x ≤ m := by
  induction l generalizing m with
  | nil => simp [maxOf]
  | cons a l ih =>
    cases rest : maxOf l with
    | none =>
      have empty : l = [] := by cases l <;> simp_all [maxOf]
      simp only [maxOf, empty, List.mem_singleton, Option.some.injEq]
      grind
    | some k =>
      obtain ⟨member, most⟩ := ih.mp rest
      simp only [maxOf, rest, Option.some.injEq, List.mem_cons, forall_eq_or_imp]
      constructor
      · rintro rfl
        refine ⟨?_, le_max_left _ _, fun x h => (most x h).trans (le_max_right _ _)⟩
        rcases max_choice a k with h | h <;> simp [h, member]
      · rintro ⟨rfl | h, high, highest⟩
        · exact max_eq_left (highest k member)
        · exact le_antisymm (max_le high (highest k member)) ((most m h).trans (le_max_right _ _))

theorem minOf_eq_none {l : List Nat} : minOf l = none ↔ l = [] := by cases l <;> simp [minOf]

/-- The smallest place is that of a LIVE hub, and at or below every other. -/
theorem Lki.smallestNext_eq_some {l : Lki} {m : Nat} :
    l.smallestNext = some m ↔
      (∃ h ∈ l.hubs, h.liveNext = some m) ∧ ∀ h ∈ l.hubs, ∀ n, h.liveNext = some n → m ≤ n := by
  rw [Lki.smallestNext, minOf_eq_some]
  simp only [List.mem_filterMap]
  grind

theorem Lki.lead_eq_some {l : Lki} {m : Nat} :
    l.lead = some m ↔
      (∃ h ∈ l.hubs, h.liveNext = some m) ∧ ∀ h ∈ l.hubs, ∀ n, h.liveNext = some n → n ≤ m := by
  rw [Lki.lead, maxOf_eq_some]
  simp only [List.mem_filterMap]
  grind

theorem Lki.smallestNext_eq_none {l : Lki} : l.smallestNext = none ↔ ∀ h ∈ l.hubs, h.liveNext = none := by
  rw [Lki.smallestNext, minOf_eq_none, List.filterMap_eq_nil_iff]

/-- The smallest place rests on the places alone. -/
theorem Lki.smallestNext_of_places {l l' : Lki} (places : l'.hubs.map Hub.liveNext = l.hubs.map Hub.liveNext) :
    l'.smallestNext = l.smallestNext := by
  have read (k : Lki) : k.hubs.filterMap Hub.liveNext = (k.hubs.map Hub.liveNext).filterMap id := by
    rw [List.filterMap_map]
    rfl
  rw [Lki.smallestNext, Lki.smallestNext, read, read, places]

/-! ## The update of H (R30, R33) -/

/-- H and the hubs after an update of H: H rises to the smallest place and frames are released, or H is set, or nothing
changes. -/
theorem updateHorizon_lki (c : Chip) :
    (∃ h0 h1, c.lki.horizon = some h0 ∧ c.lki.smallestNext = some h1 ∧ h0 < h1 ∧
        (updateHorizon c).lki = ⟨c.lki.hubs.map (Hub.release h1), some h1⟩) ∨
      (c.lki.horizon = none ∧ ∃ h1, c.lki.smallestNext = some h1 ∧
        (updateHorizon c).lki = { c.lki with horizon := some h1 }) ∨
      ((c.lki.smallestNext = none ∨ ∃ h0 h1, c.lki.horizon = some h0 ∧ c.lki.smallestNext = some h1 ∧ h1 ≤ h0) ∧
        (updateHorizon c).lki = c.lki) := by
  unfold updateHorizon
  split
  case h_1 h0 h1 horizon smallest =>
    split
    case isTrue rises => exact .inl ⟨h0, h1, horizon, smallest, rises, by simp [settle, releaseFrames]⟩
    case isFalse stays => exact .inr (.inr ⟨.inr ⟨h0, h1, horizon, smallest, Nat.not_lt.mp stays⟩, rfl⟩)
  case h_2 smallest => exact .inr (.inr ⟨.inl smallest, rfl⟩)
  case h_3 h1 horizon smallest => exact .inr (.inl ⟨horizon, h1, smallest, rfl⟩)
  case h_4 smallest => exact .inr (.inr ⟨.inl smallest, rfl⟩)

@[simp] theorem Hub.release_liveNext (h1 : Nat) (h : Hub) : (h.release h1).liveNext = h.liveNext := by
  simp [Hub.liveNext]

theorem Hub.stallBelow_liveNext (lmax lead : Nat) (h : Hub) :
    (h.stallBelow lmax lead).liveNext = h.liveNext ∨ (h.stallBelow lmax lead).liveNext = none := by
  unfold Hub.stallBelow
  split
  · split
    · exact .inr rfl
    · exact .inl rfl
  · exact .inl rfl

/-! ## Sound links (R22 to R32) -/

/-- Sound hubs, with H a frame edge at or below the place of every LIVE hub: what holds of the links before H is
updated. -/
structure Lki.Ordered (l : Lki) : Prop where
  hubs : ∀ h ∈ l.hubs, h.sound = true
  edge : l.horizon.all onEdge = true
  below : ∀ h0, l.horizon = some h0 → ∀ h ∈ l.hubs, ∀ n, h.liveNext = some n → h0 ≤ n

/-- H is the smallest place, and, where it was set before, not below that value. -/
structure Lki.SoundFrom (h0 : Option Nat) (l : Lki) : Prop where
  sound : l.horizonSound
  above : ∀ t, h0 = some t → ∃ t', l.horizon = some t' ∧ t ≤ t'

theorem Lki.SoundFrom.ordered {h0 : Option Nat} {l : Lki} (h : l.SoundFrom h0) : l.Ordered := by
  obtain ⟨hubs, edge, smallest⟩ := h.sound
  refine ⟨List.all_eq_true.mp hubs, edge, fun t horizon k member n place => ?_⟩
  cases least : l.smallestNext with
  | none => simp [Lki.smallestNext_eq_none.mp least k member] at place
  | some m =>
    have same : m = t := by simpa [least, horizon, eq_comm] using smallest (by simp [least])
    exact same ▸ (Lki.smallestNext_eq_some.mp least).2 k member n place

/-- What keeps H and the LIVE places keeps the links sound. -/
theorem Lki.SoundFrom.keeps {h0 : Option Nat} {l l' : Lki} (h : l.SoundFrom h0) (horizon : l'.horizon = l.horizon)
    (places : l'.hubs.map Hub.liveNext = l.hubs.map Hub.liveNext) (hubs : ∀ k ∈ l'.hubs, k.sound = true) :
    l'.SoundFrom h0 := by
  obtain ⟨⟨-, edge, smallest⟩, above⟩ := h
  refine ⟨⟨List.all_eq_true.mpr hubs, by rwa [horizon], ?_⟩, by rwa [horizon]⟩
  rwa [horizon, Lki.smallestNext_of_places places]

/-- Links with no LIVE hub. -/
theorem Lki.SoundFrom.keeps_unplaced {h0 : Option Nat} {l l' : Lki} (h : l.SoundFrom h0)
    (horizon : l'.horizon = l.horizon)
    (hubs : ∀ k ∈ l'.hubs, k.sound = true ∧ k.liveNext = none) : l'.SoundFrom h0 := by
  obtain ⟨⟨-, edge, -⟩, above⟩ := h
  have none_live : l'.smallestNext = none := Lki.smallestNext_eq_none.mpr fun k member => (hubs k member).2
  exact ⟨⟨List.all_eq_true.mpr fun k member => (hubs k member).1, by rwa [horizon], by simp [none_live]⟩,
    by rwa [horizon]⟩

/-- The update of H makes it the smallest place. -/
theorem updateHorizon_soundFrom {h0 : Option Nat} {c : Chip} (h : c.lki.Ordered)
    (above : ∀ t, h0 = some t → ∃ t', c.lki.horizon = some t' ∧ t ≤ t') : (updateHorizon c).lki.SoundFrom h0 := by
  obtain ⟨hubs, edge, below⟩ := h
  have nextEdge {m : Nat} (smallest : c.lki.smallestNext = some m) : onEdge m = true := by
    obtain ⟨⟨k, member, place⟩, -⟩ := Lki.smallestNext_eq_some.mp smallest
    unfold Hub.liveNext at place
    split at place
    case isFalse => cases place
    case isTrue live =>
      obtain ⟨next, placed, -⟩ := (Hub.sound_live live).mp (hubs k member)
      rw [placed.place] at place
      cases place
      exact placed.edge
  obtain ⟨t0, t1, horizon, smallest, rises, raised⟩ | ⟨horizon, t1, smallest, set⟩ | ⟨still, same⟩ :=
    updateHorizon_lki c
  · rw [raised]
    have places : (c.lki.hubs.map (Hub.release t1)).map Hub.liveNext = c.lki.hubs.map Hub.liveNext := by
      rw [List.map_map]
      exact List.map_congr_left fun k _ => Hub.release_liveNext t1 k
    refine ⟨⟨?_, nextEdge smallest, fun _ => ?_⟩, fun t start => ⟨t1, rfl, ?_⟩⟩
    · rw [List.all_map, List.all_eq_true]
      exact fun k member => release_sound t1 (hubs k member)
    · exact smallest.symm.trans (Lki.smallestNext_of_places (l := c.lki) places).symm
    · obtain ⟨t', was, le⟩ := above t start
      cases horizon.symm.trans was
      omega
  · rw [set]
    refine ⟨⟨List.all_eq_true.mpr hubs, nextEdge smallest, fun _ => smallest.symm⟩, fun t start => ?_⟩
    obtain ⟨t', was, -⟩ := above t start
    cases horizon.symm.trans was
  · rw [same]
    refine ⟨⟨List.all_eq_true.mpr hubs, edge, fun some_live => ?_⟩, above⟩
    obtain no_live | ⟨t0, t1, horizon, smallest, low⟩ := still
    · simp [no_live] at some_live
    · obtain ⟨⟨k, member, place⟩, -⟩ := Lki.smallestNext_eq_some.mp smallest
      rw [horizon, smallest, le_antisymm (below t0 horizon k member t1 place) low]

/-- A stalled hub leaves the LIVE hubs, and every other stays. -/
theorem Lki.Ordered.stall {l : Lki} (h : l.Ordered) (lmax : Nat) : (l.stall lmax).Ordered := by
  unfold Lki.stall
  split
  case h_2 => exact h
  case h_1 lead _ =>
    refine ⟨fun k member => ?_, h.edge, fun t horizon k member n place => ?_⟩
    · obtain ⟨g, before, rfl⟩ := List.mem_map.mp member
      exact stallBelow_sound lmax lead (h.hubs g before)
    · obtain ⟨g, before, rfl⟩ := List.mem_map.mp member
      obtain same | gone := Hub.stallBelow_liveNext lmax lead g
      · exact h.below t horizon g before n (same ▸ place)
      · simp [gone] at place

theorem stallCheck_soundFrom {h0 : Option Nat} {c : Chip} (h : c.lki.Ordered)
    (above : ∀ t, h0 = some t → ∃ t', c.lki.horizon = some t' ∧ t ≤ t') : (stallCheck c).lki.SoundFrom h0 :=
  updateHorizon_soundFrom (c := c.onLki (Lki.stall (lmaxInForce c))) (h.stall _) (by simpa using above)

/-! ## One hub changed -/

theorem mem_modifyAt {α : Type} {f : α → α} {l : List α} {i : Nat} {x : α} (member : x ∈ modifyAt f l i) :
    x ∈ l ∨ ∃ y, l[i]? = some y ∧ x = f y := by
  obtain ⟨j, here⟩ := List.mem_iff_getElem?.mp member
  rw [modifyAt_getElem?] at here
  split at here
  case isTrue same =>
    obtain ⟨y, at_j, rfl⟩ := Option.map_eq_some_iff.mp here
    exact .inr ⟨y, same ▸ at_j, rfl⟩
  case isFalse => exact .inl (List.mem_of_getElem? here)

theorem map_modifyAt {α β : Type} {f : α → α} {g : α → β} {l : List α} {i : Nat}
    (same : ∀ x, l[i]? = some x → g (f x) = g x) : (modifyAt f l i).map g = l.map g := by
  refine List.ext_getElem? fun j => ?_
  rw [List.getElem?_map, modifyAt_getElem?, List.getElem?_map]
  split
  case isTrue here =>
    subst here
    cases at_j : l[j]? with
    | none => rfl
    | some x => simp [same x at_j]
  case isFalse => rfl

/-- A change of one hub that keeps it sound and keeps its place, or leaves it none. -/
theorem Lki.Ordered.modify {l : Lki} (h : l.Ordered) (f : Hub → Hub) (n : Nat)
    (sound : ∀ k, l.hubs[n]? = some k → (f k).sound = true)
    (place : ∀ k t m, l.hubs[n]? = some k → l.horizon = some t → (f k).liveNext = some m → t ≤ m) :
    ({ l with hubs := modifyAt f l.hubs n } : Lki).Ordered := by
  refine ⟨fun k member => ?_, h.edge, fun t horizon k member m next => ?_⟩
  · obtain before | ⟨g, at_n, rfl⟩ := mem_modifyAt member
    · exact h.hubs k before
    · exact sound g at_n
  · obtain before | ⟨g, at_n, rfl⟩ := mem_modifyAt member
    · exact h.below t horizon k before m next
    · exact place g t m at_n horizon next

/-- A change of one hub that keeps it sound and keeps its LIVE place. -/
theorem Lki.SoundFrom.modify {h0 : Option Nat} {l : Lki} (h : l.SoundFrom h0) (f : Hub → Hub) (n : Nat)
    (sound : ∀ k, l.hubs[n]? = some k → (f k).sound = true ∧ (f k).liveNext = k.liveNext) :
    ({ l with hubs := modifyAt f l.hubs n } : Lki).SoundFrom h0 :=
  h.keeps rfl (map_modifyAt fun k at_n => (sound k at_n).2)
    (h.ordered.modify f n (fun k at_n => (sound k at_n).1)
      (fun k t m at_n horizon next => h.ordered.below t horizon k (List.mem_of_getElem? at_n) m
        ((sound k at_n).2 ▸ next))).hubs

end Sys2Proof.Machine
end

section
/-! SUPPORT. Sound links (R22 to R32) through the events on the links, the reloads, the bindings and the effects of the
commands. An operation whose frame keeps the links needs no lemma of its own. -/

namespace Sys2Proof.Machine

/-- What leaves the links alone keeps them sound. -/
theorem Lki.SoundFrom.of_eq {h0 : Option Nat} {l l' : Lki} (h : l.SoundFrom h0) (same : l' = l) : l'.SoundFrom h0 :=
  same ▸ h

/-- With H unset no hub is LIVE. -/
theorem Lki.SoundFrom.no_live {h0 : Option Nat} {l : Lki} (h : l.SoundFrom h0) (unset : l.horizon = none) :
    ∀ k ∈ l.hubs, k.liveNext = none := by
  obtain ⟨-, -, smallest⟩ := h.sound
  refine Lki.smallestNext_eq_none.mp ?_
  cases least : l.smallestNext with
  | none => rfl
  | some m => simp [unset, least] at smallest

/-- Links as after a reset. -/
theorem Lki.soundFrom_atReset : Lki.atReset.SoundFrom none := by
  have reset := resetMeetsEveryInvariant
  obtain ⟨-, -, -, links, -⟩ := reset
  exact ⟨links, nofun⟩

/-! ## Frames (R19 to R32) -/

/-- The hub of a port that is there. -/
theorem hubAt_of_some {c : Chip} {n : Nat} {h : Hub} (hub : c.lki.hubs[n]? = some h) : hubAt n c = h := by
  simp [hubAt, List.getD_eq_getElem?_getD, hub]

theorem hubAt_mem (n : Nat) (c : Chip) : hubAt n c = Hub.atReset ∨ hubAt n c ∈ c.lki.hubs := by
  cases hub : c.lki.hubs[n]? with
  | none => exact .inl (by simp [hubAt, List.getD_eq_getElem?_getD, hub])
  | some h => exact .inr (hubAt_of_some hub ▸ List.mem_of_getElem? hub)

/-- The first tick of a good frame is a frame edge (R19). -/
theorem checkFrame_good_edge {port : Nat} {b : List Byte} (good : checkFrame port b = .good) :
    onEdge (frameFirst b) = true := by
  unfold checkFrame at good
  split at good
  · cases good
  · split at good
    · cases good
    · split at good
      · cases good
      · split at good
        · cases good
        case isFalse aligned => simpa [onEdge] using aligned

@[simp] theorem noteGood_liveNext (limit : Nat) (b : List Byte) (h : Hub) :
    (h.noteGood limit b).liveNext = h.liveNext := rfl

theorem takeGoodFrame_soundFrom {h0 : Option Nat} (port : Nat) (b : List Byte) {c : Chip} (h : c.lki.SoundFrom h0)
    (edge : onEdge (frameFirst b) = true) : (takeGoodFrame port b c).lki.SoundFrom h0 := by
  have ordered := h.ordered
  have hub : (hubAt port c).sound = true ∧
      ∀ t n, c.lki.horizon = some t → (hubAt port c).liveNext = some n → t ≤ n := by
    obtain reset | member := hubAt_mem port c
    · rw [reset]
      exact ⟨rfl, nofun⟩
    · exact ⟨ordered.hubs _ member, fun t n horizon next => ordered.below t horizon _ member n next⟩
  obtain ⟨sound, below⟩ := hub
  unfold takeGoodFrame
  dsimp only
  generalize keptIs : keptFrame (expectedLanes (c.tcu.hubEntries.getD port none)) b = f
  have fEdge : onEdge f.firstTick = true := keptIs ▸ edge
  have follows := judgeFrame_follows (silenceInForce c) (frameSeq b)
    (noteGood_sound (silenceInForce c) b sound) fEdge ordered.edge below
  generalize judgeFrame (silenceInForce c) c.lki.horizon f (frameSeq b)
    ((hubAt port c).noteGood (silenceInForce c) b) = j
    at follows
  obtain ⟨judged, hzEdge, kept, joined⟩ := follows
  split
  case isFalse unchecked =>
    obtain ⟨place, horizon⟩ := kept (Bool.eq_false_iff.mpr unchecked)
    rw [noteGood_liveNext] at place
    have modified := h.modify (fun _ => j.hub) port fun k at_port => ⟨judged, hubAt_of_some at_port ▸ place⟩
    rwa [← horizon] at modified
  case isTrue checked =>
    obtain ⟨place, low, same⟩ := joined checked
    refine stallCheck_soundFrom ⟨fun k member => ?_, hzEdge, fun t horizon k member n next => ?_⟩ fun t start => ?_
    · obtain before | ⟨-, -, rfl⟩ := mem_modifyAt member
      · exact ordered.hubs k before
      · exact judged
    · obtain before | ⟨-, -, rfl⟩ := mem_modifyAt member
      · cases was : c.lki.horizon with
        | none => simp [h.no_live was k before] at next
        | some t' => exact ordered.below t ((same (by simp [was])) ▸ horizon) k before n next
      · rw [place] at next
        cases next
        exact low t horizon
    · obtain ⟨t', was, le⟩ := h.above t start
      exact ⟨t', (same (by simp [was])).trans was, le⟩

theorem fallBackHub_soundFrom {h0 : Option Nat} (n : Nat) {c : Chip} (h : c.lki.SoundFrom h0) :
    (fallBackHub n c).lki.SoundFrom h0 :=
  updateHorizon_soundFrom (c := onHub n Hub.fallBack c)
    (h.ordered.modify Hub.fallBack n (fun k _ => fallBack_sound k) nofun) h.above

theorem fallBackIfDue_soundFrom {h0 : Option Nat} (n : Nat) {c : Chip} (h : c.lki.SoundFrom h0) :
    (fallBackIfDue n c).lki.SoundFrom h0 := by
  unfold fallBackIfDue
  split
  · exact fallBackHub_soundFrom n h
  · exact h

/-- A bad frame keeps the LIVE place of its hub. -/
theorem takeBad_liveNext (f : FrameCheck) (h : Hub) : (h.takeBad f).liveNext = h.liveNext := by
  cases state : h.state <;> simp [Hub.takeBad, Hub.count, Hub.liveNext, state]

theorem takeFrame_soundFrom {h0 : Option Nat} (port : Nat) (b : List Byte) {c : Chip} (h : c.lki.SoundFrom h0) :
    (takeFrame port b c).lki.SoundFrom h0 := by
  have due := fallBackIfDue_soundFrom port h
  have bad (f : FrameCheck) : (onHub port (Hub.takeBad f) (fallBackIfDue port c)).lki.SoundFrom h0 :=
    due.modify (Hub.takeBad f) port fun k at_port =>
      ⟨takeBad_sound f (due.ordered.hubs k (List.mem_of_getElem? at_port)), takeBad_liveNext f k⟩
  unfold takeFrame
  dsimp only
  split
  case h_1 good => exact takeGoodFrame_soundFrom port b due (checkFrame_good_edge good)
  all_goals exact bad _

theorem linkEvent_soundFrom {h0 : Option Nat} (f : Chip → Chip) {c : Chip} (h : (f c).lki.SoundFrom h0) :
    (linkEvent f c).lki.SoundFrom h0 := h.of_eq (by simp)

theorem burstEnds_soundFrom {h0 : Option Nat} (port : Nat) (line : List Bool) {c : Chip} (h : c.lki.SoundFrom h0) :
    (burstEnds port line c).lki.SoundFrom h0 := by
  unfold burstEnds
  split
  · exact h
  · split
    · exact linkEvent_soundFrom _ (takeFrame_soundFrom port _ h)
    · exact h

theorem badLimitEvent_soundFrom {h0 : Option Nat} (n : Nat) {c : Chip} (h : c.lki.SoundFrom h0) :
    (badLimitEvent n c).lki.SoundFrom h0 := by
  unfold badLimitEvent
  split
  · exact linkEvent_soundFrom _ (fallBackHub_soundFrom n h)
  · exact h

theorem silenceEvent_soundFrom {h0 : Option Nat} (n : Nat) {c : Chip} (h : c.lki.SoundFrom h0) :
    (silenceEvent n c).lki.SoundFrom h0 := by
  unfold silenceEvent
  split
  · exact linkEvent_soundFrom _ (fallBackHub_soundFrom n h)
  · exact h

/-! ## Commands and tables that act on the hubs (R14, R22, R37) -/

@[simp] theorem seek_liveNext (h : Hub) : h.seek.liveNext = h.liveNext := by
  cases state : h.state <;> simp [Hub.seek, Hub.liveNext, state]

theorem mem_seekEnabled {entries : List (Option HubEntry)} {hubs : List Hub} {k : Hub}
    (member : k ∈ seekEnabled entries hubs) : ∃ h ∈ hubs, k = h ∨ k = h.seek := by
  induction hubs generalizing entries with
  | nil => cases entries <;> simp [seekEnabled] at member
  | cons h hs ih =>
    cases entries with
    | nil => exact ⟨k, member, .inl rfl⟩
    | cons e es =>
      obtain rfl | later := List.mem_cons.mp member
      · refine ⟨h, List.mem_cons_self, ?_⟩
        split
        · exact .inr rfl
        · exact .inl rfl
      · obtain ⟨g, present, either⟩ := ih later
        exact ⟨g, List.mem_cons_of_mem _ present, either⟩

theorem seekEnabled_places (entries : List (Option HubEntry)) (hubs : List Hub) :
    (seekEnabled entries hubs).map Hub.liveNext = hubs.map Hub.liveNext := by
  induction hubs generalizing entries with
  | nil => cases entries <;> rfl
  | cons h hs ih =>
    cases entries with
    | nil => rfl
    | cons e es =>
      simp only [seekEnabled, List.map_cons, ih]
      split <;> simp

theorem seekHubs_soundFrom {h0 : Option Nat} {c : Chip} (h : c.lki.SoundFrom h0) : (seekHubs c).lki.SoundFrom h0 := by
  refine h.keeps rfl (seekEnabled_places _ _) fun k member => ?_
  obtain ⟨g, present, rfl | rfl⟩ := mem_seekEnabled member
  · exact h.ordered.hubs k present
  · exact seek_sound (h.ordered.hubs g present)

theorem disableAll_soundFrom {h0 : Option Nat} {l : Lki} (h : l.SoundFrom h0) : l.disableAll.SoundFrom h0 := by
  refine h.keeps_unplaced rfl fun k member => ?_
  obtain ⟨g, -, rfl⟩ := List.mem_map.mp member
  exact ⟨disable_sound g, rfl⟩

theorem mem_reenterHubs {listening : Bool} {old new : List (Option HubEntry)} {hubs : List Hub} {k : Hub}
    (member : k ∈ reenterHubs listening old new hubs) : ∃ h ∈ hubs, k = h ∨ k = h.disable ∨ k = h.seek := by
  induction hubs generalizing old new with
  | nil => cases old <;> cases new <;> simp [reenterHubs] at member
  | cons h hs ih =>
    match old, new with
    | [], _ => exact ⟨k, by simpa [reenterHubs] using member, .inl rfl⟩
    | _ :: _, [] => exact ⟨k, by simpa [reenterHubs] using member, .inl rfl⟩
    | o :: os, n :: ns =>
      obtain rfl | later := List.mem_cons.mp member
      · refine ⟨h, List.mem_cons_self, ?_⟩
        unfold Hub.reenter
        split
        · exact .inr (.inl rfl)
        · split
          · exact .inr (.inr rfl)
          · exact .inl rfl
      · obtain ⟨g, present, which⟩ := ih later
        exact ⟨g, List.mem_cons_of_mem _ present, which⟩

theorem adoptHubs_soundFrom {h0 : Option Nat} (new : List (Option HubEntry)) {c : Chip} (h : c.lki.SoundFrom h0) :
    (adoptHubs new c).lki.SoundFrom h0 := by
  have ordered := h.ordered
  refine updateHorizon_soundFrom ⟨fun k member => ?_, ordered.edge, fun t horizon k member n next => ?_⟩ h.above
  · obtain ⟨g, present, rfl | rfl | rfl⟩ := mem_reenterHubs member
    · exact ordered.hubs k present
    · exact disable_sound g
    · exact seek_sound (ordered.hubs g present)
  · obtain ⟨g, present, rfl | rfl | rfl⟩ := mem_reenterHubs member
    · exact ordered.below t horizon k present n next
    · cases next
    · exact ordered.below t horizon g present n (seek_liveNext g ▸ next)

theorem hubsAnswered_soundFrom {h0 : Option Nat} (a : Access) (r : Option (List Byte)) {c : Chip}
    (h : c.lki.SoundFrom h0) : (hubsAnswered a r c).lki.SoundFrom h0 := by
  have noted : (noteReloadRead r c).lki.SoundFrom h0 := h.of_eq (by simp)
  unfold hubsAnswered
  dsimp only
  split
  case h_1 reload _ =>
    exact (linkEvent_soundFrom _ (adoptHubs_soundFrom (reloadedHubs reload.got (noteReloadRead r c).tcu.hubEntries)
      noted)).of_eq (by simp [performHubs])
  case h_2 => exact noted

theorem configAnswered_soundFrom {h0 : Option Nat} (a : Access) (r : Option (List Byte)) {c : Chip}
    (h : c.lki.SoundFrom h0) : (configAnswered a r c).lki.SoundFrom h0 := by
  have applied : (applyConfig r c).1.lki.SoundFrom h0 := by
    unfold applyConfig
    split
    · exact h
    · split
      · exact linkEvent_soundFrom _ (stallCheck_soundFrom h.ordered h.above)
      · exact h
  unfold configAnswered
  split
  · exact applied.of_eq (by simp)
  · exact h

theorem progressAnswered_soundFrom {h0 : Option Nat} (a : Access) (r : Option (List Byte)) {c : Chip}
    (h : c.lki.SoundFrom h0) : (progressAnswered a r c).lki.SoundFrom h0 := by
  have completed (d : Chip) (hd : d.lki.SoundFrom h0) : (completeBinding d).lki.SoundFrom h0 := by
    unfold completeBinding
    split
    · unfold succeedBinding
      dsimp only
      split
      · exact linkEvent_soundFrom _ (seekHubs_soundFrom (hd.of_eq (by simp)))
      · exact hd.of_eq (by simp)
    · exact hd
  unfold progressAnswered
  split
  case h_1 w _ => exact (completed (completeProgress w c) (h.of_eq (by simp))).of_eq (by simp)
  case h_2 => exact h

/-! ## The end of an access (R170, R171, R175) -/

theorem handlerOf_soundFrom {h0 : Option Nat} (p : Purpose) (a : Access) (r : Option (List Byte)) {c : Chip}
    (h : c.lki.SoundFrom h0) : (handlerOf p a r c).lki.SoundFrom h0 := by
  cases p with
  | bindSettings | bindGrid | bindHub | bindStation =>
    refine h.of_eq ?_
    simp only [handlerOf, bindTableAnswered]
    split
    · simp
    · split <;> simp
  | reloadHub _ last =>
    cases last with
    | true => exact hubsAnswered_soundFrom a r h
    | false => exact h.of_eq (by simp [handlerOf])
  | reloadConfig => exact configAnswered_soundFrom a r h
  | progressLast => exact progressAnswered_soundFrom a r h
  | reloadGrid _ last | reloadStation _ last => cases last <;> exact h.of_eq (by simp [handlerOf])
  | _ => exact h.of_eq (by simp [handlerOf])

theorem accessEnds_soundFrom {h0 : Option Nat} (p : Purpose) (a : Access) (r : Option (List Byte)) {c : Chip}
    (h : c.lki.SoundFrom h0) : (accessEnds (handlerOf p) a r c).lki.SoundFrom h0 := by
  refine Lki.SoundFrom.of_eq (l := (accessResult (handlerOf p) a r (freeBus c)).lki) ?_ (by simp [accessEnds])
  unfold accessResult
  split
  · split
    · exact h
    · exact handlerOf_soundFrom p a _ h
  · split
    · exact h.of_eq (by simp)
    · unfold accessFails
      split
      · exact disableAll_soundFrom (l := (recordFaultNow _ _ _ _).lki) (h.of_eq (by simp))
      · exact handlerOf_soundFrom p a none (h.of_eq (by simp))

/-! ## The effects of the commands -/

theorem releaseReset_lki (auto : Bool) (dirsel : BitVec 2) (c : Chip) :
    (releaseReset auto dirsel c).lki = Lki.atReset := by cases auto <;> rfl

/-- The event of every command keeps the links sound; a reset and a BIND start H over. -/
theorem eventEffect_soundFrom {h0 : Option Nat} (i : Instr) {c : Chip} (h : c.lki.SoundFrom h0)
    (restarts : startsOver i = true → h0 = none) : (eventEffect i c).lki.SoundFrom h0 := by
  have written (f : Chip → Chip) (effect : (f c).lki.SoundFrom h0) :
      (if c.rgp.resetHeld then c else f c).lki.SoundFrom h0 := by
    split <;> assumption
  have control (code : BitVec 8) (valid : Chip → Bool) (effect : Chip → Chip)
      (keeps : ∀ d : Chip, d.lki.SoundFrom h0 → (effect d).lki.SoundFrom h0) :
      (controlCommand code valid effect c).lki.SoundFrom h0 := by
    unfold controlCommand
    split
    · exact keeps _ h
    · exact h
  have reset (d : Chip) (starts : startsOver i = true) (restarted : d.lki = Lki.atReset) : d.lki.SoundFrom h0 := by
    rw [restarts starts, restarted]
    exact Lki.soundFrom_atReset
  cases i with
  | powerOnReset auto dirsel => exact reset _ rfl (releaseReset_lki auto dirsel c)
  | reset auto dirsel => exact written _ (reset _ rfl (releaseReset_lki auto dirsel c))
  | bind => exact written _ (control _ _ _ fun _ _ => reset _ rfl rfl)
  | powerOnResetHold => exact reset _ rfl rfl
  | listen => exact written _ (control _ _ _ fun _ hd =>
    linkEvent_soundFrom _ (seekHubs_soundFrom (hd.of_eq (by simp))))
  | stop =>
    refine written _ (control _ _ _ fun d hd => ?_)
    exact (disableAll_soundFrom hd).of_eq ((haltDetection_lki d) ▸ (by simp [stopEffect_eq]))
  | nudge => exact written _ (control _ _ _ fun _ hd => hd.of_eq (by simp))
  | refusedCode | causeWrite | maskWrite => exact written _ h
  | dirbaseWrite hi value => exact written (writeDirbase hi value) (h.of_eq (by simp))
  | hubFrameArrival port line => exact burstEnds_soundFrom port.val line h
  | badFrameLimit hub => exact badLimitEvent_soundFrom hub.val h
  | silenceTimerExpiry hub => exact silenceEvent_soundFrom hub.val h
  | cfReadAnswer =>
    exact engineOn_induct (fun d => d.lki.SoundFrom h0) (fun task d hd => hd.of_eq (by simp)) _
      (h.of_eq (l' := (cfAnswered c).1.lki) (by simp))
  | pollTimerExpiry => exact h.of_eq (l' := (pollTimerEvent c).lki) (by simp)
  | noticeCountReached stream => exact h.of_eq (l' := (takeNotice stream c).lki) (by simp)
  | _ => exact h

theorem exec_soundFrom {h0 : Option Nat} (i : Instr) {c d : Chip} {q r : List Instr} (h : c.lki.SoundFrom h0)
    (restarts : startsOver i = true → h0 = none) (next : exec i ⟨c, q⟩ = .next ⟨d, r⟩) : d.lki.SoundFrom h0 := by
  have form : CommandForm i c q (.next ⟨d, r⟩) := next ▸ exec_form i c q
  cases form with
  | ignored => exact h
  | event => exact (eventEffect_soundFrom i h restarts).of_eq (by simp)
  | answered a r _ => exact accessEnds_soundFrom _ a r h

end Sys2Proof.Machine
end

section
/-! PROOFS. The statement that a step keeps the links sound and H from falling (R22 to R35). -/

namespace Sys2Proof.Machine

/-- A step keeps the links sound from any start of H that the command in front does not start over. -/
theorem step_soundFrom {h0 : Option Nat} {c d : Chip} {pending rest : List Instr} (h : c.lki.SoundFrom h0)
    (restarts : h0 = none ∨ pending.head?.all (fun i => !startsOver i) = true)
    (next : step ⟨c, pending⟩ = .next ⟨d, rest⟩) : d.lki.SoundFrom h0 := by
  cases pending with
  | nil =>
    cases next
    exact h
  | cons i q =>
    refine exec_soundFrom i h (fun starts => restarts.resolve_right ?_) next
    simp [starts]

/-- Settles O56: the links stay sound from H as it was, and from H unset where the command starts H over. -/
theorem horizonIsTheSmallestNextTickAndNeverFalls : Obligations.HorizonIsTheSmallestNextTickAndNeverFalls := by
  rintro ⟨c, pending⟩ ⟨d, rest⟩ sound next
  refine ⟨(step_soundFrom (h0 := none) ⟨sound, nofun⟩ (.inl rfl) next).sound, fun h0 horizon keeps => ?_⟩
  have from_h0 : c.lki.SoundFrom (some h0) := ⟨sound, by rintro t ⟨⟩; exact ⟨h0, horizon, le_rfl⟩⟩
  exact (step_soundFrom from_h0 (.inr keeps) next).above h0 rfl

end Sys2Proof.Machine
end

section
/-! SUPPORT. A burst on a link port (R18, R19): the checks in their order, the command that presents a burst, and what a
good frame leaves of the links. -/

namespace Sys2Proof.Machine

/-! ## The checks (R19) -/

theorem frameLengthValid_iff (b : List Byte) :
    frameLengthValid b = true ↔ 1 ≤ byteAt b 3 ∧ byteAt b 3 ≤ 16 ∧ b.length = 14 + 75 * byteAt b 3 := by
  simp only [frameLengthValid, inRange, Bool.and_eq_true, decide_eq_true_eq, beq_iff_eq, and_assoc]
  rfl

/-- A frame of a wrong length fails the first check. -/
theorem checkFrame_length {port : Nat} {b : List Byte}
    (short : ¬ (1 ≤ byteAt b 3 ∧ byteAt b 3 ≤ 16 ∧ b.length = 14 + 75 * byteAt b 3)) :
    checkFrame port b = .lengthError := by
  rw [← frameLengthValid_iff] at short
  simp [checkFrame, short]

/-- The other three checks, in their order. -/
theorem checkFrame_eq {port : Nat} {b : List Byte}
    (whole : 1 ≤ byteAt b 3 ∧ byteAt b 3 ≤ 16 ∧ b.length = 14 + 75 * byteAt b 3) :
    checkFrame port b =
      if crcOf ((b.drop 2).take (10 + 75 * byteAt b 3)) = BitVec.ofNat 16 (leValue b (12 + 75 * byteAt b 3) 2) then
        if byteAt b 2 ≠ port then .misrouted else if leValue b 6 6 % 25 ≠ 0 then .misaligned else .good
      else .crcFailure := by
  rw [← frameLengthValid_iff] at whole
  unfold checkFrame
  simp only [whole, Bool.not_true, Bool.false_eq_true, if_false, frameCrcValid, frameLanes, Bool.not_eq_true',
    beq_eq_false_iff_ne, frameFirst]
  split
  · rfl
  case isFalse right => exact (if_pos (not_not.mp right)).symm

/-! ## The command (R18) -/

/-- A burst for a DISABLED hub, and one that is no frame, leave a settled part as it is. -/
theorem exec_hubFrameArrival_ignored {c : Chip} {port : Fin 16} {line : List Bool} (q : List Instr)
    (settled : c.settled) (ignored : (hubAt port.val c).state = .disabled ∨ frameOf line = none) :
    exec (.hubFrameArrival port line) ⟨c, q⟩ = .next ⟨c, q⟩ := by
  have same : burstEnds port.val line c = c := by
    unfold burstEnds
    split
    · rfl
    case isFalse enabled => simp [ignored.resolve_left enabled]
  simp only [exec, execHubFrameArrival, commandStep_next, same, concludeStep_of_settled c settled]

/-- A frame for a hub that is not DISABLED is judged. -/
theorem exec_hubFrameArrival {c : Chip} {port : Fin 16} {line : List Bool} {h : Hub} {b : List Byte} (q : List Instr)
    (hub : c.lki.hubs[port.val]? = some h) (enabled : h.state ≠ .disabled) (frame : frameOf line = some b) :
    exec (.hubFrameArrival port line) ⟨c, q⟩ =
      .next ⟨concludeStep (linkEvent (takeFrame port.val b) c), q⟩ := by
  have judged : burstEnds port.val line c = linkEvent (takeFrame port.val b) c := by
    simp [burstEnds, hubAt_of_some hub, enabled, frame]
  simp only [exec, execHubFrameArrival, commandStep_next, judged]

/-- An event that keeps the states of the hubs is not noted (R38). -/
theorem linkEvent_quiet {f : Chip → Chip} {c : Chip} (same : hubStates (f c) = hubStates c) : linkEvent f c = f c := by
  simp [linkEvent, noteLinkChange, same]

/-- An event that leaves the part settled, with the states of the hubs as they were. -/
theorem concludeStep_linkEvent_quiet {f : Chip → Chip} {c : Chip} (settled : (f c).settled)
    (same : hubStates (f c) = hubStates c) : concludeStep (linkEvent f c) = f c := by
  rw [linkEvent_quiet same, concludeStep_of_settled _ settled]

/-- An event that changes the state of a hub in BOUND, LISTENING or STOPPING raises LINK (R38). -/
theorem linkEvent_raises {f : Chip → Chip} {c : Chip} (active : (f c).active = true)
    (changed : hubStates (f c) ≠ hubStates c) : (concludeStep (linkEvent f c)).raised causeLink := by
  simpa [Chip.raised, linkEvent] using noteLinkChange_links active changed

/-! ## One hub in its place -/

theorem withHub_settled {c : Chip} (n : Nat) (h : Hub) (settled : c.settled) : (c.withHub n h).settled := settled

/-- A change of one hub that is there. -/
theorem onHub_of_some {c : Chip} {n : Nat} {h : Hub} (f : Hub → Hub) (hub : c.lki.hubs[n]? = some h) :
    onHub n f c = c.withHub n (f h) := by
  simp [onHub, Chip.onLki, Chip.withHub, modifyAt_some f _ n h hub]

/-- A hub put in its place in the state it had. -/
theorem withHub_states {c : Chip} {n : Nat} {h g : Hub} (hub : c.lki.hubs[n]? = some h) (state : g.state = h.state) :
    hubStates (c.withHub n g) = hubStates c := by
  refine List.ext_getElem? fun i => ?_
  simp only [hubStates, Chip.withHub, List.getElem?_map, List.getElem?_set]
  split
  case isTrue here =>
    subst here
    obtain ⟨present, rfl⟩ := List.getElem?_eq_some_iff.mp hub
    simp [state, present]
  case isFalse => rfl

/-- States that differ at one hub. -/
theorem hubStates_ne {c d : Chip} {n : Nat} {h g : Hub} (before : c.lki.hubs[n]? = some h)
    (after : d.lki.hubs[n]? = some g) (state : g.state ≠ h.state) : hubStates d ≠ hubStates c := by
  intro same
  have at_n : (hubStates d)[n]? = (hubStates c)[n]? := by rw [same]
  simp [hubStates, before, after] at at_n
  exact state at_n

/-! ## A good frame (R21 to R25, R32) -/

/-- What a good frame at a hub comes to. -/
def Chip.judged (c : Chip) (port : Nat) (b : List Byte) (h : Hub) : Judged :=
  judgeFrame (silenceInForce c) c.lki.horizon (keptFrame (expectedLanes (c.tcu.hubEntries.getD port none)) b)
    (frameSeq b)
    (h.noteGood (silenceInForce c) b)

/-- A hub not due to fall back takes its frame at once. -/
theorem takeFrame_good {c : Chip} {port : Nat} {b : List Byte} {h : Hub} (hub : c.lki.hubs[port]? = some h)
    (settled : h.atBadLimit = false) (good : checkFrame port b = .good) :
    takeFrame port b c = takeGoodFrame port b c := by
  simp [takeFrame, fallBackIfDue, hubAt_of_some hub, settled, good]

/-- A good frame that no hub keeps changes its hub alone. -/
theorem takeGoodFrame_unchecked {c : Chip} {port : Nat} {b : List Byte} {h : Hub} (hub : c.lki.hubs[port]? = some h)
    (unchecked : (c.judged port b h).check = false) (stays : (c.judged port b h).horizon = c.lki.horizon) :
    takeGoodFrame port b c = c.withHub port (c.judged port b h).hub := by
  rw [← hubAt_of_some hub] at unchecked stays ⊢
  simp only [Chip.judged] at unchecked stays
  simp only [takeGoodFrame, unchecked, stays, modifyAt_const, Chip.judged, Bool.false_eq_true, if_false]
  rfl

/-- A good frame that its hub keeps is followed by the stall check and the update of H (R31). -/
theorem takeGoodFrame_checked {c : Chip} {port : Nat} {b : List Byte} {h : Hub} (hub : c.lki.hubs[port]? = some h)
    (checked : (c.judged port b h).check = true) :
    takeGoodFrame port b c = updateHorizon { c with
      lki := Lki.stall (lmaxInForce c) ⟨c.lki.hubs.set port (c.judged port b h).hub,
        (c.judged port b h).horizon⟩ } := by
  rw [← hubAt_of_some hub] at checked ⊢
  simp only [Chip.judged] at checked
  simp only [takeGoodFrame, checked, modifyAt_const, Chip.judged, if_true]
  rfl

/-- The command of a good frame that no hub keeps, in a settled part: the hub put in its place. -/
theorem exec_goodFrame_unchecked {c : Chip} {port : Fin 16} {line : List Bool} {h g : Hub} {b : List Byte}
    (q : List Instr) (settled : c.settled) (hub : c.lki.hubs[port.val]? = some h) (enabled : h.state ≠ .disabled)
    (notDue : h.atBadLimit = false) (frame : frameOf line = some b) (good : checkFrame port.val b = .good)
    (judged : c.judged port.val b h = ⟨g, false, c.lki.horizon⟩) (state : g.state = h.state) :
    exec (.hubFrameArrival port line) ⟨c, q⟩ = .next ⟨c.withHub port.val g, q⟩ := by
  have taken : takeFrame port.val b c = c.withHub port.val g := by
    rw [takeFrame_good hub notDue good, takeGoodFrame_unchecked hub (by rw [judged]) (by rw [judged]), judged]
  rw [exec_hubFrameArrival q hub enabled frame, concludeStep_linkEvent_quiet
    (by rw [taken]; exact withHub_settled _ _ settled)
    (by rw [taken]; exact withHub_states hub state), taken]

end Sys2Proof.Machine
end

section
/-! PROOFS. The statements about the checks of a frame, the provisional frame, duplicates and late frames, and the fall
back (R18 to R28, R32, R38). -/

namespace Sys2Proof.Machine

/-! ## Bad frames -/

/-- The command of a bad frame for a hub that is not due to fall back, in a settled part. -/
theorem exec_badFrame {c : Chip} {port : Fin 16} {line : List Bool} {h : Hub} {b : List Byte} (q : List Instr)
    (settled : c.settled) (hub : c.lki.hubs[port.val]? = some h) (enabled : h.state ≠ .disabled)
    (notDue : h.atBadLimit = false) (frame : frameOf line = some b) (bad : checkFrame port.val b ≠ .good) :
    exec (.hubFrameArrival port line) ⟨c, q⟩ =
      .next ⟨c.withHub port.val (h.takeBad (checkFrame port.val b)), q⟩ := by
  have taken : takeFrame port.val b c = c.withHub port.val (h.takeBad (checkFrame port.val b)) := by
    rw [← onHub_of_some _ hub]
    cases check : checkFrame port.val b <;> simp_all [takeFrame, fallBackIfDue, hubAt_of_some hub]
  have state : (h.takeBad (checkFrame port.val b)).state = h.state := by
    cases was : h.state <;> simp [Hub.takeBad, Hub.count, was]
  rw [exec_hubFrameArrival q hub enabled frame, concludeStep_linkEvent_quiet
    (by rw [taken]; exact withHub_settled _ _ settled)
    (by rw [taken]; exact withHub_states hub state), taken]

/-- Settles O18: the checks in their order, a burst that is ignored, and a bad frame at its hub. -/
theorem framesAreCheckedInOrder : Obligations.FramesAreCheckedInOrder := by
  refine ⟨fun port b => ⟨checkFrame_length, fun whole => ⟨fun wrong => ?_, fun right => ?_⟩⟩,
    fun c q port line settled => ⟨exec_hubFrameArrival_ignored q settled, fun h b hub enabled notDue frame bad => ?_⟩⟩
  · rw [checkFrame_eq whole, if_neg wrong]
  · rw [checkFrame_eq whole, if_pos right]
  · rw [exec_badFrame q settled hub enabled notDue frame bad]
    split
    case isTrue seeking => rw [takeBad_seeking _ seeking]
    case isFalse other =>
      rw [takeBad_placed]
      cases state : h.state <;> simp_all [HubState.placed]

/-! ## Good frames that no hub keeps -/

/-- A SEEKING hub is not due to fall back. -/
theorem atBadLimit_of_seeking {h : Hub} (seeking : h.state = .seeking) : h.atBadLimit = false := by
  simp [Hub.atBadLimit, seeking, HubState.placed]

/-- Settles O19: the frame is stored, or discarded with the provisional frame. -/
theorem seekingHubHoldsOneProvisionalFrame : Obligations.SeekingHubHoldsOneProvisionalFrame := by
  intro c q port line h b settled hub seeking frame good
  have unplaced : h.state.placed = false := by rw [seeking]; rfl
  have command (g : Hub) (state : g.state = h.state) (judged : c.judged port.val b h = ⟨g, false, c.lki.horizon⟩) :=
    exec_goodFrame_unchecked q settled hub (by simp [seeking]) (atBadLimit_of_seeking seeking) frame good judged state
  refine ⟨fun apart => command _ rfl ?_, fun first hz seq marker follows horizon late => command _ rfl ?_⟩
  · rw [Chip.judged, noteGood_unplaced _ b unplaced]
    simp only [judgeFrame, seeking, judgeSeeking]
    cases marker : h.marker with
    | none => rfl
    | some m =>
      have apart : frameFirst b ≠ m.1 + 25 := by
        have apart : m.1 + 25 ≠ frameFirst b := by simpa [marker, frameFirst] using apart
        exact apart.symm
      exact if_neg apart
  · rw [Chip.judged, noteGood_unplaced _ b unplaced]
    have below : (keptFrame (expectedLanes (c.tcu.hubEntries.getD port.val none)) b).below hz = true := by
      rw [Frame.below_iff]
      change leValue b 6 6 + 25 ≤ hz
      omega
    have follows : (keptFrame (expectedLanes (c.tcu.hubEntries.getD port.val none)) b).firstTick = first + frameTicks :=
      follows
    simp only [judgeFrame, seeking, judgeSeeking, marker, follows, if_true, judgeAdmission, horizon, below]
    rfl

/-- Settles O21: below next_tick the frame is a duplicate, and wholly below H it is late. -/
theorem duplicateAndLateFramesAreDiscarded : Obligations.DuplicateAndLateFramesAreDiscarded := by
  intro c q port line h b next settled hub notDue place frame good
  have command (g : Hub) (placed : h.state.placed = true) (state : g.state = h.state)
      (judged : c.judged port.val b h = ⟨g, false, c.lki.horizon⟩) :=
    exec_goodFrame_unchecked q settled hub (fun disabled => by simp [disabled, HubState.placed] at placed) notDue frame
      good judged state
  refine ⟨fun either below => ?_, fun hz stalled reached horizon late => ?_⟩
  · have placed : h.state.placed = true := by rcases either with state | state <;> rw [state] <;> rfl
    refine command _ placed rfl ?_
    have below : (keptFrame (expectedLanes (c.tcu.hubEntries.getD port.val none)) b).firstTick < next := below
    rw [Chip.judged, noteGood_placed _ b placed]
    rcases either with state | state
    · simp only [judgeFrame, state, judgeLive, place, Option.getD_some, below, if_true]
      rfl
    · simp only [judgeFrame, state, judgeStalled, place, Option.getD_some, below, if_true]
      rfl
  · have placed : h.state.placed = true := by rw [stalled]; rfl
    refine command _ placed rfl ?_
    have reached : ¬ (keptFrame (expectedLanes (c.tcu.hubEntries.getD port.val none)) b).firstTick < next :=
      Nat.not_lt.mpr reached
    have late : (keptFrame (expectedLanes (c.tcu.hubEntries.getD port.val none)) b).below hz = true :=
      Frame.below_iff.mpr late
    rw [Chip.judged, noteGood_placed _ b placed]
    simp only [judgeFrame, stalled, judgeStalled, place, horizon, Option.getD_some, reached, late, if_true, if_false,
      Hub.takeLate, testSlip_eq, Hub.movePast, Hub.count, Option.some.injEq]
    rfl

/-! ## The fall back -/

/-- The update of H does not lower it (R30). -/
theorem updateHorizon_rises {c : Chip} {hz : Nat} (horizon : c.lki.horizon = some hz) :
    ∃ h1, (updateHorizon c).lki.horizon = some h1 ∧ hz ≤ h1 := by
  obtain ⟨h0, h1, was, -, rises, raised⟩ | ⟨unset, -⟩ | ⟨-, same⟩ := updateHorizon_lki c
  · cases horizon.symm.trans was
    exact ⟨h1, by rw [raised], rises.le⟩
  · cases horizon.symm.trans unset
  · exact ⟨hz, by rw [same, horizon], le_rfl⟩

/-- A hub that falls back (R28). -/
theorem fallBackHub_hub {c : Chip} {n : Nat} {h : Hub} (hub : c.lki.hubs[n]? = some h) :
    (fallBackHub n c).lki.hubs[n]? = some h.fallBack :=
  updateHorizon_empty (c := onHub n Hub.fallBack c) (by simp [onHub, modifyAt_getElem?, hub]) rfl

/-- The other hubs keep their states. -/
theorem fallBackHub_others (c : Chip) {n m : Nat} (other : m ≠ n) :
    ((fallBackHub n c).lki.hubs[m]?).map Hub.state = (c.lki.hubs[m]?).map Hub.state := by
  have placed := congrArg (Option.map Prod.fst) (updateHorizon_placed (onHub n Hub.fallBack c) m)
  simpa [fallBackHub, onHub, modifyAt_getElem?, other, Function.comp_def] using placed

theorem fallBackHub_active (n : Nat) (c : Chip) : (fallBackHub n c).active = c.active := by
  simp [fallBackHub, updateHorizon_active]

/-- A hub that was LIVE or STALLED is in another state. -/
theorem seeking_ne_of_placed {h : Hub} (placed : h.state.placed = true) : HubState.seeking ≠ h.state := by
  intro seeking
  simp [← seeking, HubState.placed] at placed

/-- What a fall back comes to by the end of its command. -/
theorem concludeStep_fallBack {c : Chip} {n : Nat} {h : Hub} (hub : c.lki.hubs[n]? = some h)
    (placed : h.state.placed = true) :
    let d := concludeStep (linkEvent (fallBackHub n) c)
    d.lki.hubs[n]? = some h.fallBack ∧
      (∀ hz, c.lki.horizon = some hz → ∃ h1, d.lki.horizon = some h1 ∧ hz ≤ h1) ∧
      (∀ m, m ≠ n → (d.lki.hubs[m]?).map Hub.state = (c.lki.hubs[m]?).map Hub.state) ∧
      (c.active = true → d.raised causeLink) := by
  intro d
  have lki : d.lki = (fallBackHub n c).lki := by simp [d]
  rw [lki]
  exact ⟨fallBackHub_hub hub, fun hz horizon => updateHorizon_rises (c := onHub n Hub.fallBack c)
    (by simpa using horizon),
    fun m other => fallBackHub_others c other, fun active => linkEvent_raises (by rwa [fallBackHub_active])
      (hubStates_ne hub (fallBackHub_hub hub) (seeking_ne_of_placed placed))⟩

/-- A frame for a SEEKING hub without a marker leaves it SEEKING. -/
theorem takeFrame_seeking {c : Chip} {n : Nat} {h : Hub} (b : List Byte) (hub : c.lki.hubs[n]? = some h)
    (seeking : h.state = .seeking) (unmarked : h.marker = none) :
    ∃ g, takeFrame n b c = c.withHub n g ∧ g.state = .seeking := by
  have unplaced : h.state.placed = false := by rw [seeking]; rfl
  have bad (f : FrameCheck) : ∃ g, onHub n (Hub.takeBad f) c = c.withHub n g ∧ g.state = .seeking :=
    ⟨_, onHub_of_some _ hub, by rw [takeBad_seeking f seeking]; exact seeking⟩
  have taken : takeFrame n b c = match checkFrame n b with
      | .good => takeGoodFrame n b c
      | check => onHub n (Hub.takeBad check) c := by
    cases check : checkFrame n b <;> simp [takeFrame, fallBackIfDue, hubAt_of_some hub, atBadLimit_of_seeking seeking,
      check]
  rw [taken]
  split
  · let f := keptFrame (expectedLanes (c.tcu.hubEntries.getD n none)) b
    have judged : c.judged n b h = ⟨(h.noteGood (silenceInForce c) b).storeProvisional f (frameSeq b), false,
        c.lki.horizon⟩ := by
      rw [Chip.judged, noteGood_unplaced _ b unplaced]
      simp only [judgeFrame, seeking, judgeSeeking, unmarked]
      rfl
    exact ⟨_, takeGoodFrame_unchecked hub (by rw [judged]) (by rw [judged]), by rw [judged]; exact seeking⟩
  · exact bad _

/-- Settles O23: the two events that are not due, the fall back, and a frame at a hub whose fall back is due. -/
theorem hubFallsBackToSeeking : Obligations.HubFallsBackToSeeking := by
  intro c q n h hub
  have at_n := hubAt_of_some hub
  refine ⟨fun settled notDue => ?_, fun settled stopped => ?_, fun i due => ?_, fun line b placed due frame => ?_⟩
  · have idle : badLimitEvent n.val c = c := if_neg (by simpa [at_n, Hub.atBadLimit, badFrameLimitCount] using notDue)
    simp only [exec, execBadFrameLimit, commandStep_next, idle, concludeStep_of_settled c settled]
  · have idle : silenceEvent n.val c = c := if_neg (by simpa [at_n, Hub.timerRuns] using stopped)
    simp only [exec, execSilenceTimerExpiry, commandStep_next, idle, concludeStep_of_settled c settled]
  · have falls : exec i ⟨c, q⟩ = .next ⟨concludeStep (linkEvent (fallBackHub n.val) c), q⟩ := by
      rcases due with ⟨rfl, placed, due⟩ | ⟨rfl, placed, runs⟩
      · have acts : badLimitEvent n.val c = linkEvent (fallBackHub n.val) c :=
          if_pos (by simp [at_n, Hub.atBadLimit, badFrameLimitCount, placed, due])
        simp only [exec, execBadFrameLimit, commandStep_next, acts]
      · have acts : silenceEvent n.val c = linkEvent (fallBackHub n.val) c :=
          if_pos (by simp [at_n, Hub.timerRuns, placed, runs])
        simp only [exec, execSilenceTimerExpiry, commandStep_next, acts]
    have placed : h.state.placed = true := by rcases due with ⟨-, placed, -⟩ | ⟨-, placed, -⟩ <;> exact placed
    exact ⟨_, falls, concludeStep_fallBack hub placed⟩
  · have enabled : h.state ≠ .disabled := fun disabled => by simp [disabled, HubState.placed] at placed
    obtain ⟨g, stored, seeking⟩ := takeFrame_seeking b (fallBackHub_hub hub) rfl rfl
    have taken : takeFrame n.val b c = (fallBackHub n.val c).withHub n.val g := by
      rw [← stored]
      have due : h.atBadLimit = true := by simp [Hub.atBadLimit, badFrameLimitCount, placed, due]
      have rests : h.fallBack.atBadLimit = false := atBadLimit_of_seeking rfl
      simp [takeFrame, fallBackIfDue, at_n, due, hubAt_of_some (fallBackHub_hub hub), rests]
    have after : (takeFrame n.val b c).lki.hubs[n.val]? = some g := by
      obtain ⟨present, -⟩ := List.getElem?_eq_some_iff.mp (fallBackHub_hub hub)
      simp [taken, Chip.withHub, present]
    refine ⟨_, exec_hubFrameArrival q hub enabled frame, by simp [after, seeking], fun active => ?_⟩
    refine linkEvent_raises ?_ (hubStates_ne hub after (seeking ▸ seeking_ne_of_placed placed))
    rw [taken]
    exact (fallBackHub_active n.val c).trans active

end Sys2Proof.Machine
end

section
/-! SUPPORT. A frame that its hub keeps (R24, R25, R29 to R33): the stall check leaves the hub LIVE when no other is
more than Lmax ahead, and the update of H releases its frames below the new H. -/

namespace Sys2Proof.Machine

theorem Hub.liveNext_of_live {h : Hub} (live : h.state = .live) : h.liveNext = h.nextTick := if_pos live

/-- A place comes from a LIVE hub. -/
theorem Hub.liveNext_eq_some {h : Hub} {n : Nat} : h.liveNext = some n ↔ h.state = .live ∧ h.nextTick = some n := by
  simp [Hub.liveNext]

theorem maxOf_eq_none {l : List Nat} : maxOf l = none ↔ l = [] := by cases l <;> simp [maxOf]

/-- With a LIVE hub there is a lead tick, at or above its place. -/
theorem Lki.lead_of_live {l : Lki} {g : Hub} {e : Nat} (member : g ∈ l.hubs) (place : g.liveNext = some e) :
    ∃ lead, l.lead = some lead ∧ e ≤ lead := by
  cases leads : l.lead with
  | some lead => exact ⟨lead, rfl, (Lki.lead_eq_some.mp leads).2 g member e place⟩
  | none =>
    have empty : l.hubs.filterMap Hub.liveNext = [] := maxOf_eq_none.mp leads
    simp [List.filterMap_eq_nil_iff.mp empty g member] at place

/-- The stall check keeps a LIVE hub that no other is more than Lmax ahead of. -/
theorem stall_keeps_near {l : Lki} {lmax n e : Nat} {g : Hub} (hub : l.hubs[n]? = some g) (next : g.nextTick = some e)
    (near : ∀ k ∈ l.hubs, k.state = .live → k.nextTick.getD 0 ≤ e + lmax) : (l.stall lmax).hubs[n]? = some g := by
  refine stall_keeps hub (.inr fun m lead place leads => ?_)
  cases next.symm.trans place
  obtain ⟨⟨k, member, at_lead⟩, -⟩ := Lki.lead_eq_some.mp leads
  obtain ⟨live, place⟩ := Hub.liveNext_eq_some.mp at_lead
  simpa [place] using near k member live

/-- The frames that are not wholly below a tick. -/
theorem Frame.not_below (h1 : Nat) (f : Frame) : (!f.below h1) = decide (h1 < f.firstTick + 25) := by
  rw [Bool.eq_iff_iff, Bool.not_eq_true', Bool.eq_false_iff, ne_eq, Frame.below_iff, decide_eq_true_iff]
  omega

/-- The update of H at a LIVE hub: H does not fall, and the hub releases its frames where H rises. -/
theorem updateHorizon_live {c : Chip} {n hz : Nat} {g : Hub} (hub : c.lki.hubs[n]? = some g) (live : g.state = .live)
    (horizon : c.lki.horizon = some hz) :
    ∃ h1, (updateHorizon c).lki.horizon = some h1 ∧ hz ≤ h1 ∧ (updateHorizon c).lki.hubs[n]? = some { g with
      buffer := if h1 = hz then g.buffer else g.buffer.filter fun f => decide (h1 < f.firstTick + 25) } := by
  obtain ⟨h0, h1, was, -, rises, raised⟩ | ⟨unset, -⟩ | ⟨-, same⟩ := updateHorizon_lki c
  · cases horizon.symm.trans was
    have released : g.release h1 = { g with buffer := g.buffer.filter fun f => decide (h1 < f.firstTick + 25) } := by
      simp only [Hub.release, live, reduceCtorEq, if_false, Frame.not_below]
    exact ⟨h1, by rw [raised], rises.le, by simp [raised, hub, released, rises.ne']⟩
  · cases horizon.symm.trans unset
  · exact ⟨hz, by rw [same, horizon], le_rfl, by simp [same, hub]⟩

/-- The links with a kept frame at its hub, before the stall check. -/
def Chip.kept (c : Chip) (port : Nat) (j : Judged) : Lki := ⟨c.lki.hubs.set port j.hub, j.horizon⟩

/-- A good frame that is kept: the stall check follows, the hub is LIVE with its place at the frame's end, and H is
set. -/
structure Judged.Keeps (j : Judged) (e hz : Nat) : Prop where
  checked : j.check = true
  live : j.hub.state = .live
  next : j.hub.nextTick = some e
  horizon : j.horizon = some hz

/-- What the command of a good frame that its hub keeps comes to: the stall check and the update of H on the links with
the frame kept, with the notice of the hubs whose state changed. -/
theorem exec_goodFrame_kept {c : Chip} {port : Fin 16} {line : List Bool} {h : Hub} {b : List Byte} {e hz : Nat}
    (q : List Instr) (hub : c.lki.hubs[port.val]? = some h) (enabled : h.state ≠ .disabled)
      (notDue : h.atBadLimit = false)
    (frame : frameOf line = some b) (good : checkFrame port.val b = .good)
    (keeps : (c.judged port.val b h).Keeps e hz)
    (near : ∀ g ∈ c.lki.hubs, g.state = .live → g.nextTick.getD 0 ≤ e + lmaxInForce c) :
    let j := c.judged port.val b h
    let checked := Lki.stall (lmaxInForce c) (c.kept port.val j)
    ∃ d h1, exec (.hubFrameArrival port line) ⟨c, q⟩ = .next ⟨d, q⟩ ∧
      d.lki = (updateHorizon { c with lki := checked }).lki ∧ d.chc = (updateHorizon { c with lki := checked }).chc ∧
      d.lki.horizon = some h1 ∧ hz ≤ h1 ∧
      d.lki.hubs[port.val]? = some { j.hub with
        buffer := if h1 = hz then j.hub.buffer else j.hub.buffer.filter fun f => decide (h1 < f.firstTick + 25) } ∧
      (c.active = true → d.lki.hubs.map Hub.state ≠ c.lki.hubs.map Hub.state → d.raised causeLink) := by
  intro j checked
  obtain ⟨present, -⟩ := List.getElem?_eq_some_iff.mp hub
  have at_port : (c.kept port.val j).hubs[port.val]? = some j.hub := by simp [Chip.kept, present]
  have near : ∀ k ∈ (c.kept port.val j).hubs, k.state = .live → k.nextTick.getD 0 ≤ e + lmaxInForce c := by
    intro k member live
    obtain before | rfl := List.mem_or_eq_of_mem_set member
    · exact near k before live
    · simp [j, keeps.next]
  have stays : checked.hubs[port.val]? = some j.hub := stall_keeps_near at_port keeps.next near
  have horizon : checked.horizon = some hz := (Lki.stall_horizon _ _).trans keeps.horizon
  obtain ⟨h1, raised, rises, after⟩ := updateHorizon_live (c := { c with lki := checked }) stays keeps.live horizon
  have taken : takeFrame port.val b c = updateHorizon { c with lki := checked } := by
    rw [takeFrame_good hub notDue good, takeGoodFrame_checked hub keeps.checked]
    rfl
  have blocks : (concludeStep (linkEvent (takeFrame port.val b) c)).lki =
    (updateHorizon { c with lki := checked }).lki ∧
      (concludeStep (linkEvent (takeFrame port.val b) c)).chc = (updateHorizon { c with lki := checked }).chc := by
    simp [taken]
  obtain ⟨lki, chc⟩ := blocks
  refine ⟨_, h1, exec_hubFrameArrival q hub enabled frame, lki, chc, lki ▸ raised, rises, lki ▸ after,
    fun active changed => linkEvent_raises ?_ ?_⟩
  · rw [taken, updateHorizon_active]
    exact active
  · rw [lki] at changed
    rw [taken]
    exact changed

end Sys2Proof.Machine
end

section
/-! PROOFS. The statements about the admission of a hub and about a frame that a LIVE or STALLED hub keeps (R22, R24,
R25, R29 to R33, R38). -/

namespace Sys2Proof.Machine

/-! ## Admission (R24) -/

/-- The slip test of an admission. -/
theorem countSlip_some (last seq : BitVec 8) (n : LinkCounters) :
    countSlip (some last) seq n = { n with slips := if last + 1 = seq then n.slips else countUp n.slips } := by
  simp only [countSlip, Option.map_some, Option.some.injEq]
  split <;> rfl

/-- The second of two consecutive frames, not wholly below H, admits the hub. -/
theorem judged_admission {c : Chip} {port : Nat} {b : List Byte} {h : Hub} {first : Nat} {seq : BitVec 8}
    (seeking : h.state = .seeking) (marker : h.marker = some (first, seq)) (follows : leValue b 6 6 = first + 25)
    (ahead : ∀ hz, c.lki.horizon = some hz → hz < first + 50) :
    c.judged port b h =
      ⟨({ h with actualLanes := byteAt b 3, counters := countGood b h.counters } : Hub).allow (silenceInForce c)
        (c.lki.horizon.getD first) seq (keptFrame (expectedLanes (c.tcu.hubEntries.getD port none)) b) (frameSeq b),
          true,
        some (c.lki.horizon.getD first)⟩ := by
  have follows : (keptFrame (expectedLanes (c.tcu.hubEntries.getD port none)) b).firstTick = first + frameTicks :=
    follows
  rw [Chip.judged, noteGood_unplaced _ b (by rw [seeking]; rfl)]
  simp only [judgeFrame, seeking, judgeSeeking, marker, follows, if_true, judgeAdmission]
  cases horizon : c.lki.horizon with
  | none => rfl
  | some hz =>
    have low := ahead hz horizon
    have notBelow : (keptFrame (expectedLanes (c.tcu.hubEntries.getD port none)) b).below hz = false := by
      rw [Bool.eq_false_iff, ne_eq, Frame.below_iff, follows, frameTicks]
      omega
    simp only [notBelow, Bool.false_eq_true, if_false, Option.getD_some]

/-- With no hub LIVE before, an admission makes the joins hub's place the smallest. -/
theorem kept_smallestNext {c : Chip} {port lmax e : Nat} {j : Judged} (present : port < c.lki.hubs.length)
    (alone : c.lki.smallestNext = none) (live : j.hub.state = .live) (next : j.hub.nextTick = some e) :
    (Lki.stall lmax (c.kept port j)).smallestNext = some e := by
  have before := Lki.smallestNext_eq_none.mp alone
  have only (k : Hub) (member : k ∈ (c.kept port j).hubs) (n : Nat) (place : k.liveNext = some n) : n = e := by
    obtain old | rfl := List.mem_or_eq_of_mem_set member
    · simp [before k old] at place
    · obtain ⟨-, at_n⟩ := Hub.liveNext_eq_some.mp place
      exact Option.some.inj (at_n.symm.trans next)
  have at_port : (c.kept port j).hubs[port]? = some j.hub := by simp [Chip.kept, present]
  have place : j.hub.liveNext = some e := Hub.liveNext_eq_some.mpr ⟨live, next⟩
  refine Lki.smallestNext_eq_some.mpr ⟨⟨j.hub, List.mem_of_getElem? (stall_keeps_near at_port next ?_), place⟩, ?_⟩
  · intro k member live
    cases at_k : k.nextTick with
    | none => exact Nat.zero_le _
    | some n => simp [only k member n (Hub.liveNext_eq_some.mpr ⟨live, at_k⟩)]
  · intro k member n at_n
    unfold Lki.stall at member
    split at member
    case h_2 => exact (only k member n at_n).ge
    case h_1 lead _ =>
      obtain ⟨g, old, rfl⟩ := List.mem_map.mp member
      obtain same | gone := Hub.stallBelow_liveNext lmax lead g
      · exact (only g old n (same ▸ at_n)).ge
      · simp [gone] at at_n

/-- Settles O20: the hub is joins with the frames not wholly below H, and the update of H follows. -/
theorem admissionMakesAHubLive : Obligations.AdmissionMakesAHubLive := by
  intro c q port line h b first seq hub seeking frame good marker follows unsetOrLow near
  have ahead : ∀ hz, c.lki.horizon = some hz → hz < first + 50 := by
    rintro hz horizon
    rcases unsetOrLow with ⟨unset, -⟩ | ⟨t, was, low⟩
    · cases horizon.symm.trans unset
    · cases horizon.symm.trans was
      exact low
  have judged := judged_admission (c := c) (port := port.val) seeking marker follows ahead
  let f := keptFrame (expectedLanes (c.tcu.hubEntries.getD port.val none)) b
  let hz := c.lki.horizon.getD first
  have place : some (f.firstTick + frameTicks) = some (first + 50) := by
    change some (leValue b 6 6 + 25) = some (first + 50)
    rw [follows]
  have keeps : (c.judged port.val b h).Keeps (first + 50) hz := by
    rw [judged]
    exact ⟨rfl, rfl, place, rfl⟩
  obtain ⟨d, h1, next, lki, -, raised, rises, after, noted⟩ := exec_goodFrame_kept q hub (by simp [seeking])
    (atBadLimit_of_seeking seeking) frame good keeps near
  rw [judged] at after
  have notBelow : f.below hz = false := by
    have low : hz < first + 50 := by
      cases horizon : c.lki.horizon with
      | none => simp [hz, horizon]
      | some t => simpa [hz, horizon] using ahead t horizon
    rw [Bool.eq_false_iff, ne_eq, Frame.below_iff]
    have : f.firstTick = first + 25 := follows
    omega
  refine ⟨d, _, next, after, rfl, place, rfl, rfl, rfl, rfl, rfl, ?_, fun named => ?_, ?_, fun unset => ?_,
    fun active => ?_⟩
  · exact countSlip_some seq (frameSeq b) _
  · obtain ⟨g, buffer⟩ := List.length_eq_one_iff.mp (by simpa using congrArg List.length named)
    have at_first : g.firstTick = first := by simpa [buffer] using named
    have late : ((h.buffer ++ [f]).filter (Frame.below hz)).length = if first + 25 ≤ hz then 1 else 0 := by
      rw [buffer, List.singleton_append, List.filter_cons, List.filter_singleton, notBelow]
      simp only [Frame.below_iff, at_first]
      split <;> rfl
    rw [← late]
    exact congrArg LinkCounters.late (countSlip_some seq (frameSeq b) _)
  · have joins : (h.buffer ++ [f]).filter (fun k => !k.below hz) =
        (h.buffer ++ [f]).filter fun k => decide (hz < k.firstTick + 25) := by simp only [Frame.not_below]
    rw [raised, Option.getD_some]
    change (if h1 = hz then (h.buffer ++ [f]).filter (fun k => !k.below hz)
      else ((h.buffer ++ [f]).filter (fun k => !k.below hz)).filter _) = _
    rw [joins]
    split
    case isTrue same => rw [same]
    case isFalse => rw [List.filter_filter]; exact List.filter_congr fun k _ => by simp; omega
  · have low : c.lki.smallestNext = none := by
      rcases unsetOrLow with ⟨-, alone⟩ | ⟨t, was, -⟩
      · exact alone
      · cases unset.symm.trans was
    obtain ⟨present, -⟩ := List.getElem?_eq_some_iff.mp hub
    have smallest := kept_smallestNext (lmax := lmaxInForce c) present low keeps.live keeps.next
    have start : hz = first := by simp [hz, unset]
    have horizon : (Lki.stall (lmaxInForce c) (c.kept port.val (c.judged port.val b h))).horizon = some first := by
      rw [Lki.stall_horizon, ← start]
      exact keeps.horizon
    rw [lki]
    obtain ⟨h0, h1, -, at_h1, -, raised⟩ | ⟨unset, -⟩ | ⟨still, -⟩ := updateHorizon_lki
      { c with lki := Lki.stall (lmaxInForce c) (c.kept port.val (c.judged port.val b h)) }
    · rw [raised, ← at_h1]
      exact smallest
    · cases horizon.symm.trans unset
    · rcases still with none_live | ⟨h0, h1, was, at_h1, le⟩
      · cases smallest.symm.trans none_live
      · cases horizon.symm.trans was
        cases smallest.symm.trans at_h1
        omega
  · refine noted active (hubStates_ne hub after ?_)
    rw [seeking]
    nofun

/-! ## A kept frame (R25, R32) -/

/-- A frame at or above next_tick, not wholly below H for a STALLED hub, is kept. -/
theorem judged_kept {c : Chip} {port : Nat} {b : List Byte} {h : Hub} {next hz : Nat} (place : h.nextTick = some next)
    (horizon : c.lki.horizon = some hz) (reached : next ≤ leValue b 6 6)
    (kept : h.state = .live ∨ (h.state = .stalled ∧ hz < leValue b 6 6 + 25)) :
    c.judged port b h =
      ⟨{ h with
          state := .live
          buffer := h.buffer ++ [keptFrame (expectedLanes (c.tcu.hubEntries.getD port none)) b]
          nextTick := some (leValue b 6 6 + 25)
          lastSeq := some (frameSeq b)
          silence := some (silenceInForce c)
          badCount := 0
          actualLanes := byteAt b 3
          counters := { countGood b h.counters with
            gapTicks := addCount h.counters.gapTicks (leValue b 6 6 - (if h.state = .live then next else hz))
            slips :=
              if next = leValue b 6 6 ∧ h.lastSeq.map (· + 1) ≠ some (BitVec.ofNat 8 (byteAt b 4)) then
                countUp h.counters.slips
              else h.counters.slips } }, true, some hz⟩ := by
  have later : ¬ (keptFrame (expectedLanes (c.tcu.hubEntries.getD port none)) b).firstTick < next :=
    Nat.not_lt.mpr reached
  rcases kept with live | ⟨stalled, ahead⟩
  · rw [Chip.judged, noteGood_placed _ b (by rw [live]; rfl)]
    simp only [judgeFrame, live, judgeLive, place, Option.getD_some, later, if_false, if_true, testSlip_eq,
      Hub.countGap,
      Hub.count, Hub.movePast, Hub.keep, horizon, Option.some.injEq]
    rfl
  · have notBelow : (keptFrame (expectedLanes (c.tcu.hubEntries.getD port none)) b).below hz = false := by
      rw [Bool.eq_false_iff, ne_eq, Frame.below_iff]
      exact Nat.not_le.mpr ahead
    rw [Chip.judged, noteGood_placed _ b (by rw [stalled]; rfl)]
    simp only [judgeFrame, stalled, judgeStalled, place, horizon, Option.getD_some, later, notBelow, Bool.false_eq_true,
      reduceCtorEq, if_false, testSlip_eq, Hub.rejoin, Hub.countGap, Hub.count, Hub.movePast, Hub.keep,
        Option.some.injEq]
    rfl

/-- Settles O22: the frame is kept, and the stall check and the update of H follow. -/
theorem keptFrameMovesAHubOnAndStallsTheOthers : Obligations.KeptFrameMovesAHubOnAndStallsTheOthers := by
  intro c q port line h b next hz hub notDue place horizon frame good reached kept near
  have judged := judged_kept (c := c) (port := port.val) place horizon reached kept
  have keeps : (c.judged port.val b h).Keeps (leValue b 6 6 + 25) hz := by
    rw [judged]
    exact ⟨rfl, rfl, rfl, rfl⟩
  have enabled : h.state ≠ .disabled := by rcases kept with live | ⟨stalled, -⟩ <;> simp [*]
  obtain ⟨d, h1, next, lki, chc, raised, rises, after, noted⟩ :=
    exec_goodFrame_kept q hub enabled notDue frame good keeps
    near
  have links : c.kept port.val (c.judged port.val b h) =
      { c.lki with hubs := c.lki.hubs.set port.val (c.judged port.val b h).hub } := by
    rw [Chip.kept, keeps.horizon, ← horizon]
  obtain ⟨present, -⟩ := List.getElem?_eq_some_iff.mp hub
  have stalls (m : Nat) (g : Hub) (n : Nat) (other : m ≠ port.val) (at_m : c.lki.hubs[m]? = some g)
    (live : g.state = .live)
      (at_n : g.nextTick = some n) (far : n + lmaxInForce c < leValue b 6 6 + 25) :
      d.lki.hubs[m]? = some { g with state := .stalled, buffer := [] } := by
    have at_port : (c.judged port.val b h).hub ∈ (c.kept port.val (c.judged port.val b h)).hubs :=
      List.mem_of_getElem? (i := port.val) (by simp [Chip.kept, present])
    obtain ⟨lead, leads, ge⟩ := Lki.lead_of_live at_port (Hub.liveNext_eq_some.mpr ⟨keeps.live, keeps.next⟩)
    rw [lki]
    exact updateHorizon_empty (stall_stalls (by simpa [Chip.kept, other.symm] using at_m) live at_n leads
      (Nat.lt_of_lt_of_le far ge)) rfl
  rw [links] at lki chc
  rw [judged] at after lki chc
  exact ⟨d, _, next, after, rfl, rfl, rfl, rfl, rfl, rfl, rfl, stalls, ⟨⟨h1, raised, rises, rfl⟩, lki, chc⟩, noted⟩

end Sys2Proof.Machine
end


section
/-! SUPPORT. What the scan engine and the settlement of ticks never take back: a progress block write asked for, the
rewrite mark (R164), and a fault recorded under TABLES (R168, R172). An operation whose frame keeps these needs no lemma
of its own: `Chip.Grows.keeps` reads it off the frame. -/

namespace Sys2Proof.Machine

/-- What DLV has been asked for stays asked for, and a fault recorded under TABLES stays as it is. -/
structure Grown (dlv dlv' : Dlv) (mpt mpt' : Mpt) : Prop where
  asked : dlv.progressAsked = true → dlv'.progressAsked = true
  rewrite : dlv.rewrite = true → dlv'.rewrite = true
  faults : ∀ f : FaultRecord, some f ∈ mpt.records → f.source = .tables → some f ∈ mpt'.records

/-- A part has come to hold what another held of these. -/
abbrev Chip.Grows (c d : Chip) : Prop := Grown c.dlv d.dlv c.mpt d.mpt

theorem Chip.Grows.refl (c : Chip) : c.Grows c := ⟨id, id, fun _ held _ => held⟩

theorem Chip.Grows.trans {c d e : Chip} (first : c.Grows d) (second : d.Grows e) : c.Grows e :=
  ⟨second.asked ∘ first.asked, second.rewrite ∘ first.rewrite, fun f held tables =>
    second.faults f (first.faults f held tables) tables⟩

/-- An operation that keeps the three. -/
theorem Chip.Grows.keeps {c d e : Chip} (h : c.Grows d) (asked : e.dlv.progressAsked = d.dlv.progressAsked)
    (rewrite : e.dlv.rewrite = d.dlv.rewrite) (records : e.mpt.records = d.mpt.records) : c.Grows e :=
  Chip.Grows.trans h ⟨fun a => asked.trans a, fun a => rewrite.trans a, fun _ held _ => records ▸ held⟩

/-- What DLV had been asked for it is asked for still. -/
theorem Chip.Grows.asks {c d : Chip} (h : c.Grows d) {before : Dlv} (asks : before.Asks c.dlv)
    (progress : d.dlv.progress = c.dlv.progress) : before.Asks d.dlv :=
  asks.mono progress h.asked h.rewrite

/-- The same, with no raw epoch lost: so the scan engine and CCU leave DLV. -/
structure Served (dlv dlv' : Dlv) (mpt mpt' : Mpt) : Prop extends Grown dlv dlv' mpt mpt' where
  raw : dlv'.counters.rawLost = dlv.counters.rawLost

/-- A part has been served so far. -/
abbrev Chip.Serves (c d : Chip) : Prop := Served c.dlv d.dlv c.mpt d.mpt

theorem Chip.Serves.refl (c : Chip) : c.Serves c := ⟨Chip.Grows.refl c, rfl⟩

theorem Chip.Serves.trans {c d e : Chip} (first : c.Serves d) (second : d.Serves e) : c.Serves e :=
  ⟨Chip.Grows.trans first.toGrown second.toGrown, second.raw.trans first.raw⟩

/-- An operation that keeps the four. -/
theorem Chip.Serves.keeps {c d e : Chip} (h : c.Serves d) (asked : e.dlv.progressAsked = d.dlv.progressAsked)
    (rewrite : e.dlv.rewrite = d.dlv.rewrite) (records : e.mpt.records = d.mpt.records)
    (raw : e.dlv.counters.rawLost = d.dlv.counters.rawLost) : c.Serves e :=
  ⟨Chip.Grows.keeps h.toGrown asked rewrite records, raw.trans h.raw⟩

/-! ## What DLV is asked for and the faults recorded (R164, R170 to R173) -/

theorem askProgress_serves {c d : Chip} (h : c.Serves d) : c.Serves (askProgress d) := by
  unfold askProgress
  split
  · refine Chip.Serves.trans h ⟨⟨?_, ?_, fun f held _ => held⟩, ?_⟩ <;> simp +contextual [Dlv.ask, apply_ite]
  · exact h

/-- A record of another source is not touched by a fault recorded. -/
theorem Mpt.record_mem {src : FaultSource} (kind : FaultKind) (addr : Nat) (hz : Option Nat) {m : Mpt} {f : FaultRecord}
    (held : some f ∈ m.records) (other : f.source ≠ src) : some f ∈ (m.record src kind addr hz).records := by
  rcases Mpt.record_ways src kind addr hz m with ⟨-, eq⟩ | ⟨-, ⟨n, free, -, eq⟩ | ⟨-, eq⟩⟩ <;> rw [eq]
  · exact List.mem_map.mpr ⟨some f, held, by simp [againIn, other]⟩
  · obtain ⟨k, at_⟩ := List.mem_iff_getElem?.mp held
    have apart : n ≠ k := fun same => by simp [same ▸ free] at at_
    exact List.mem_iff_getElem?.mpr ⟨k, by rw [List.getElem?_set_ne apart, at_]⟩
  · exact held

/-- A fault recorded under another source than TABLES. -/
theorem recordFault_serves {src : FaultSource} (kind : FaultKind) (addr : Nat) {c d : Chip} (h : c.Serves d)
    (other : src ≠ .tables) : c.Serves (recordFault src kind addr d) := by
  have held (f : FaultRecord) (held : some f ∈ d.mpt.records) (tables : f.source = .tables) :
      some f ∈ (d.mpt.record src kind addr d.lki.horizon).records :=
    Mpt.record_mem kind addr _ held (by rw [tables]; exact other.symm)
  unfold recordFault
  split
  · exact askProgress_serves (Chip.Serves.trans h ⟨⟨id, id, held⟩, rfl⟩)
  · exact Chip.Serves.trans h ⟨⟨id, id, held⟩, rfl⟩

/-! ## The reads that can fail their window check (R110, R114, R168) -/

theorem missRow_serves (g : GridDef) (grid node : Nat) {c d : Chip} (h : c.Serves d) :
    c.Serves (missRow g grid node d).1 := by
  unfold missRow
  dsimp only
  split
  · exact Chip.Serves.keeps h (by simp) (by simp) (by simp) (by simp)
  · exact recordFault_serves _ _ (Chip.Serves.keeps h (by simp) (by simp) (by simp) (by simp)) nofun

theorem requestRow_serves (grid node : Nat) {c d : Chip} (h : c.Serves d) : c.Serves (requestRow grid node d).1 := by
  unfold requestRow
  split
  · exact h
  · split
    · exact h
    · split
      · exact h
      · exact missRow_serves _ grid node h

theorem requestRefine_serves (grid node : Nat) {c d : Chip} (h : c.Serves d) :
    c.Serves (requestRefine grid node d).1 := by
  unfold requestRefine
  split
  · exact h
  · split
    · exact h
    · dsimp only
      split
      · exact Chip.Serves.keeps h (by simp) (by simp) (by simp) (by simp)
      · exact recordFault_serves _ _ h nofun

theorem requestScanRow_serves (bank grid node : Nat) (phase : ScanPhase) (next : List (BitVec 16) → EngineTask)
    {c d : Chip} (h : c.Serves d) : c.Serves (requestScanRow bank grid node phase next d).1 := by
  have asked := requestRow_serves grid node (d := onScan bank (fun sc =>
    { sc.widenRange grid node with phase := phase }) d) h
  unfold requestScanRow
  dsimp only
  split
  all_goals
    rename_i reply
    rw [reply] at asked
    exact asked

theorem requestScanRefine_serves (bank : Nat) (p : Peak) {c d : Chip} (h : c.Serves d) :
    c.Serves (requestScanRefine bank p d).1 := by
  have asked := requestRefine_serves p.grid p.node (d := onScan bank (fun s => { s with phase := .refineEntry }) d) h
  unfold requestScanRefine
  split
  all_goals
    rename_i reply
    rw [reply] at asked
    exact asked

/-! ## The finish of a scan or a request (R75, R102, R125) -/

theorem writeDone_serves (slot : Nat) (seq : BitVec 8) (r : SlotResult) {c d : Chip} (h : c.Serves d) :
    c.Serves (writeDone slot seq r d) := by
  have written : c.Serves ((writeSlot slot seq true r d).onOrd (closeOrder slot)) :=
    Chip.Serves.keeps h (by simp) (by simp) (by simp) (by simp)
  unfold writeDone askOutsideRun
  split
  · exact written
  · exact askProgress_serves written

@[simp] theorem DlvCounters.countOutcome_rawLost (n : DlvCounters) (o : ScanOutcome) :
    (n.countOutcome o).rawLost = n.rawLost := by
  cases o <;> rfl

theorem deliverOutcome_rawLost (o : EventOutcome) (c : Chip) :
    (deliverOutcome o c).1.dlv.counters.rawLost = c.dlv.counters.rawLost := by
  unfold deliverOutcome
  dsimp only
  split
  · simp
  · rw [deliverContent_counters]
    simp

theorem deliverOutcome_serves (o : EventOutcome) {c d : Chip} (h : c.Serves d) : c.Serves (deliverOutcome o d).1 :=
  Chip.Serves.keeps h (by simp) (by simp) (by simp) (deliverOutcome_rawLost o d)

theorem completeScan_serves (order : Option (Nat × BitVec 8)) (number : Nat) (o : ScanOutcome) (seq : Option Word32)
    {c d : Chip} (h : c.Serves d) : c.Serves (completeScan order number o seq d) := by
  unfold completeScan
  split
  · exact writeDone_serves _ _ _ h
  · exact h

theorem completeCancels_serves (number : Nat) (cancelled : Bool) (l : List (Nat × BitVec 8)) {c d : Chip}
    (h : c.Serves d) : c.Serves (completeCancels number cancelled l d) := by
  induction l generalizing d with
  | nil => exact h
  | cons x rest ih => exact ih (writeDone_serves _ _ _ h)

theorem reportInval_serves (slot : Nat) (seq : BitVec 8) (r : SlotResult) {c d : Chip} (h : c.Serves d) :
    c.Serves (reportInval slot seq r d) := by
  unfold reportInval
  split
  · have written : c.Serves (writeDone slot seq r (d.onOrd fun o => { o with drainPending := none })) :=
      writeDone_serves slot seq r h
    exact Chip.Serves.keeps written (by simp) (by simp) (by simp) (by simp)
  · exact writeDone_serves slot seq r h

theorem drainFinished_serves (number : Nat) {c d : Chip} (h : c.Serves d) : c.Serves (drainFinished number d) := by
  unfold drainFinished
  dsimp only
  split
  · exact h
  · split
    · exact reportInval_serves _ _ _ h
    · exact h

theorem stoppingToBound_serves {c d : Chip} (h : c.Serves d) : c.Serves (stoppingToBound d) := by
  unfold stoppingToBound
  split
  · exact askProgress_serves h
  · exact h

theorem finishScan_serves (bank : Nat) (sc : Scan) (o : ScanOutcome) (arrivals : List Arrival) {c d : Chip}
    (h : c.Serves d) : c.Serves (finishScan bank sc o arrivals d) := by
  have left : c.Serves
      (clearTarget sc.request.number (setBank bank none (deliverOutcome (scanOutcome sc o arrivals) d).1)) :=
    Chip.Serves.keeps (deliverOutcome_serves (scanOutcome sc o arrivals) h) (by simp) (by simp) (by simp) (by simp)
  unfold finishScan
  exact stoppingToBound_serves (drainFinished_serves _
    (completeCancels_serves _ _ _ (completeScan_serves _ _ _ _ left)))

theorem finishWaiting_serves (o : ScanOutcome) (r : Request) {c d : Chip} (h : c.Serves d) :
    c.Serves (finishWaiting o r d) := by
  have left : c.Serves (clearTarget r.number (deliverOutcome (waitingOutcome r o) (takeRequest r.number d)).1) :=
    Chip.Serves.keeps (deliverOutcome_serves (waitingOutcome r o) (d := takeRequest r.number d) h)
      (by simp) (by simp) (by simp) (by simp)
  unfold finishWaiting
  exact completeScan_serves _ _ _ _ left

/-! ## The actions of the scan engine (R83 to R102) -/

theorem selectAction_serves {c d : Chip} (h : c.Serves d) : c.Serves (selectAction d).1 := by
  unfold selectAction
  split
  · exact h
  · split
    · exact h
    · unfold resumeScan
      dsimp only
      split
      · exact finishScan_serves _ _ _ _ h
      · exact h
    · unfold startScan
      dsimp only
      split
      · exact h
      · split
        · exact finishScan_serves _ _ _ _ h
        · split
          · exact finishScan_serves _ _ _ _ h
          · split
            · exact finishScan_serves _ _ _ _ h
            · exact h

theorem stageEndAction_serves (bank : Nat) (sc : Scan) {c d : Chip} (h : c.Serves d) :
    c.Serves (stageEndAction bank sc d).1 := by
  unfold stageEndAction
  split
  · unfold stage1End
    split
    · exact h
    · dsimp only
      split
      · exact h
      · split
        · exact requestScanRefine_serves bank _ h
        · exact h
  · exact Chip.Serves.keeps h (by simp) (by simp) (by simp) (by simp)

theorem scanAction_serves (task : EngineTask) (bank : Nat) (sc : Scan) {c d : Chip} (h : c.Serves d) :
    c.Serves (scanAction task bank sc d).1 := by
  cases task with
  | select => exact h
  | node => exact requestScanRow_serves _ _ _ _ _ h
  | rowIn row => exact Chip.Serves.keeps h (e := (rowAction bank sc row d).1) (by simp) (by simp) (by simp) (by simp)
  | nodeEnd => exact h
  | boundary =>
    simp only [scanAction, boundaryAction]
    split
    · exact finishScan_serves _ _ _ _ h
    · split
      · exact h
      · exact h
  | stageEnd => exact stageEndAction_serves bank sc h
  | refined e => exact Chip.Serves.keeps h (e := (refinedAction bank sc e d).1) (by simp) (by simp) (by simp) (by simp)
  | arrival o =>
    simp only [scanAction, arrivalAction]
    split
    · exact h
    · exact requestScanRow_serves _ _ _ _ _ h
  | listRow o row =>
    exact Chip.Serves.keeps h (e := (listAction bank sc o row 0 [] d).1) (by simp) (by simp) (by simp) (by simp)
  | conclude o arrivals =>
    simp only [scanAction, concludeAction]
    split <;> exact finishScan_serves _ _ _ _ h

theorem engineAction_serves (task : EngineTask) {c : Chip} (d : Chip) (h : c.Serves d) :
    c.Serves (engineAction task d).1 := by
  unfold engineAction
  split
  · exact selectAction_serves h
  · split
    · exact scanAction_serves task _ _ h
    · exact h

theorem engine_serves (task : EngineTask) {c d : Chip} (h : c.Serves d) : c.Serves (engine task d) :=
  engine_induct c.Serves (fun task d => engineAction_serves task d) task d h

theorem offerRipe_serves {c d : Chip} (h : c.Serves d) : c.Serves (offerRipe d) := by
  unfold offerRipe
  split
  · exact engine_serves _ h
  · exact h

/-! ## A tick notice (R63 to R72) -/

theorem declareCrossing_serves (s : Settings) (t v level : Nat) {c d : Chip} (h : c.Serves d) :
    c.Serves (declareCrossing s t v level d) := by
  have declared {e : Chip} (grown : c.Serves e) : c.Serves (declare s t v level e) := offerRipe_serves grown
  unfold declareCrossing
  split
  · exact declared h
  · unfold declareFull
    split
    · exact declared (finishWaiting_serves _ _ h)
    · exact h

theorem takeTickNotice_serves (n : TickNotice) {c d : Chip} (h : c.Serves d) : c.Serves (takeTickNotice n d) := by
  have crossed (s : Settings) (t v : Nat) : c.Serves (crossing s t v d) := by
    unfold crossing
    split
    · split
      · exact h
      · exact declareCrossing_serves _ _ _ _ h
    · exact declareCrossing_serves _ _ _ _ h
  unfold takeTickNotice
  split
  · exact h
  · dsimp only
    split
    · exact crossed _ _ _
    · exact h

/-! ## Settlement and the links (R28 to R38) -/

theorem formPicks_rawLost (l : List FormedPick) (c : Chip) :
    (formPicks l c).dlv.counters.rawLost = c.dlv.counters.rawLost := by
  induction l generalizing c with
  | nil => rfl
  | cons f rest ih =>
    rw [formPicks, ih, formPick]
    split
    · unfold deliverPick
      split <;> simp
    · rfl

/-- A tick conditioned, and its notice taken. -/
theorem handTickNotice_serves (t : Nat) (c : Chip) :
    c.Serves (handTickNotice t (conditionTick t (tickSamples t c) c)) := by
  refine takeTickNotice_serves _ (Chip.Serves.keeps (Chip.Serves.refl c) (by simp) (by simp) (by simp) ?_)
  rw [conditionTick]
  exact formPicks_rawLost _ _

theorem askProgress_grows {c d : Chip} (h : c.Grows d) : c.Grows (askProgress d) :=
  Chip.Grows.trans h (askProgress_serves (Chip.Serves.refl d)).toGrown

theorem offerRipe_grows {c d : Chip} (h : c.Grows d) : c.Grows (offerRipe d) :=
  Chip.Grows.trans h (offerRipe_serves (Chip.Serves.refl d)).toGrown

theorem settleTick_grows (t : Nat) {c d : Chip} (h : c.Grows d) : c.Grows (settleTick t d) := by
  have noticed : d.Serves (handTickNotice t (conditionTick t (tickSamples t d) d)) := handTickNotice_serves t d
  unfold settleTick
  exact Chip.Grows.keeps (Chip.Grows.trans h noticed.toGrown) (by simp) (by simp) (by simp)

theorem settleTicks_grows (t n : Nat) {c d : Chip} (h : c.Grows d) : c.Grows (settleTicks t n d) := by
  induction n generalizing t d with
  | zero => exact h
  | succ n ih => exact ih _ (settleTick_grows t h)

theorem settle_grows (h0 h1 : Nat) {c d : Chip} (h : c.Grows d) : c.Grows (settle h0 h1 d) := by
  have settled : c.Grows (releaseFrames h1 (settleTicks h0 (h1 - h0) d)) := settleTicks_grows h0 (h1 - h0) h
  unfold settle
  refine offerRipe_grows ?_
  unfold askForEpoch
  split
  · exact askProgress_grows settled
  · exact settled

theorem updateHorizon_grows {c d : Chip} (h : c.Grows d) : c.Grows (updateHorizon d) := by
  unfold updateHorizon
  split
  · split
    · exact settle_grows _ _ h
    · exact h
  all_goals exact h

theorem linkEvent_grows {f : Chip → Chip} {c d : Chip} (h : c.Grows (f d)) : c.Grows (linkEvent f d) := by
  unfold linkEvent noteLinkChange
  split
  · exact askProgress_grows (Chip.Grows.keeps h (by simp) (by simp) (by simp))
  · exact h

end Sys2Proof.Machine
end


section
/-! PROOFS. The statement about the settlement of ticks and the characteristic function (R30, R33 to R35, R43, R47, R48,
R56, R62, R160, R161). -/

namespace Sys2Proof.Machine

/-! ## The raw epoch at a tick (R160, R161) -/

theorem placeRawTick_within {t : Nat} (samples : List (Option (BitVec 24))) (c : Chip) (within : t % 500 ≠ 499) :
    placeRawTick t samples c =
      c.onDlv fun d => { d with assembly := some ((epochFor t d.assembly).place t samples) } := if_neg within

theorem placeRawTick_last {t : Nat} (samples : List (Option (BitVec 24))) (c : Chip) (last : t % 500 = 499) :
    placeRawTick t samples c = offerEpoch ((epochFor t c.dlv.assembly).place t samples)
      (stepEpochCount (c.onDlv fun d => { d with assembly := none })) := if_pos last

/-- An idle raw writer holds the complete epoch, and its read of half 0's state is requested. -/
theorem offerEpoch_idle (e : RawEpoch) {c : Chip} (idle : c.dlv.outgoing = none) :
    (offerEpoch e c).dlv.outgoing = some ⟨e, false⟩ ∧ (offerEpoch e c).dlv.counters = c.dlv.counters ∧
      (offerEpoch e c).mpt.carries (readAccess (.rawState 0) c.layout.raw0 4) := by
  simp only [offerEpoch, idle]
  exact ⟨by simp, by simp, (request_carries _ _ _ _).mpr (.inr rfl)⟩

/-- A busy raw writer keeps its epoch, and the complete one is lost. -/
theorem offerEpoch_busy (e : RawEpoch) {c : Chip} {o : Outgoing} (busy : c.dlv.outgoing = some o) :
    (offerEpoch e c).dlv.outgoing = some o ∧
      (offerEpoch e c).dlv.counters = { c.dlv.counters with rawLost := countUp c.dlv.counters.rawLost } := by
  simp only [offerEpoch, busy]
  exact ⟨busy, rfl⟩

/-! ## A tick settled (R33, R34) -/

/-- The part when CCU has taken a tick's notice, before DLV has its raw samples. -/
def Chip.noticed (t : Nat) (c : Chip) : Chip := handTickNotice t (conditionTick t (tickSamples t c) c)

theorem settleTick_eq (t : Nat) (c : Chip) : settleTick t c = placeRawTick t (tickSamples t c) (c.noticed t) := rfl

/-- What conditioning and the notice of a tick leave of DLV's raw epochs. -/
theorem noticed_raw (t : Nat) (c : Chip) :
    (c.noticed t).dlv.assembly = c.dlv.assembly ∧ (c.noticed t).dlv.outgoing = c.dlv.outgoing ∧
      (c.noticed t).dlv.epochCount = c.dlv.epochCount ∧
      (c.noticed t).dlv.counters.rawLost = c.dlv.counters.rawLost ∧ (c.noticed t).layout = c.layout :=
  ⟨by simp [Chip.noticed], by simp [Chip.noticed], by simp [Chip.noticed], (handTickNotice_serves t c).raw,
    by simp [Chip.noticed, Chip.layout]⟩

/-- CCU's previous count after a tick is the vote count over the channels as the tick leaves them. -/
theorem settleTick_prevCount (t : Nat) {c : Chip} {s : Settings} (settings : c.tcu.settings = some s) :
    (settleTick t c).ccu.prevCount = voteCount t s.window (settleTick t c).chc.channels := by
  have counted := takeTickNotice_prevCount ⟨t, onList t (conditionTick t (tickSamples t c) c).chc.channels⟩
    (conditionTick t (tickSamples t c) c) s (by simpa using settings)
  simpa [settleTick, handTickNotice] using counted

/-- Each channel of a tick is conditioned once, with its own sample. -/
theorem settleTick_channel (t : Nat) {c : Chip} {n : Nat} {ch : Channel} (here : c.chc.channels[n]? = some ch) :
    (settleTick t c).chc.channels[n]? = some (condition n t (channelSample t c.lki.hubs n ch) ch).1 := by
  have sample : (tickSamples t c).getD n none = channelSample t c.lki.hubs n ch := by
    simp [tickSamples, numbered_eq_zipIdx, here]
  rw [settleTick_channels, List.getElem?_map, conditionAll_getElem?, here, sample, Nat.zero_add]
  rfl

/-! ## A run of ticks (R33) -/

theorem settleTicks_last (t n : Nat) (c : Chip) :
    settleTicks t (n + 1) c = settleTick (t + n) (settleTicks t n c) := by
  induction n generalizing t c with
  | zero => rfl
  | succ n ih => rw [settleTicks, ih, settleTicks, Nat.add_right_comm, Nat.add_assoc]

/-- Each channel takes the ticks of a run in increasing order. -/
theorem settleTicks_channel (t count : Nat) {c : Chip} {n : Nat} {ch : Channel} (here : c.chc.channels[n]? = some ch) :
    (settleTicks t count c).chc.channels[n]? = some ((List.range' t count).foldl
      (fun k t => (condition n t (channelSample t c.lki.hubs n k) k).1) ch) := by
  induction count generalizing t c ch with
  | zero => exact here
  | succ count ih =>
    have rest := ih (t + 1) (settleTick_channel t here)
    have links : (settleTick t c).lki = c.lki := by simp
    rwa [links] at rest

/-- CCU's previous count after a run is the vote count of its last tick. -/
theorem settleTicks_prevCount (t count : Nat) {c : Chip} {s : Settings} (some_ : 0 < count)
    (settings : c.tcu.settings = some s) :
    (settleTicks t count c).ccu.prevCount =
      voteCount (t + count - 1) s.window (settleTicks t count c).chc.channels := by
  obtain ⟨n, rfl⟩ := Nat.exists_eq_succ_of_ne_zero some_.ne'
  rw [Nat.succ_eq_add_one, settleTicks_last]
  exact settleTick_prevCount (t + n) (by simpa using settings)

/-! ## H rises (R30, R33, R160) -/

/-- The part of a settlement before CCU offers the ripe requests. -/
def Chip.ranTicks (h0 h1 : Nat) (c : Chip) : Chip :=
  askForEpoch h0 h1 (releaseFrames h1 (settleTicks h0 (h1 - h0) c))

theorem updateHorizon_settles {c : Chip} {h0 h1 : Nat} (horizon : c.lki.horizon = some h0)
    (smallest : c.lki.smallestNext = some h1) (rises : h0 < h1) : updateHorizon c = offerRipe (c.ranTicks h0 h1) := by
  simp only [updateHorizon, horizon, smallest, if_pos rises]
  rfl

/-- The smallest next_tick does not lie above H: nothing happens. -/
theorem updateHorizon_stays {c : Chip} {h0 : Nat} (horizon : c.lki.horizon = some h0)
    (stays : ∀ h1, c.lki.smallestNext = some h1 → h1 ≤ h0) : updateHorizon c = c := by
  unfold updateHorizon
  rw [horizon]
  cases smallest : c.lki.smallestNext with
  | none => rfl
  | some h1 => exact if_neg (stays h1 smallest).not_gt

@[simp] theorem askForEpoch_blocks (h0 h1 : Nat) (c : Chip) :
    (askForEpoch h0 h1 c).lki = c.lki ∧ (askForEpoch h0 h1 c).chc = c.chc ∧ (askForEpoch h0 h1 c).ccu = c.ccu := by
  unfold askForEpoch
  split <;> simp

/-- Frames wholly below H leave the buffer of a hub that is not SEEKING. -/
theorem Hub.release_eq (h1 : Nat) (h : Hub) : h.release h1 =
    if h.state = .seeking then h else { h with buffer := h.buffer.filter fun f => decide (h1 < f.firstTick + 25) } := by
  simp only [Hub.release, Frame.not_below]

/-- A run that completed an epoch asks for a progress block write. -/
theorem ranTicks_asks {c : Chip} {h0 h1 : Nat} (active : c.active = true) (completed : h0 / 500 < h1 / 500) :
    c.dlv.Asks (c.ranTicks h0 h1).dlv := by
  have asked : askForEpoch h0 h1 (releaseFrames h1 (settleTicks h0 (h1 - h0) c)) =
      askProgress (releaseFrames h1 (settleTicks h0 (h1 - h0) c)) := if_pos completed
  rw [Chip.ranTicks, asked]
  exact askProgress_asksAnew ((settleTicks_active h0 (h1 - h0) c).trans active) (by simp)

/-- What DLV shows of its asking, as the statement has it. -/
theorem Dlv.Asks.shown {before after : Dlv} (h : before.Asks after) :
    (if before.progress.isSome = true then after.rewrite else after.progressAsked) = true := by
  obtain ⟨-, due, again⟩ := h
  split
  case isTrue inFlight => exact again inFlight
  case isFalse idle => exact due.resolve_left idle

/-! ## The statement, part by part -/

/-- One tick: the raw epoch and the raw writer. -/
theorem settleTick_raw (t : Nat) (c : Chip) :
    (settleTick t c).dlv.assembly =
        (if t % 500 = 499 then none else some ((epochFor t c.dlv.assembly).place t (tickSamples t c))) ∧
      (t % 500 ≠ 499 →
        (settleTick t c).dlv.epochCount = c.dlv.epochCount ∧ (settleTick t c).dlv.outgoing = c.dlv.outgoing ∧
        (settleTick t c).dlv.counters.rawLost = c.dlv.counters.rawLost) ∧
      (t % 500 = 499 →
        (c.dlv.epochCount.toNat < 4294967295 → (settleTick t c).dlv.epochCount = c.dlv.epochCount + 1) ∧
        (c.dlv.outgoing = none →
          (settleTick t c).dlv.outgoing = some ⟨(epochFor t c.dlv.assembly).place t (tickSamples t c), false⟩ ∧
          (settleTick t c).dlv.counters.rawLost = c.dlv.counters.rawLost ∧
          (settleTick t c).mpt.carries (readAccess (.rawState 0) c.layout.raw0 4)) ∧
        ∀ o, c.dlv.outgoing = some o →
          (settleTick t c).dlv.outgoing = some o ∧
          (settleTick t c).dlv.counters.rawLost = countUp c.dlv.counters.rawLost) := by
  obtain ⟨assembly, outgoing, epochs, lost, layout⟩ := noticed_raw t c
  rw [settleTick_eq]
  by_cases last : t % 500 = 499
  · rw [placeRawTick_last _ _ last, if_pos last, assembly]
    refine ⟨by simp [stepEpochCount], fun within => absurd last within, fun _ => ⟨fun below => ?_, fun idle => ?_,
      fun o busy => ?_⟩⟩
    · simp [stepEpochCount, epochs, countOrFree_below _ below]
    · obtain ⟨held, counters, asked⟩ := offerEpoch_idle ((epochFor t c.dlv.assembly).place t (tickSamples t c))
        (c := stepEpochCount ((c.noticed t).onDlv fun d => { d with assembly := none })) (outgoing.trans idle)
      refine ⟨held, by rw [counters]; exact lost, ?_⟩
      rw [← layout]
      exact asked
    · obtain ⟨held, counters⟩ := offerEpoch_busy ((epochFor t c.dlv.assembly).place t (tickSamples t c))
        (c := stepEpochCount ((c.noticed t).onDlv fun d => { d with assembly := none })) (outgoing.trans busy)
      exact ⟨held, by rw [counters]; exact congrArg countUp lost⟩
  · rw [placeRawTick_within _ _ last, if_neg last]
    exact ⟨congrArg (fun a => some ((epochFor t a).place t (tickSamples t c))) assembly,
      fun _ => ⟨epochs, outgoing, lost⟩, fun reached => absurd reached last⟩

/-- H rises: the ticks of the run, the frames released, the progress block write of a completed epoch, the votes. -/
theorem updateHorizon_run {c : Chip} {h0 h1 : Nat} (horizon : c.lki.horizon = some h0)
    (smallest : c.lki.smallestNext = some h1) (rises : h0 < h1) :
    (∀ (n : Nat) (ch : Channel), c.chc.channels[n]? = some ch →
        (updateHorizon c).chc.channels[n]? = some ((List.range' h0 (h1 - h0)).foldl
          (fun k t => (condition n t (channelSample t c.lki.hubs n k) k).1) ch)) ∧
      (updateHorizon c).lki.horizon = some h1 ∧
      (∀ (m : Nat) (g : Hub), c.lki.hubs[m]? = some g →
        (updateHorizon c).lki.hubs[m]? = some
          (if g.state = .seeking then g
          else { g with buffer := g.buffer.filter fun f => decide (h1 < f.firstTick + 25) })) ∧
      (c.active = true → h0 / 500 < h1 / 500 →
        (if c.dlv.progress.isSome = true then (updateHorizon c).dlv.rewrite else (updateHorizon c).dlv.progressAsked) =
          true) ∧
      ∀ s, c.tcu.settings = some s →
        (updateHorizon c).ccu.prevCount = voteCount (h1 - 1) s.window (updateHorizon c).chc.channels := by
  rw [updateHorizon_settles horizon smallest rises]
  have links : (offerRipe (c.ranTicks h0 h1)).lki = ⟨c.lki.hubs.map (Hub.release h1), some h1⟩ := by
    simp [Chip.ranTicks, releaseFrames]
  have channels : (offerRipe (c.ranTicks h0 h1)).chc = (settleTicks h0 (h1 - h0) c).chc := by
    simp [Chip.ranTicks]
  have counts : (offerRipe (c.ranTicks h0 h1)).ccu.prevCount = (settleTicks h0 (h1 - h0) c).ccu.prevCount := by
    calc (offerRipe (c.ranTicks h0 h1)).ccu.prevCount
        = (c.ranTicks h0 h1).ccu.prevCount := (congrArg Ccu.prevCount (offerRipe_counts (c.ranTicks h0 h1)) :)
      _ = (settleTicks h0 (h1 - h0) c).ccu.prevCount := by simp [Chip.ranTicks]
  refine ⟨fun n ch here => ?_, by rw [links], fun m g here => ?_, fun active completed => ?_, fun s settings => ?_⟩
  · rw [channels]
    exact settleTicks_channel h0 (h1 - h0) here
  · rw [links, ← Hub.release_eq]
    simp [here]
  · have offered : (c.ranTicks h0 h1).Grows (offerRipe (c.ranTicks h0 h1)) := offerRipe_grows (.refl _)
    exact (Chip.Grows.asks offered (ranTicks_asks active completed) (by simp)).shown
  · have run : h0 + (h1 - h0) - 1 = h1 - 1 := by omega
    rw [counts, channels, settleTicks_prevCount h0 (h1 - h0) (Nat.sub_pos_of_lt rises) settings, run]

/-- A present sample of an enabled channel leaves its CF in the cell of its tick. -/
theorem condition_present_records (number t : Nat) (x : BitVec 24) {p : StationParams} {ch : Channel}
    (sound : ch.historySound = true) (enabled : ch.params = some p) :
    ∃ cf ch', cf ≤ 254 ∧ (condition number t (some x) ch).1 = ch' ∧ ch'.historySound = true ∧
      cf = min 254 (16 * ch'.sta / max ch'.lta (16 * p.floor)) ∧
      ch'.sta = (ch.takeSample x p).sta ∧ ch'.lta = (ch.takeSample x p).lta ∧ ch'.xPrev = some x ∧
      cellRead absentCf ch'.history (t % 4096) = BitVec.ofNat 8 cf ∧
      (∀ i < 4096, i ≠ t % 4096 → cellRead absentCf ch'.history i = cellRead absentCf ch.history i) ∧
      ch'.warm = (if ch.warm < 2 ^ p.kl then ch.warm + 1 else ch.warm) ∧ ch'.params = ch.params ∧
      ch'.invalid = ch.invalid := by
  let cf := ratioCf (ch.takeSample x p).sta (ch.takeSample x p).lta p.floor
  have judged : Kept.byJudge (ch.heard t x p) (condition number t (some x) ch).1 := by
    rw [condition_present number t x enabled]
    exact judgeTrigger_frame number t _ p _
  obtain ⟨prev, sta, lta, warm, params, invalid, history⟩ := judged
  obtain ⟨cell, others⟩ := recordCf_cells t (BitVec.ofNat 8 cf) (ch := ch.takeSample x p) sound
  have kept : (ch.heard t x p).historySound = true := recordCf_historySound t _ (ch := ch.takeSample x p) sound
  refine ⟨cf, _, ratioCf_le _ _ _, rfl, ?_, ?_, sta, lta, prev, history ▸ cell,
    fun i small other => history ▸ others i small other, warm, params, invalid⟩
  · simpa only [Channel.historySound, history] using kept
  · rw [sta, lta]
    rfl

/-- Settles O25: `settleTick` and `updateHorizon` by the lemmas above, with the statement's sample of a channel the
model's; a present sample by `condition_present_records`. -/
theorem characteristicFunctionIsRecorded : Obligations.CharacteristicFunctionIsRecorded := by
  refine ⟨?_, fun number t x p ch sound enabled => condition_present_records number t x sound enabled⟩
  intro c presented
  have sample : presented = fun t n ch => channelSample t c.lki.hubs n ch := by
    funext t n ch
    have covering : (c.lki.hubs.getD (n / 16) Hub.atReset).buffer.find?
        (fun f => decide (f.firstTick ≤ t) && decide (t < f.firstTick + 25)) =
      (c.lki.hubs.getD (n / 16) Hub.atReset).buffer.find? (Frame.covers t) := rfl
    simp only [presented, channelSample, Hub.sampleAt, covering]
    cases (c.lki.hubs.getD (n / 16) Hub.atReset).buffer.find? (Frame.covers t) with
    | none => simp
    | some f => grind
  clear_value presented
  subst sample
  refine ⟨fun t => ?_, fun h0 h1 horizon smallest rises => updateHorizon_run horizon smallest rises,
    fun h0 horizon stays => updateHorizon_stays horizon fun h1 smallest => by simpa [smallest] using stays⟩
  obtain ⟨assembly, within, last⟩ := settleTick_raw t c
  exact ⟨fun n ch here => settleTick_channel t here, by simp, assembly, fun s settings =>
    settleTick_prevCount t settings,
    within, last⟩

end Sys2Proof.Machine
end


section
/-! SUPPORT. The HUBS reload (R37, R122, R126): the entries it leaves, the hubs that act on them, and the update of H,
which records no fault when H stays. -/

namespace Sys2Proof.Machine

/-! ## The entries and the failed reads (R122, R126) -/

/-- An entry that was read replaces the old one, and one whose read failed is kept. -/
theorem reloadedHubs_getElem? (got : List (Option (List Byte))) (old : List (Option HubEntry)) (n : Nat)
    (few : got.length ≤ old.length) :
    (∀ y, got[n]? = some (some y) → (reloadedHubs got old)[n]? = some (some (parseHubEntry y))) ∧
      (got[n]? = some none → (reloadedHubs got old)[n]? = old[n]?) := by
  induction got generalizing old n with
  | nil => simp
  | cons x got ih =>
    cases old with
    | nil => simp at few
    | cons e old =>
      cases n with
      | zero => cases x <;> simp [reloadedHubs]
      | succ n => cases x <;> simpa [reloadedHubs] using ih old n (by simpa using few)

/-- The numbers of the failed reads are as many as the failed reads. -/
theorem failedCount_eq (got : List (Option (List Byte))) : failedCount got = (got.filter Option.isNone).length := by
  have counted (start : Nat) : ((numbered start got).filterMap fun e => if e.2.isNone then some e.1 else none).length =
      (got.filter Option.isNone).length := by
    induction got generalizing start with
    | nil => rfl
    | cons x got ih => cases x <;> simpa [numbered] using ih (start + 1)
  exact counted 0

/-! ## The hubs (R37) -/

/-- The state of a hub after its entry: DISABLED when it is newly not enabled, SEEKING when it was DISABLED and is newly
enabled in LISTENING, and as before otherwise. -/
theorem Hub.reenter_state (listening : Bool) (old new : Option HubEntry) (h : Hub) :
    (h.reenter listening old new).state =
      if hubEnabled old = true ∧ hubEnabled new = false then .disabled
      else if hubEnabled old = false ∧ hubEnabled new = true ∧ listening = true ∧ h.state = .disabled then .seeking
      else h.state := by
  have seek : h.seek.state = if h.state = .disabled then .seeking else h.state := by
    cases state : h.state <;> simp [Hub.seek, state]
  unfold Hub.reenter
  cases hubEnabled old <;> cases hubEnabled new <;> cases listening <;> simp [seek, Hub.disable]

/-- Each hub acts on its own entry. -/
theorem reenterHubs_getElem? (listening : Bool) {old new : List (Option HubEntry)} {hubs : List Hub} {k : Nat} {h : Hub}
    {o n : Option HubEntry} (hub : hubs[k]? = some h) (was : old[k]? = some o) (is_ : new[k]? = some n) :
    (reenterHubs listening old new hubs)[k]? = some (h.reenter listening o n) := by
  induction k generalizing old new hubs with
  | zero =>
    cases old <;> cases new <;> cases hubs <;> simp_all [reenterHubs]
  | succ k ih =>
    cases old with
    | nil => cases was
    | cons _ old =>
      cases new with
      | nil => cases is_
      | cons _ new =>
        cases hubs with
        | nil => cases hub
        | cons _ hubs => exact ih hub was is_

/-- The update of H that leaves H as it is changes nothing. -/
theorem updateHorizon_same {c : Chip} (same : (updateHorizon c).lki.horizon = c.lki.horizon) : updateHorizon c = c := by
  obtain ⟨h0, h1, horizon, -, rises, raised⟩ | ⟨unset, h1, -, set⟩ | ⟨stays, -⟩ := updateHorizon_lki c
  · rw [raised, horizon] at same
    exact absurd (Option.some.inj same) rises.ne'
  · rw [set, unset] at same
    cases same
  · unfold updateHorizon
    obtain none_ | ⟨h0, h1, horizon, smallest, stays⟩ := stays
    · rw [none_]
      cases c.lki.horizon <;> rfl
    · simp only [horizon, smallest, if_neg stays.not_gt]

/-- The links of a part that has adopted new hub entries, before the update of H. -/
def Chip.reentered (new : List (Option HubEntry)) (c : Chip) : Chip :=
  { c with
    lki := { c.lki with
      hubs := reenterHubs (decide (c.rgp.partState = .listening)) c.tcu.hubEntries new c.lki.hubs }
    tcu := { c.tcu with hubEntries := new } }

theorem adoptHubs_eq (new : List (Option HubEntry)) (c : Chip) : adoptHubs new c = updateHorizon (c.reentered new) :=
  rfl

theorem adoptHubs_active (new : List (Option HubEntry)) (c : Chip) : (adoptHubs new c).active = c.active :=
  updateHorizon_active (c.reentered new)

@[simp] theorem adoptHubs_entries (new : List (Option HubEntry)) (c : Chip) :
    (adoptHubs new c).tcu.hubEntries = new := by
  simp [adoptHubs_eq, Chip.reentered]

/-- The states of the hubs after the adoption. -/
theorem adoptHubs_state (new : List (Option HubEntry)) {c : Chip} {k : Nat} {h : Hub} {o n : Option HubEntry}
    (hub : c.lki.hubs[k]? = some h) (was : c.tcu.hubEntries[k]? = some o) (is_ : new[k]? = some n) :
    ((adoptHubs new c).lki.hubs[k]?).map Hub.state = some
      (if hubEnabled o = true ∧ hubEnabled n = false then .disabled
      else if hubEnabled o = false ∧ hubEnabled n = true ∧ c.rgp.partState = .listening ∧ h.state = .disabled then
        .seeking
      else h.state) := by
  have placed := congrArg (Option.map Prod.fst) (updateHorizon_placed (c.reentered new) k)
  simp only [Option.map_map, Function.comp_def] at placed
  have entered : (c.reentered new).lki.hubs[k]? =
      some (h.reenter (decide (c.rgp.partState = .listening)) o n) := reenterHubs_getElem? _ hub was is_
  rw [adoptHubs_eq, placed, entered, Option.map_some, Hub.reenter_state]
  simp only [decide_eq_true_eq]

theorem adoptHubs_grows (new : List (Option HubEntry)) (c : Chip) : c.Grows (adoptHubs new c) :=
  updateHorizon_grows (d := c.reentered new) (Chip.Grows.refl c)

end Sys2Proof.Machine
end

section
/-! PROOFS. The statement about the HUBS reload (R22, R30, R37, R122, R126, R171). -/

namespace Sys2Proof.Machine

/-- The part as the hubs of an answered reload leave it. -/
theorem hubsAnswered_eq (a : Access) (x : Option (List Byte)) {c : Chip} {r : Reload} (reload : c.tcu.reload = some r) :
    hubsAnswered a x c = performHubs { r with got := r.got ++ [x] } (noteReloadRead x c) := by
  have noted : (noteReloadRead x c).tcu.reload = some { r with got := r.got ++ [x] } := by
    simp [noteReloadRead, reload]
  simp only [hubsAnswered, noted]

theorem exec_hubsReloadDone {c : Chip} {a : Access} {x : Option (List Byte)} {n : Nat} {r : Reload} (q : List Instr)
    (onBus : c.mpt.onBus = some a) (purpose : a.purpose = .reloadHub n true)
    (length : ∀ b, x = some b → b.length = a.len) (running : c.rgp.partState ≠ .faulted)
    (reload : c.tcu.reload = some r) :
    exec (.hubsReloadDone (readAnswerOf x)) ⟨c, q⟩ = .next ⟨concludeStep
      (performHubs { r with got := r.got ++ [x] } (noteReloadRead x (c.answered a x))), q⟩ := by
  rw [← hubsAnswered_eq a x (by simpa using reload)]
  exact answerRead_answered isLastHub hubsAnswered q onBus (purpose ▸ rfl) (purpose ▸ rfl) length running

/-- Settles O38: the hubs act on their entries, H is updated, and the order is reported. -/
theorem hubsReloadDisablesAndSeeks : Obligations.HubsReloadDisablesAndSeeks := by
  intro c q a x n r onBus purpose length active running reload alone fifteen sixteen entries got
  let r' : Reload := { r with got := got }
  let new := reloadedHubs got c.tcu.hubEntries
  let e := noteReloadRead x (c.answered a x)
  let f := countInvalidation (linkEvent (adoptHubs new) e)
  let result : SlotResult := ⟨if got.any Option.isNone = true then 10 else 1, 6, 0, (got.filter Option.isNone).length⟩
  have tcu : e.tcu = { c.tcu with reload := some r' } := by simp [e, noteReloadRead, reload, r', got]
  have performed : performHubs r' e = endReload r.order (some result) f := by
    have counted : entryResult (scopeWord scopeHubs 0 0 0) got = result := by
      rw [entryResult, failedCount_eq]
      rfl
    rw [performHubs, tcu]
    exact congrArg (fun s => endReload r.order (some s) f) counted
  have next := exec_hubsReloadDone q onBus purpose length running reload
  rw [performed] at next
  have waiting : f.tcu.waiting = [] := by simpa [f, tcu] using alone
  have ended := concludeStep_endReload r.order (some result) waiting
  have done := (concludeStep_endReload_done r.order result waiting).1
  have layout : f.layout = c.layout := by simp [Chip.layout, f, e]
  rw [layout] at done
  let d := concludeStep (endReload r.order (some result) f)
  have lki : d.lki = (adoptHubs new e).lki := by simp [d, f]
  have links : e.lki = c.lki := by simp [e]
  have rgp : e.rgp = c.rgp := by simp [e, answered_rgp a active]
  have hubEntries : d.tcu.hubEntries = new := by rw [ended.tcu]; simp [f]
  have read (k : Nat) := reloadedHubs_getElem? got c.tcu.hubEntries k (by simp [got, fifteen, entries])
  have faults : d.mpt.records = (adoptHubs new e).mpt.records ∧ d.mpt.overflow = (adoptHubs new e).mpt.overflow := by
    simp [d, f]
  have grows : e.Grows f := linkEvent_grows (adoptHubs_grows new e)
  refine ⟨d, next, fun k => hubEntries ▸ (read k).1, fun k => hubEntries ▸ (read k).2,
    fun k h old entry hub was is_ => ?_, fun hz horizon => ?_, ?_, ?_, done, fun failed => ?_, ?_, ?_⟩
  · rw [hubEntries] at is_
    rw [lki, adoptHubs_state new (links ▸ hub) (by rw [tcu]; exact was) is_, rgp]
  · rw [lki]
    exact updateHorizon_rises (c := e.reentered new) (by simpa [Chip.reentered, links] using horizon)
  · rw [ended.tcu]; simp [f, countInvalidation, tcu]
  · rw [ended.tcu]
  · have asked : c.dlv.Asks e.dlv := by
      subst failed
      simpa [e] using answered_asks a (active rfl)
    have active : f.active = true := by simpa [f, adoptHubs_active, e] using active failed
    exact ended.shows c.dlv (Chip.Grows.asks (d := f) grows asked (by simp [f])) active
  · simp [d, f, e]
  · intro recorded
    have before : e.mpt.records = recorded.records ∧ e.mpt.overflow = recorded.overflow := by
      simp only [recorded, apply_ite Mpt.records, apply_ite Mpt.overflow]
      exact answered_records (source := .tables) (congrArg faultSourceOf purpose) x c
    refine ⟨fun fault held tables => ?_, fun same => ?_⟩
    · rw [faults.1]
      exact (adoptHubs_grows new e).faults fault (before.1 ▸ held) tables
    · rw [lki, ← links] at same
      have unchanged : adoptHubs new e = e.reentered new := updateHorizon_same same
      rw [faults.1, faults.2, unchanged]
      exact before

end Sys2Proof.Machine
end


section
/-! SUPPORT. The STATIONS reload (R54, R58, R59, R121, R153, R154): a pick that is formed, the entries and channels that
the reload leaves, and its restarts, in channel order. -/

namespace Sys2Proof.Machine

/-! ## A pick that is formed (R54, R60, R153, R154) -/

theorem formPick_unreported {f : FormedPick} (c : Chip) (unreported : f.report = false) :
    formPick f c = { c with chc := { c.chc with counters :=
      { c.chc.counters.countReason f.pick.reason with
        unreported := countUp (c.chc.counters.countReason f.pick.reason).unreported } } } :=
  if_neg (Bool.eq_false_iff.mp unreported)

theorem formPick_reported {f : FormedPick} (c : Chip) (reported : f.report = true) :
    formPick f c = deliverPick f.pick (onChcCounters (fun n => n.countReason f.pick.reason) c) := if_pos reported

/-- With room a pick takes the next sequence and the next slot. -/
theorem deliverPick_written (p : Pick) {c : Chip} (room : c.dlv.pick.hasRoom = true) :
    (deliverPick p c).dlv = { c.dlv with pick := { c.dlv.pick with
        sequence := nextSequence c.dlv.pick.sequence, written := c.dlv.pick.written + 1 } } ∧
      (deliverPick p c).mpt.waitDlv = c.mpt.waitDlv ++ [writeAccess (.record .pick)
        (c.layout.picks + (c.dlv.pick.written.toNat % c.dlv.pick.slots) * 32)
        (pickBytes (nextSequence c.dlv.pick.sequence) p)] := by
  rw [deliverPick, if_pos room]
  exact ⟨rfl, rfl⟩

/-- Without room it is lost. -/
theorem deliverPick_lost (p : Pick) {c : Chip} (full : c.dlv.pick.hasRoom = false) :
    deliverPick p c = meetNoRoom .pick (c.onDlvCounters fun n => { n with lostPicks := countUp n.lostPicks }) :=
  if_neg (Bool.eq_false_iff.mp full)

/-- The no-room mark of the pick stream is set, and ROOM with it when it was clear (R153). -/
theorem meetNoRoom_pick (c : Chip) :
    (meetNoRoom .pick c).dlv.pick = { c.dlv.pick with noRoom := true } ∧
      (c.dlv.pick.noRoom = false → (meetNoRoom .pick c).raised causeRoom) := by
  rw [Chip.raised, meetNoRoom]
  simp only [beginReturnRead_frame]
  cases marked : c.dlv.pick.noRoom with
  | true =>
    have kept : markNoRoom .pick c = c := if_pos marked
    rw [kept]
    exact ⟨by rw [← marked], nofun⟩
  | false =>
    have set : markNoRoom .pick c = setCause causeRoom (onStream .pick (fun s => { s with noRoom := true }) c) :=
      if_neg (by simpa [Dlv.stream] using marked)
    rw [set]
    exact ⟨rfl, fun _ => setCause_raised _ _ (by decide)⟩

/-! ## Parts that form the same picks -/

/-- Two parts agree in all that forming a pick looks at, and in what it leaves behind. -/
structure Chip.PicksAlike (c d : Chip) : Prop where
  layout : c.layout = d.layout
  active : c.active = d.active
  counters : { c.chc.counters with restarts := 0 } = { d.chc.counters with restarts := 0 }
  pick : c.dlv.pick = d.dlv.pick
  delivered : c.dlv.counters = d.dlv.counters
  returnRead : c.dlv.returnRead = d.dlv.returnRead
  waitDlv : c.mpt.waitDlv = d.mpt.waitDlv

theorem ChcCounters.countReason_restarts (n : ChcCounters) (r : EndReason) :
    { n.countReason r with restarts := 0 } = { n with restarts := 0 }.countReason r ∧
      (n.countReason r).restarts = n.restarts := by
  cases r <;> exact ⟨rfl, rfl⟩

theorem beginReturnRead_alike {c d : Chip} (h : c.PicksAlike d) :
    (beginReturnRead c).PicksAlike (beginReturnRead d) := by
  obtain ⟨layout, active, counters, pick, delivered, returnRead, waitDlv⟩ := h
  unfold beginReturnRead
  rw [active, returnRead, layout]
  split
  · split
    · exact ⟨layout, active, counters, pick, delivered, returnRead, waitDlv⟩
    · exact ⟨layout, active, counters, pick, delivered, rfl, congrArg (· ++ _) waitDlv⟩
  · exact ⟨layout, active, counters, pick, delivered, returnRead, waitDlv⟩

theorem markNoRoom_pick (c : Chip) : (markNoRoom .pick c).dlv.pick = { c.dlv.pick with noRoom := true } := by
  have noted := (meetNoRoom_pick c).1
  simpa only [meetNoRoom, beginReturnRead_frame] using noted

theorem meetNoRoom_alike {c d : Chip} (h : c.PicksAlike d) : (meetNoRoom .pick c).PicksAlike (meetNoRoom .pick d) := by
  obtain ⟨layout, active, counters, pick, delivered, returnRead, waitDlv⟩ := h
  refine beginReturnRead_alike ⟨by simpa [Chip.layout] using layout, by simpa using active, by simpa using counters,
    ?_, by simpa using delivered, by simpa using returnRead, by simpa using waitDlv⟩
  rw [markNoRoom_pick, markNoRoom_pick, pick]

theorem deliverPick_alike (p : Pick) {c d : Chip} (h : c.PicksAlike d) :
    (deliverPick p c).PicksAlike (deliverPick p d) := by
  obtain ⟨layout, active, counters, pick, delivered, returnRead, waitDlv⟩ := h
  cases room : c.dlv.pick.hasRoom with
  | true =>
    obtain ⟨dlv, asked⟩ := deliverPick_written p room
    obtain ⟨dlv', asked'⟩ := deliverPick_written p (c := d) (pick ▸ room)
    refine ⟨by simpa [Chip.layout] using layout, by simpa using active, by simpa using counters, ?_, ?_, ?_, ?_⟩
    · rw [dlv, dlv', pick]
    · rw [dlv, dlv', delivered]
    · rw [dlv, dlv', returnRead]
    · rw [asked, asked', layout, pick, waitDlv]
  | false =>
    rw [deliverPick_lost p room, deliverPick_lost p (c := d) (pick ▸ room)]
    exact meetNoRoom_alike ⟨layout, active, counters, pick,
      congrArg (fun n => { n with lostPicks := countUp n.lostPicks }) delivered, returnRead, waitDlv⟩

theorem formPick_alike (f : FormedPick) {c d : Chip} (h : c.PicksAlike d) :
    (formPick f c).PicksAlike (formPick f d) := by
  obtain ⟨layout, active, counters, pick, delivered, returnRead, waitDlv⟩ := h
  have counted : { c.chc.counters.countReason f.pick.reason with restarts := 0 } =
      { d.chc.counters.countReason f.pick.reason with restarts := 0 } := by
    rw [(ChcCounters.countReason_restarts _ _).1, (ChcCounters.countReason_restarts _ _).1, counters]
  cases report : f.report with
  | true =>
    rw [formPick_reported c report, formPick_reported d report]
    exact deliverPick_alike f.pick ⟨layout, active, counted, pick, delivered, returnRead, waitDlv⟩
  | false =>
    rw [formPick_unreported c report, formPick_unreported d report]
    exact ⟨layout, active, congrArg (fun n : ChcCounters => { n with unreported := countUp n.unreported }) counted,
      pick,
      delivered, returnRead, waitDlv⟩

theorem formPicks_alike (l : List FormedPick) {c d : Chip} (h : c.PicksAlike d) :
    (formPicks l c).PicksAlike (formPicks l d) := by
  induction l generalizing c d with
  | nil => exact h
  | cons f l ih => exact ih (formPick_alike f h)

theorem formPicks_append (l k : List FormedPick) (c : Chip) : formPicks (l ++ k) c = formPicks k (formPicks l c) := by
  induction l generalizing c with
  | nil => rfl
  | cons f l ih => exact ih _

theorem formPicks_restarts (l : List FormedPick) (c : Chip) :
    (formPicks l c).chc.counters.restarts = c.chc.counters.restarts := by
  induction l generalizing c with
  | nil => rfl
  | cons f l ih =>
    rw [formPicks, ih]
    cases report : f.report with
    | true =>
      rw [formPick_reported c report]
      simpa [onChcCounters] using (ChcCounters.countReason_restarts _ _).2
    | false =>
      rw [formPick_unreported c report]
      exact (ChcCounters.countReason_restarts _ _).2

/-! ## The entries and the channels (R58, R121) -/

/-- Each item of a list takes the answer of its own read, when there is one with data. -/
def takeAnswers {α : Type} (f : List Byte → α → α) : Nat → List (Option (List Byte)) → List α → List α
  | _, [], l => l
  | n, none :: got, l => takeAnswers f (n + 1) got l
  | n, some b :: got, l => takeAnswers f (n + 1) got (modifyAt (f b) l n)

theorem takeAnswers_outside {α : Type} (f : List Byte → α → α) {n m : Nat} {got : List (Option (List Byte))}
    (outside : m < n ∨ n + got.length ≤ m) (l : List α) : (takeAnswers f n got l)[m]? = l[m]? := by
  induction got generalizing n l with
  | nil => rfl
  | cons x got ih =>
    rw [List.length_cons] at outside
    have rest (k : List α) : (takeAnswers f (n + 1) got k)[m]? = k[m]? := ih (by omega) k
    cases x with
    | none => exact rest l
    | some b => exact (rest _).trans (by rw [modifyAt_getElem?, if_neg (by omega)])

theorem takeAnswers_answered {α : Type} (f : List Byte → α → α) {n k : Nat} {got : List (Option (List Byte))}
    {x : Option (List Byte)} (answer : got[k]? = some x) (l : List α) :
    (takeAnswers f n got l)[n + k]? = x.elim l[n + k]? fun b => (l[n + k]?).map (f b) := by
  induction got generalizing n k l with
  | nil => cases answer
  | cons y got ih =>
    cases k with
    | zero =>
      obtain rfl : y = x := by simpa using answer
      cases y with
      | none => exact takeAnswers_outside f (n := n + 1) (.inl (Nat.lt_succ_self n)) l
      | some b =>
        have here := takeAnswers_outside f (n := n + 1) (got := got) (.inl (Nat.lt_succ_self n)) (modifyAt (f b) l n)
        exact here.trans (by rw [modifyAt_getElem?, if_pos rfl]; rfl)
    | succ k =>
      have rest (l : List α) := ih (n := n + 1) (k := k) (by simpa using answer) l
      rw [Nat.add_right_comm, Nat.add_assoc] at rest
      cases y with
      | none => exact rest l
      | some b =>
        have kept : (modifyAt (f b) l n)[n + (k + 1)]? = l[n + (k + 1)]? := by
          rw [modifyAt_getElem?, if_neg (by omega)]
        exact (rest _).trans (by rw [kept])

/-! ## The restarts (R58, R59) -/

/-- A channel that its answered entry restarts, with its number and the values it captures. -/
def restartOf (chs : List Channel) (e : Nat × Option (List Byte)) : Option (Nat × Channel × Option StationParams) :=
  e.2.bind fun y => (chs[e.1]?).bind fun ch =>
    if reloadRestarts ch.params (stationParams (parseStation y)) = true then
      some (e.1, ch, stationParams (parseStation y))
    else none

/-- The channels that the answers from a first channel on restart, in channel order. -/
def restartsFrom (n : Nat) (got : List (Option (List Byte))) (chs : List Channel) :
    List (Nat × Channel × Option StationParams) := (numbered n got).filterMap (restartOf chs)

/-- The pick of a restart that finds its trigger ON. -/
def restartPick (horizon : Option Nat) (e : Nat × Channel × Option StationParams) : Option FormedPick :=
  if e.2.1.trigger = .on then some (endPick e.1 (horizon.getD 0 - 1) (reloadReason e.2.2) e.2.1) else none

/-- A channel after its answered entry. -/
def Channel.reloaded (b : List Byte) (ch : Channel) : Channel :=
  if reloadRestarts ch.params (stationParams (parseStation b)) then (ch.capture (parseStation b)).restart
  else ch.capture (parseStation b)

/-- The restarts behind a channel do not look at it. -/
theorem restartsFrom_modifyAt (n : Nat) (got : List (Option (List Byte))) (f : Channel → Channel) (chs : List Channel) :
    restartsFrom (n + 1) got (modifyAt f chs n) = restartsFrom (n + 1) got chs := by
  refine List.filterMap_congr fun e listed => ?_
  have behind : e.1 ≠ n := by
    rw [numbered_eq_zipIdx] at listed
    obtain ⟨⟨x, k⟩, member, rfl⟩ := List.mem_map.mp listed
    have := (List.mem_zipIdx member).1
    simp only [Prod.swap]
    omega
  rw [restartOf, modifyAt_getElem?, if_neg behind]
  rfl

/-- One channel acts on its entry: what it becomes, and its restart. -/
theorem reloadChannel_spec (n : Nat) (b : List Byte) {c d : Chip} {ch : Channel} (here : c.chc.channels[n]? = some ch)
    (alike : c.PicksAlike d) :
    (reloadChannel n (parseStation b) c).chc.channels = modifyAt (Channel.reloaded b) c.chc.channels n ∧
      (reloadChannel n (parseStation b) c).chc.counters.restarts =
        addCount c.chc.counters.restarts (restartOf c.chc.channels (n, some b)).toList.length ∧
      (reloadChannel n (parseStation b) c).PicksAlike
        (formPicks ((restartOf c.chc.channels (n, some b)).toList.filterMap (restartPick c.lki.horizon)) d) := by
  have at_ : channelAt n c = ch := by simp [channelAt, List.getD, here]
  have after (f : Channel → Channel) (same : f ch = ch.reloaded b) :
      modifyAt f c.chc.channels n = modifyAt (Channel.reloaded b) c.chc.channels n := by
    refine List.ext_getElem? fun i => ?_
    rw [modifyAt_getElem?, modifyAt_getElem?]
    split
    case isTrue eq => rw [eq, here, Option.map_some, Option.map_some, same]
    case isFalse => rfl
  obtain ⟨layout, active, counters, pick, delivered, returnRead, waitDlv⟩ := alike
  unfold reloadChannel
  rw [at_]
  by_cases restarts : reloadRestarts ch.params (stationParams (parseStation b)) = true
  · have listed : restartOf c.chc.channels (n, some b) = some (n, ch, stationParams (parseStation b)) := by
      simp [restartOf, here, restarts]
    have picks : [(n, ch, stationParams (parseStation b))].filterMap (restartPick c.lki.horizon) =
        reloadPick c.lki.horizon n (stationParams (parseStation b)) ch := by
      unfold reloadPick
      split <;> simp [restartPick, *]
    rw [if_pos restarts, listed, Option.toList_some, picks]
    refine ⟨?_, ?_, formPicks_alike _ ⟨layout, active, counters, pick, delivered, returnRead, waitDlv⟩⟩
    · rw [← after (fun ch => (ch.capture (parseStation b)).restart) (by rw [Channel.reloaded, if_pos restarts])]
      simp [onChannel]
    · exact formPicks_restarts _ _
  · have listed : restartOf c.chc.channels (n, some b) = none := by simp [restartOf, here, restarts]
    rw [if_neg restarts, listed]
    refine ⟨after _ (by rw [Channel.reloaded, if_neg restarts]), (addCount_zero _).symm,
      ⟨layout, active, counters, pick, delivered, returnRead, waitDlv⟩⟩

/-- The answers of a reload are presented to CHC in channel order. -/
theorem presentStations_spec (n : Nat) (got : List (Option (List Byte))) {c d : Chip}
    (fits : n + got.length ≤ c.chc.channels.length) (alike : c.PicksAlike d) :
    (presentStations n got c).chc.channels = takeAnswers Channel.reloaded n got c.chc.channels ∧
      (presentStations n got c).tcu.stationEntries =
        takeAnswers (fun b _ => some (parseStation b)) n got c.tcu.stationEntries ∧
      (presentStations n got c).chc.counters.restarts =
        addCount c.chc.counters.restarts (restartsFrom n got c.chc.channels).length ∧
      (presentStations n got c).PicksAlike
        (formPicks ((restartsFrom n got c.chc.channels).filterMap (restartPick c.lki.horizon)) d) := by
  induction got generalizing n c d with
  | nil => exact ⟨rfl, rfl, (addCount_zero _).symm, alike⟩
  | cons x got ih =>
    rw [List.length_cons] at fits
    have head : restartsFrom n (x :: got) c.chc.channels =
        (restartOf c.chc.channels (n, x)).toList ++ restartsFrom (n + 1) got c.chc.channels := by
      rw [restartsFrom, numbered, List.filterMap_cons]
      cases restartOf c.chc.channels (n, x) <;> rfl
    rw [head]
    cases x with
    | none => exact ih (n + 1) (by omega) alike
    | some b =>
      let stored := c.onTcu fun t =>
        { t with stationEntries := modifyAt (fun _ => some (parseStation b)) t.stationEntries n }
      let one := reloadChannel n (parseStation b) stored
      obtain ⟨layout, active, counters, pick, delivered, returnRead, waitDlv⟩ := alike
      have here : stored.chc.channels[n]? = some (c.chc.channels[n]'(by omega)) := List.getElem?_eq_getElem _
      obtain ⟨channels, restarts, picks⟩ := reloadChannel_spec n b (d := d) here
        ⟨layout, active, counters, pick, delivered, returnRead, waitDlv⟩
      have length : one.chc.channels.length = c.chc.channels.length := by
        rw [channels, modifyAt_length]
        rfl
      obtain ⟨channels', entries', restarts', picks'⟩ := ih (n + 1) (c := one) (by omega) picks
      have later : restartsFrom (n + 1) got one.chc.channels = restartsFrom (n + 1) got c.chc.channels := by
        rw [channels]
        exact restartsFrom_modifyAt ..
      have horizon : one.lki.horizon = c.lki.horizon := by simp [one, stored]
      rw [later] at restarts' picks'
      rw [horizon, ← formPicks_append] at picks'
      refine ⟨channels'.trans (by rw [channels]; rfl), entries'.trans (by simp [one, stored, takeAnswers]), ?_, ?_⟩
      · rw [presentStations, restarts', restarts, addCount_addCount, List.length_append]
        rfl
      · rw [List.filterMap_append]
        exact picks'

end Sys2Proof.Machine
end


section
/-! PROOFS. The statement about the STATIONS reload (R41, R42, R54, R58 to R60, R121, R126, R153, R154, R171). -/

namespace Sys2Proof.Machine

/-- The restarts by the places of the answers. -/
theorem restartsFrom_eq (n : Nat) (got : List (Option (List Byte))) (chs : List Channel) :
    restartsFrom n got chs = (numbered 0 got).filterMap fun e => restartOf chs (n + e.1, e.2) := by
  have shifted : numbered n got = (numbered 0 got).map fun e => (n + e.1, e.2) := by
    rw [numbered_eq_zipIdx, numbered_eq_zipIdx, List.zipIdx_eq_map_add]
    simp [Function.comp_def]
  rw [restartsFrom, shifted, List.filterMap_map]
  rfl

/-- The part as the stations of an answered reload leave it. -/
theorem stationsAnswered_eq (a : Access) (x : Option (List Byte)) {c : Chip} {r : Reload}
    (reload : c.tcu.reload = some r) :
    stationsAnswered a x c = performStations { r with got := r.got ++ [x] } (noteReloadRead x c) := by
  have noted : (noteReloadRead x c).tcu.reload = some { r with got := r.got ++ [x] } := by
    simp [noteReloadRead, reload]
  simp only [stationsAnswered, noted]

theorem exec_stationsReloadDone {c : Chip} {a : Access} {x : Option (List Byte)} {n : Nat} {r : Reload} (q : List Instr)
    (onBus : c.mpt.onBus = some a) (purpose : a.purpose = .reloadStation n true)
    (length : ∀ b, x = some b → b.length = a.len) (running : c.rgp.partState ≠ .faulted)
    (reload : c.tcu.reload = some r) :
    exec (.stationsReloadDone (readAnswerOf x)) ⟨c, q⟩ = .next ⟨concludeStep
      (performStations { r with got := r.got ++ [x] } (noteReloadRead x (c.answered a x))), q⟩ := by
  rw [← stationsAnswered_eq a x (by simpa using reload)]
  exact answerRead_answered isLastStation stationsAnswered q onBus (purpose ▸ rfl) (purpose ▸ rfl) length running

/-- The end of an access leaves all that forming a pick looks at. -/
theorem noteReloadRead_alike (a : Access) {x : Option (List Byte)} {c : Chip} (active : x = none → c.active = true) :
    (noteReloadRead x (c.answered a x)).PicksAlike c := by
  have kept : (c.answered a x).dlv.returnRead = c.dlv.returnRead ∧ (c.answered a x).mpt.waitDlv = c.mpt.waitDlv := by
    cases x with
    | some b => exact ⟨rfl, rfl⟩
    | none => rw [answered_none a (active rfl)]; simp [Chip.accessEnded]
  exact ⟨by simp [Chip.layout], by simp, by simp, by simp, by simp, kept.1, kept.2⟩

/-- A pick that is formed is counted, and delivered or counted unreported. -/
theorem formPick_spec (f : FormedPick) (c : Chip) :
    let d := formPick f c
    let counted := c.chc.counters.countReason f.pick.reason
    (f.report = false → d = { c with chc := { c.chc with
      counters := { counted with unreported := countUp counted.unreported } } }) ∧
    (f.report = true → d.chc = { c.chc with counters := counted } ∧
      (c.dlv.pick.hasRoom = true →
        let seq := if c.dlv.pick.sequence.toNat = 4294967295 then 1 else c.dlv.pick.sequence + 1
        d.dlv = { c.dlv with pick := { c.dlv.pick with sequence := seq, written := c.dlv.pick.written + 1 } } ∧
        d.mpt.waitDlv = c.mpt.waitDlv ++ [writeAccess (.record .pick)
          (c.layout.picks + (c.dlv.pick.written.toNat % c.dlv.pick.slots) * 32) (pickBytes seq f.pick)]) ∧
      (c.dlv.pick.hasRoom = false →
        d.dlv.pick = { c.dlv.pick with noRoom := true } ∧
        d.dlv.counters = { c.dlv.counters with lostPicks := countUp c.dlv.counters.lostPicks } ∧
        (c.dlv.pick.noRoom = false → d.raised causeRoom))) := by
  intro d counted
  refine ⟨fun unreported => formPick_unreported c unreported, fun reported => ?_⟩
  have delivered : d = deliverPick f.pick (onChcCounters (fun n => n.countReason f.pick.reason) c) :=
    formPick_reported c reported
  rw [delivered]
  refine ⟨by simp [onChcCounters, counted], fun room => deliverPick_written f.pick (c := onChcCounters _ c) room,
    fun full => ?_⟩
  rw [deliverPick_lost f.pick (c := onChcCounters _ c) full]
  obtain ⟨marked, raised⟩ := meetNoRoom_pick ((onChcCounters (fun n => n.countReason f.pick.reason) c).onDlvCounters
    fun n => { n with lostPicks := countUp n.lostPicks })
  exact ⟨marked, by simp [onChcCounters], raised⟩

/-- Settles O37: the entries are presented in channel order, and the order is reported. -/
theorem stationsReloadRestartsChangedChannels : Obligations.StationsReloadRestartsChangedChannels := by
  refine ⟨formPick_spec, ?_⟩
  intro c q a x n r onBus purpose length active running reload alone channels entries fits got restarting picks formed
  have restarts : restarting = restartsFrom r.order.first got c.chc.channels := by
    rw [restartsFrom_eq]
    refine List.filterMap_congr fun e _ => ?_
    obtain ⟨k, y⟩ := e
    cases y with
    | none => rfl
    | some y =>
      simp only [restartOf, Option.bind_some]
      cases c.chc.channels[r.order.first + k]? <;> rfl
  have picked : picks = restarting.filterMap (restartPick c.lki.horizon) := rfl
  clear_value restarting
  subst restarts
  let r' : Reload := { r with got := got }
  let e := noteReloadRead x (c.answered a x)
  let f := countInvalidation (presentStations r.order.first got e)
  let result : SlotResult := ⟨if got.any Option.isNone = true then 10 else 1,
    5 + 1024 * r.order.first + 262144 * r.order.count, 0, (got.filter Option.isNone).length⟩
  have tcu : e.tcu = { c.tcu with reload := some r' } := by simp [e, noteReloadRead, reload, r', got]
  have performed : performStations r' e = endReload r.order (some result) f := by
    have counted : entryResult (scopeWord scopeStations 0 r.order.first r.order.count) got = result := by
      rw [entryResult, failedCount_eq]
      rfl
    exact congrArg (fun s => endReload r.order (some s) f) counted
  have next := exec_stationsReloadDone q onBus purpose length running reload
  rw [performed] at next
  have waiting : f.tcu.waiting = [] := by simpa [f, tcu] using alone
  have ended := concludeStep_endReload r.order (some result) waiting
  have done := concludeStep_endReload_done r.order result waiting
  have layout : f.layout = c.layout := by simp [Chip.layout, f, e]
  rw [layout] at done
  let d := concludeStep (endReload r.order (some result) f)
  have chc : e.chc = c.chc := by simp [e]
  have presented := presentStations_spec r.order.first got (c := e) (d := c)
    (by simp [chc, channels, got]; omega) (noteReloadRead_alike a active)
  have horizon : e.lki.horizon = c.lki.horizon := by simp [e]
  rw [chc, horizon, ← picked, tcu] at presented
  obtain ⟨chs, stations, restarts, alike⟩ := presented
  have dchc : d.chc = (presentStations r.order.first got e).chc := by simp [d, f]
  have dentries : d.tcu.stationEntries =
      takeAnswers (fun b _ => some (parseStation b)) r.order.first got c.tcu.stationEntries := by
    rw [ended.tcu]
    simpa [f] using stations
  rw [← dchc] at chs restarts
  have carried (y : Access) (asked : y ∈ formed.mpt.waitDlv) : d.mpt.carries y := by
    have waits : f.mpt.carries y := by
      rw [← alike.waitDlv] at asked
      simp [Mpt.carries, f, asked, countInvalidation]
    refine concludeStep_carries _ y ?_
    rw [endReload_alone r.order result waiting]
    exact reportInval_carried (c := f.onTcu _) _ _ _ waits
  obtain ⟨records, overflow⟩ := answered_records (source := .tables) (congrArg faultSourceOf purpose) x c
  have many : got.length = r.got.length + 1 := by simp [got]
  refine ⟨d, next, fun k y ch answer here => ⟨?_, ?_⟩, fun m outside => ?_, ?_, ?_, ?_, carried, ?_, by rw [ended.tcu],
    done.1, by rw [done.2]; simp [f, e], by simp [d, f, e], by simp [d, f, e], ?_, ?_, ?_, fun failed => ?_,
    by simp [d, f, e], by simpa [d, f, e] using records, by simpa [d, f, e] using overflow⟩
  · have small : k < got.length := (List.getElem?_eq_some_iff.mp answer).1
    have stored : c.tcu.stationEntries[r.order.first + k]? = some
      (c.tcu.stationEntries[r.order.first + k]'(by omega)) :=
      List.getElem?_eq_getElem _
    rw [dentries, takeAnswers_answered _ answer, stored]
    rfl
  · rw [chs, takeAnswers_answered _ answer, here]
    rfl
  · rw [chs, dentries]
    obtain inside | inside := Nat.lt_or_ge m r.order.first
    · exact ⟨takeAnswers_outside _ (.inl inside) _, takeAnswers_outside _ (.inl inside) _⟩
    · obtain ⟨k, rfl⟩ := Nat.exists_eq_add_of_le inside
      rw [Nat.add_sub_cancel_left] at outside
      obtain below | beyond | failed := outside
      · omega
      · exact ⟨takeAnswers_outside _ (.inr beyond) _, takeAnswers_outside _ (.inr beyond) _⟩
      · exact ⟨takeAnswers_answered _ failed _, takeAnswers_answered _ failed _⟩
  · have same := congrArg (fun k : ChcCounters => { k with
      restarts := addCount c.chc.counters.restarts (restartsFrom r.order.first got c.chc.channels).length })
        alike.counters
    rw [← dchc, ← restarts] at same
    rw [← restarts]
    exact same
  · rw [show d.dlv.pick = (presentStations r.order.first got e).dlv.pick by simp [d, f], alike.pick]
  · rw [show d.dlv.counters = (presentStations r.order.first got e).dlv.counters by simp [d, f], alike.delivered]
  · rw [ended.tcu]
    simp [f, countInvalidation, tcu]
  · rw [ended.sce]
    simp [f, e]
  · rw [ended.tcu]
    simp [f, tcu]
  · rw [ended.tcu]
    simp [f, tcu]
  · have asks : c.dlv.Asks f.dlv := by
      have answered : c.dlv.Asks e.dlv := by
        subst failed
        simpa [e] using answered_asks a (active rfl)
      exact answered.mono (by simp [f]) (by simp [f]) (by simp [f])
    have active : f.active = true := by simpa [f, e, Chip.active, answered_rgp a active] using active failed
    exact ended.shows c.dlv asks active

end Sys2Proof.Machine
end


section
/-! SUPPORT. The CF reads of the RUNNING scan (R57, R90 to R99): what a read finds and adds, the pair and the node it
ends, the stage ends and the finish that follow, and the rank of the arrivals. -/

namespace Sys2Proof.Machine

/-! ## The arrivals ranked (R99) -/

/-- An arrival stands before another: it has the larger weighted CF, or an equal one and the lower channel. -/
def Arrival.Precedes (a b : Arrival) : Prop :=
  b.weighted < a.weighted ∨ (a.weighted = b.weighted ∧ a.channel < b.channel)

theorem insertArrival_perm (a : Arrival) (l : List Arrival) : (insertArrival a l).Perm (a :: l) := by
  induction l with
  | nil => exact .refl _
  | cons b rest ih =>
    unfold insertArrival
    split
    · exact .refl _
    · exact (ih.cons b).trans (.swap a b rest)

/-- An arrival of a higher channel than all of a ranked list takes its place in it. -/
theorem insertArrival_ranked {a : Arrival} {l : List Arrival} (ranked : l.Pairwise Arrival.Precedes)
    (later : ∀ b ∈ l, b.channel < a.channel) : (insertArrival a l).Pairwise Arrival.Precedes := by
  induction l with
  | nil => exact List.pairwise_singleton _ _
  | cons b rest ih =>
    obtain ⟨first, rest_ranked⟩ := List.pairwise_cons.mp ranked
    obtain ⟨above, rest_later⟩ := List.forall_mem_cons.mp later
    unfold insertArrival
    split
    case isTrue larger =>
      refine List.pairwise_cons.mpr ⟨List.forall_mem_cons.mpr ⟨.inl larger, fun x member => .inl ?_⟩, ranked⟩
      obtain less | ⟨equal, -⟩ := first x member <;> omega
    case isFalse notLarger =>
      refine List.pairwise_cons.mpr ⟨fun x member => ?_, ih rest_ranked rest_later⟩
      obtain rfl | old := List.mem_cons.mp ((insertArrival_perm a rest).mem_iff.mp member)
      · obtain less | equal := Nat.lt_or_eq_of_le (Nat.not_lt.mp notLarger)
        · exact .inl less
        · exact .inr ⟨equal.symm, above⟩
      · exact first x old

/-- Arrivals found in channel order join a ranked list of lower channels. -/
theorem rank_spec (found l : List Arrival) (rising : found.Pairwise fun a b => a.channel < b.channel)
    (ranked : l.Pairwise Arrival.Precedes) (lower : ∀ b ∈ l, ∀ a ∈ found, b.channel < a.channel) :
    (found.foldl (fun l a => insertArrival a l) l).Perm (l ++ found) ∧
      (found.foldl (fun l a => insertArrival a l) l).Pairwise Arrival.Precedes := by
  induction found generalizing l with
  | nil => exact ⟨by simp, ranked⟩
  | cons a found ih =>
    obtain ⟨first, rising⟩ := List.pairwise_cons.mp rising
    have inserted := insertArrival_perm a l
    obtain ⟨perm, sorted⟩ := ih (insertArrival a l) rising
      (insertArrival_ranked ranked fun b member => lower b member a List.mem_cons_self) fun b member x later => by
        obtain rfl | old := List.mem_cons.mp (inserted.mem_iff.mp member)
        · exact first x later
        · exact lower b old x (List.mem_cons_of_mem a later)
    exact ⟨perm.trans ((inserted.append_right found).trans List.perm_middle.symm), sorted⟩

/-! ## What a CF read finds (R57, R92) -/

/-- The tick has not been settled: the read is PARTIAL. -/
def Chip.readLate (c : Chip) (a : Nat) : Bool := c.lki.horizon.all fun h => decide (h ≤ a)

/-- The tick has left the history: the read is EXPIRED. -/
def Chip.readOld (c : Chip) (a : Nat) : Bool := c.lki.horizon.any fun h => decide (a + 4096 < h)

/-- The cell of a channel at a tick. -/
def Chip.readCell (c : Chip) (ch a : Nat) : BitVec 8 :=
  cellRead absentCf (c.chc.channels.getD ch Channel.atReset).history (a % 4096)

/-- The read finds a present CF. -/
def Chip.readTaken (c : Chip) (ch a : Nat) : Bool := !c.readLate a && !c.readOld a && c.readCell ch a != 255

/-- A sum after a read: more by a term when the CF is present. -/
def Chip.readAdds (c : Chip) (ch a x term : Nat) : Nat := if c.readTaken ch a then x + term else x

/-- A read in the words above. -/
theorem readCf_eq (c : Chip) (ch a : Nat) : readCf c ch a =
    if c.readLate a = true then .partialRead
    else if c.readOld a = true then .expired
    else if c.readCell ch a = 255 then .absent
    else .present (c.readCell ch a).toNat := by
  unfold readCf judgeRead Chip.readLate Chip.readOld
  cases c.lki.horizon with
  | none => rfl
  | some h =>
    simp only [Option.all_some, Option.any_some, decide_eq_true_eq]
    rfl

/-- A tick that has not been settled has not left the history. -/
theorem readOld_of_late {c : Chip} {a : Nat} (late : c.readLate a = true) : c.readOld a = false := by
  unfold Chip.readLate at late
  unfold Chip.readOld
  cases horizon : c.lki.horizon with
  | none => rfl
  | some h =>
    rw [horizon, Option.all_some, decide_eq_true_eq] at late
    rw [Option.any_some, decide_eq_false_iff_not]
    omega

/-- A read finds a present CF, or raises what its tick tells. -/
theorem readCf_cases (c : Chip) (ch a : Nat) :
    (c.readTaken ch a = true ∧ readCf c ch a = .present (c.readCell ch a).toNat) ∨
      (c.readTaken ch a = false ∧
        (readCf c ch a = .partialRead ∨ readCf c ch a = .expired ∨ readCf c ch a = .absent)) := by
  rw [readCf_eq, Chip.readTaken]
  cases c.readLate a <;> cases c.readOld a <;> by_cases absent : c.readCell ch a = 255#8 <;> simp [absent]

/-- The flags a read raises. -/
theorem readFlags_readCf (c : Chip) (ch a : Nat) (f : ScanFlags) :
    readFlags (readCf c ch a) f =
      { f with partialRead := f.partialRead || c.readLate a, expired := f.expired || c.readOld a } := by
  rw [readCf_eq]
  cases late : c.readLate a with
  | true => simp [readFlags, raisePartial, readOld_of_late late]
  | false =>
    cases c.readOld a with
    | true => simp [readFlags, raiseExpired]
    | false => by_cases absent : c.readCell ch a = 255#8 <;> simp [absent, readFlags]

/-- A scan with the flags of a read raised, and RANGE when it was met. -/
def Scan.flagged (late old met : Bool) (sc : Scan) : Scan :=
  { sc with flags := { sc.flags with
      partialRead := sc.flags.partialRead || late, expired := sc.flags.expired || old,
      range := sc.flags.range || met } }

theorem raise_readFlags (c : Chip) (ch a : Nat) (met : Bool) (sc : Scan) :
    sc.raise (raiseRange met ∘ readFlags (readCf c ch a)) = sc.flagged (c.readLate a) (c.readOld a) met := by
  simp only [Scan.raise, Function.comp_apply, readFlags_readCf]
  rfl

/-! ## A pair stacked (R91, R93, R94) -/

/-- The scan after a read of its pair. -/
def Chip.afterRead (c : Chip) (a : Nat) (met : Bool) (sc : Scan) : Scan := sc.flagged (c.readLate a) (c.readOld a) met

/-- A read stacked: the flags raised and the sums after it go to what follows, the next read or the end of the pair. -/
theorem stackRead_eq {c : Chip} {bank : Nat} {sc : Scan} (runs : runningBank c = some (bank, sc))
    {row : List (BitVec 16)} {ch : Nat} {next : Option Nat} {met : Bool}
    (reads : nextReadFrom sc row (ch + 1) = (next, met)) (t0 sum wsum n : Nat) :
    let a := t0 + travelTime row ch
    let w := sc.weights.getD ch 0
    let sum' := c.readAdds ch a sum (w * (c.readCell ch a).toNat)
    let wsum' := c.readAdds ch a wsum w
    let n' := c.readAdds ch a n 1
    let read := c.withBank bank (some (c.afterRead a met sc))
    stackRead bank sc row t0 ch sum wsum n c = next.elim (endPair bank sc row t0 sum' wsum' n' read) fun ch =>
      (onScan bank (fun s => { s with phase := .stacking row t0 ch sum' wsum' n' }) read, none) := by
  intro a w sum' wsum' n' read
  have flagged := raise_readFlags c ch a met sc
  simp only [stackRead, reads, onScan_running runs, sum', wsum', n', read, Chip.afterRead, Chip.readAdds]
  obtain ⟨taken, found⟩ | ⟨notTaken, found | found | found⟩ := readCf_cases c ch a
  all_goals
    rw [found] at flagged
    simp only [a, w] at *
    simp only [*]
    cases next <;> rfl

/-- A read with a channel left: the scan waits for it. -/
theorem stackRead_reads {c : Chip} {bank : Nat} {sc : Scan} (runs : runningBank c = some (bank, sc))
    {row : List (BitVec 16)} {ch next : Nat} {met : Bool} (reads : nextReadFrom sc row (ch + 1) = (some next, met))
    (t0 sum wsum n : Nat) :
    let a := t0 + travelTime row ch
    let w := sc.weights.getD ch 0
    stackRead bank sc row t0 ch sum wsum n c =
      (c.withBank bank (some { c.afterRead a met sc with
        phase := .stacking row t0 next (c.readAdds ch a sum (w * (c.readCell ch a).toNat)) (c.readAdds ch a wsum w)
          (c.readAdds ch a n 1) }), none) := by
  intro a w
  have read := runningBank_withBank (x := c.afterRead a met sc) runs rfl
  rw [stackRead_eq runs reads, Option.elim_some, onScan_running read, withBank_withBank]

/-- A pair with an origin time left: the next pair begins with sums of 0. -/
theorem endPair_next {c : Chip} {bank : Nat} {sc x : Scan} (runs : runningBank c = some (bank, x))
    {row : List (BitVec 16)} {first t0 : Nat} {met : Bool} (left : t0 + sc.spanStep ≤ sc.spanLast)
    (reads : nextReadFrom sc row 0 = (some first, met)) (sum wsum n : Nat) :
    endPair bank sc row t0 sum wsum n c = (c.withBank bank (some
      { ({ x with best := pairBest sc t0 sum wsum n } : Scan).raise (raiseRange met) with
        phase := .stacking row (t0 + sc.spanStep) first 0 0 0 }), none) := by
  have judged := runningBank_withBank (x := { x with best := pairBest sc t0 sum wsum n }) runs rfl
  simp only [endPair, if_pos left, reads, onScan_running runs, onScan_running judged, withBank_withBank]

/-- The last pair of a node: the node ends. -/
theorem endPair_last {c : Chip} {bank : Nat} {sc x : Scan} (runs : runningBank c = some (bank, x)) {t0 : Nat}
    (last : sc.spanLast < t0 + sc.spanStep) (row : List (BitVec 16)) (sum wsum n : Nat) :
    endPair bank sc row t0 sum wsum n c =
      (c.withBank bank (some { x with best := pairBest sc t0 sum wsum n }), some .nodeEnd) := by
  simp only [endPair, if_neg (Nat.not_le.mpr last), onScan_running runs]

/-! ## The end of a node (R90, R95) -/

/-- A scan at the boundary behind its node. -/
def Scan.behindNode (sc : Scan) : Scan := { sc with cursor := sc.cursor + 1, phase := .boundary }

/-- A node that ends: the cursor moves on, to a boundary or to the end of the stage. -/
theorem engineAction_nodeEnd {c : Chip} {bank : Nat} {sc : Scan} (runs : runningBank c = some (bank, sc)) :
    engineAction .nodeEnd c = (c.withBank bank (some sc.behindNode),
      some (if sc.lastNode ≤ sc.cursor then .stageEnd else .boundary)) := by
  rw [engineAction_running runs .nodeEnd nofun]
  simp only [scanAction, nodeEndAction, onScan_running runs, Scan.behindNode]

/-- With a node left the scan goes on to it, and waits for its row. -/
theorem EngineRun.nodeEnd {c : Chip} {bank : Nat} {sc : Scan} (runs : runningBank c = some (bank, sc))
    (left : sc.cursor < sc.lastNode) (unmarked : sc.cancelMark = false) (noRequest : c.ccu.queue = []) {g : GridDef}
    (isRead : c.tcu.RowIsRead c.mpt.windows sc.grid (sc.cursor + 1) g) :
    EngineRun .nodeEnd c 3 ((c.withBank bank (some
      { sc.behindNode.widenRange sc.grid (sc.cursor + 1) with phase := .nodeRow })).fetchingRow
        sc.grid (sc.cursor + 1) g) := by
  have moved := runningBank_withBank (x := sc.behindNode) runs rfl
  have goesOn := EngineRun.boundary moved unmarked noRequest isRead
  rw [withBank_withBank] at goesOn
  refine .goesOn (next := .boundary) ?_ goesOn
  rw [engineAction_nodeEnd runs, if_neg (Nat.not_le.mpr left)]

/-- Behind the last node the stage ends. -/
theorem EngineRun.lastNode {c d : Chip} {bank n : Nat} {sc : Scan} (runs : runningBank c = some (bank, sc))
    (last : sc.lastNode ≤ sc.cursor) (rest : EngineRun .stageEnd (c.withBank bank (some sc.behindNode)) n d) :
    EngineRun .nodeEnd c (n + 1) d := by
  refine .goesOn (next := .stageEnd) ?_ rest
  rw [engineAction_nodeEnd runs, if_pos last]

/-! ## The finish of the only scan in service (R83, R101, R102) -/

theorem findBank_free (test : Scan → Bool) (i n : Nat) : findBank test i (List.replicate n none) = none := by
  induction n generalizing i with
  | zero => rfl
  | succ n ih => exact ih (i + 1)

theorem highestParked_free (i n : Nat) : highestParked i (List.replicate n none) = none := by
  induction n generalizing i with
  | zero => rfl
  | succ n ih => exact ih (i + 1)

/-- With no bank in service and no request waiting a selection finds nothing. -/
theorem selectAction_idle {c : Chip} {n : Nat} (free : c.sce.banks = List.replicate n none) (queue : c.ccu.queue = []) :
    selectAction c = (c, none) := by
  simp [selectAction, selectWinner, runningBank, free, findBank_free, highestParked_free, queue, highestRequest]

/-- A scan that finishes with any outcome: its bank is FREE, CCU's target no longer names it, and DLV has received its
outcome. -/
theorem finishScan_leaves (bank : Nat) (sc : Scan) (o : ScanOutcome) (arrivals : List Arrival) (c : Chip) :
    let e := finishScan bank sc o arrivals c
    e.sce = { c.sce with banks := c.sce.banks.set bank none } ∧
      e.ccu = { c.ccu with
        target := if c.ccu.target.map CollapseTarget.number = some sc.request.number then none else c.ccu.target } ∧
      c.delivers (scanOutcome sc o arrivals) e ∧ e.lki = c.lki ∧ e.chc = c.chc := by
  intro e
  let n := sc.request.number
  let d := deliverOutcome (scanOutcome sc o arrivals) c
  let f := clearTarget n (setBank bank none d.1)
  let w := completeScan sc.request.order n o d.2 f
  have finished : e = stoppingToBound (drainFinished n (completeCancels n (o == .cancelled) sc.cancels w)) := rfl
  have received : c.delivers (scanOutcome sc o arrivals) d.1 := deliverOutcome_delivers _ c
  refine ⟨?_, ?_, received.mono ?_ ?_ fun x h => ?_, ?_, ?_⟩
  · simp [finished, w, f, d, setBank, modifyAt_const]
  · simp [finished, w, f, d, clearTarget_ccu, n]
  · simp [finished, w, f]
  · simp [finished, w, f]
  · have written : w.mpt.carries x := completeScan_carried _ _ _ _ (by simpa [f] using h)
    have cancelled := completeCancels_carried n (o == .cancelled) sc.cancels written
    simpa [finished] using drainFinished_carried n cancelled
  · simp [finished, w, f, d]
  · simp [finished, w, f, d]

/-- The outcome of the only scan in service is reached: it finishes, and no scan follows. -/
theorem EngineRun.conclude {c : Chip} {bank : Nat} {sc : Scan} (runs : runningBank c = some (bank, sc))
    (unmarked : sc.cancelMark = false) (alone : c.aloneInService bank sc) (o : ScanOutcome) (arrivals : List Arrival) :
    EngineRun (.conclude o arrivals) c 2 (finishScan bank sc o arrivals c) := by
  obtain ⟨banks, queue⟩ := alone
  obtain ⟨sce, ccu, -⟩ := finishScan_leaves bank sc o arrivals c
  refine .goesOn (next := .select) (d := finishScan bank sc o arrivals c) ?_ (.waits ?_)
  · rw [engineAction_running runs (.conclude o arrivals) nofun]
    simp [scanAction, concludeAction, unmarked]
  · refine selectAction_idle (n := c.sce.banks.length) ?_ (by rw [ccu]; exact queue)
    rw [sce, banks]
    simp [List.set_set]

/-- The finish of the only scan in service, whatever has changed of it since the step began. -/
theorem finishScan_finishes {c : Chip} {bank : Nat} {sc x y : Scan} (alone : c.aloneInService bank sc) (o : ScanOutcome)
    (arrivals : List Arrival) (outcome : scanOutcome x o arrivals = scanOutcome y o arrivals)
    (request : x.request = y.request) :
    c.finishes y o arrivals (concludeStep (finishScan bank x o arrivals (c.withBank bank (some x)))) := by
  obtain ⟨sce, ccu, received, lki, chc⟩ := finishScan_leaves bank x o arrivals (c.withBank bank (some x))
  rw [outcome] at received
  rw [request] at ccu
  let e := finishScan bank x o arrivals (c.withBank bank (some x))
  have free : (c.sce.banks.set bank (some x)).set bank none = List.replicate c.sce.banks.length none := by
    rw [alone.1]
    simp [List.set_set]
  refine ⟨?_, ?_, received.mono (by simp) (by simp) fun a carried => concludeStep_carries e a carried, ?_, ?_⟩
  · rw [(by simp : (concludeStep e).sce = e.sce), sce, ← free]
    rfl
  · rw [(by simp : (concludeStep e).ccu = e.ccu), ccu]
    rfl
  · rw [(by simp : (concludeStep e).lki = e.lki), lki]
    rfl
  · rw [(by simp : (concludeStep e).chc = e.chc), chc]
    rfl

/-! ## The end of a stage (R95, R96, R98, R99) -/

/-- Stage 1 without a best finishes EMPTY. -/
theorem EngineRun.stageEnd_empty {c : Chip} {bank : Nat} {sc : Scan} (runs : runningBank c = some (bank, sc))
    (stage : sc.stage = 1) (noBest : sc.best = none) (unmarked : sc.cancelMark = false)
    (alone : c.aloneInService bank sc) : EngineRun .stageEnd c 3 (finishScan bank sc .empty [] c) := by
  refine .goesOn (next := .conclude .empty []) ?_ (.conclude runs unmarked alone .empty [])
  rw [engineAction_running runs .stageEnd nofun]
  simp only [scanAction, stageEndAction, if_pos stage, stage1End, noBest]

/-- Stage 1 with a best. -/
theorem stage1End_best {c : Chip} {bank : Nat} {sc : Scan} (runs : runningBank c = some (bank, sc)) {p : Peak}
    (best : sc.best = some p) :
    stage1End bank sc c =
      if p.q < sc.captured.qacc then (c.withBank bank (some { sc with stage1 := some p }), some (.arrival .weak))
      else if sc.captured.hasRefine = true then
        requestScanRefine bank p (c.withBank bank (some { sc with stage1 := some p }))
      else (c.withBank bank (some ({ sc with stage1 := some p }.raise raiseUnrefined)), some (.arrival .located)) := by
  have peak := runningBank_withBank (x := { sc with stage1 := some p }) runs rfl
  unfold stage1End
  split
  case h_1 noBest => cases best.symm.trans noBest
  case h_2 other same =>
    cases best.symm.trans same
    simp only [onScan_running runs, onScan_running peak, withBank_withBank]

/-- Stage 2 with a best. -/
theorem stage2End_best {c : Chip} {bank : Nat} {sc : Scan} (runs : runningBank c = some (bank, sc)) {p : Peak}
    (best : sc.best = some p) :
    stage2End bank sc c =
      if p.q < sc.captured.qacc then
        (c.withBank bank (some ({ sc with stage2 := some p }.raise raiseUnrefined)), some (.arrival .located))
      else (c.withBank bank (some { sc with stage2 := some p }), some (.arrival .located)) := by
  have peak := runningBank_withBank (x := { sc with stage2 := some p }) runs rfl
  unfold stage2End
  split
  case h_1 noBest => cases best.symm.trans noBest
  case h_2 other same =>
    cases best.symm.trans same
    simp only [onScan_running runs, onScan_running peak, withBank_withBank]

/-- Stage 1 with a best that reaches Qacc, and with a refine table, waits for the refine entry of its peak. -/
theorem EngineRun.stageEnd_refines {c : Chip} {bank : Nat} {sc : Scan} (runs : runningBank c = some (bank, sc))
    (stage : sc.stage = 1) {p : Peak} (best : sc.best = some p) (accepted : sc.captured.qacc ≤ p.q)
    (refines : sc.captured.hasRefine = true) {g : GridDef} (defined : gridDefn c.tcu.grids p.grid = some g)
    (table : g.refineBase ≠ 0) (within : p.node < g.nodeCount)
    (passes : accessPasses c.mpt.windows (readAccess (.refine p.grid p.node) (g.refineBase + 8 * p.node) 8) = true) :
    EngineRun .stageEnd c 1 (request .tcu (readAccess (.refine p.grid p.node) (g.refineBase + 8 * p.node) 8)
      (c.withBank bank (some { sc with stage1 := some p, phase := .refineEntry }))) := by
  have peak := runningBank_withBank (x := { sc with stage1 := some p }) runs rfl
  have asked : requestRefine p.grid p.node (c.withBank bank
    (some { sc with stage1 := some p, phase := .refineEntry })) =
      (request .tcu (readAccess (.refine p.grid p.node) (g.refineBase + 8 * p.node) 8)
        (c.withBank bank (some { sc with stage1 := some p, phase := .refineEntry })), .waiting) := by
    have entry : ¬ (g.refineBase = 0 ∨ g.nodeCount ≤ p.node) := by omega
    have defined : gridDefn (c.withBank bank (some { sc with stage1 := some p, phase := .refineEntry })).tcu.grids
      p.grid =
      some g := defined
    simp only [requestRefine, defined, if_neg entry]
    exact if_pos passes
  refine .waits ?_
  rw [engineAction_running runs .stageEnd nofun, scanAction, stageEndAction, if_pos stage, stage1End_best runs best,
    if_neg (Nat.not_lt.mpr accepted), if_pos refines, requestScanRefine, onScan_running peak, withBank_withBank, asked]

/-- How a stage that goes on to an arrival list ends: the peak of the list, the outcome, UNREFINED and the two peaks of
the scan. -/
def Scan.EndsIn (sc : Scan) (p : Peak) (o : ScanOutcome) (unrefined : Bool) (stage1 stage2 : Option Peak) : Prop :=
  (sc.stage = 1 ∧ sc.best = some p ∧ stage1 = some p ∧ stage2 = sc.stage2 ∧
      ((p.q < sc.captured.qacc ∧ o = .weak ∧ unrefined = sc.flags.unrefined) ∨
        (sc.captured.qacc ≤ p.q ∧ sc.captured.hasRefine = false ∧ o = .located ∧ unrefined = true))) ∨
    (sc.stage = 2 ∧ stage1 = sc.stage1 ∧ o = .located ∧
      ((sc.best = some p ∧ sc.captured.qacc ≤ p.q ∧ stage2 = some p ∧ sc.flags.unrefined = false ∧ unrefined = false) ∨
        (sc.stage1 = some p ∧ unrefined = true ∧
          ((sc.best = none ∧ stage2 = sc.stage2) ∨
            ∃ p2, sc.best = some p2 ∧ p2.q < sc.captured.qacc ∧ stage2 = some p2))))

/-- A scan with its peaks, and UNREFINED as it is. -/
def Scan.withPeaks (unrefined : Bool) (stage1 stage2 : Option Peak) (sc : Scan) : Scan :=
  { sc with flags := { sc.flags with unrefined := unrefined }, stage1 := stage1, stage2 := stage2 }

/-- A stage that ends so goes on to the arrival list of its outcome, and the list's peak is the final one. -/
theorem engineAction_stageEnd {c : Chip} {bank : Nat} {sc : Scan} (runs : runningBank c = some (bank, sc)) {p : Peak}
    {o : ScanOutcome} {unrefined : Bool} {stage1 stage2 : Option Peak} (ends : sc.EndsIn p o unrefined stage1 stage2) :
    engineAction .stageEnd c = (c.withBank bank (some (sc.withPeaks unrefined stage1 stage2)), some (.arrival o)) ∧
      finalPeak (sc.withPeaks unrefined stage1 stage2) o = some p := by
  rw [engineAction_running runs .stageEnd nofun]
  simp only [scanAction, stageEndAction]
  obtain ⟨stage, best, rfl, rfl, ⟨weak, rfl, rfl⟩ | ⟨accepted, noTable, rfl, rfl⟩⟩ | ⟨stage, rfl, rfl, ends⟩ := ends
  · refine ⟨?_, rfl⟩
    rw [if_pos stage, stage1End_best runs best, if_pos weak]
    rfl
  · refine ⟨?_, rfl⟩
    rw [if_pos stage, stage1End_best runs best, if_neg (Nat.not_lt.mpr accepted), if_neg (by simp [noTable])]
    rfl
  · have second : ¬ sc.stage = 1 := by omega
    rw [if_neg second]
    obtain ⟨best, accepted, rfl, refined, rfl⟩ | ⟨first, rfl, ⟨noBest, rfl⟩ | ⟨p2, best, below, rfl⟩⟩ := ends
    · refine ⟨?_, rfl⟩
      rw [stage2End_best runs best, if_neg (Nat.not_lt.mpr accepted), Scan.withPeaks, ← refined]
    · refine ⟨?_, first⟩
      rw [stage2End, noBest]
      simp only [onScan_running runs]
      rfl
    · refine ⟨?_, first⟩
      rw [stage2End_best runs best, if_pos below]
      rfl

/-- Such a stage waits for the row of its final peak. -/
theorem EngineRun.stageEnd_lists {c : Chip} {bank : Nat} {sc : Scan} (runs : runningBank c = some (bank, sc)) {p : Peak}
    {o : ScanOutcome} {unrefined : Bool} {stage1 stage2 : Option Peak} (ends : sc.EndsIn p o unrefined stage1 stage2)
    {g : GridDef} (isRead : c.tcu.RowIsRead c.mpt.windows p.grid p.node g) :
    EngineRun .stageEnd c 2 ((c.withBank bank (some
      { (sc.withPeaks unrefined stage1 stage2).widenRange p.grid p.node with phase := .listRow o })).fetchingRow
        p.grid p.node g) := by
  obtain ⟨acts, final⟩ := engineAction_stageEnd runs ends
  have peaks := runningBank_withBank (x := sc.withPeaks unrefined stage1 stage2) runs rfl
  have goesOn := EngineRun.arrival peaks final isRead
  rw [withBank_withBank] at goesOn
  exact .goesOn acts goesOn

/-! ## An arrival list read (R99) -/

/-- A read of an arrival list, with a channel left or none. -/
theorem listRead_eq {c : Chip} {bank : Nat} {sc : Scan} (runs : runningBank c = some (bank, sc)) {o : ScanOutcome}
    {p : Peak} (final : finalPeak sc o = some p) {row : List (BitVec 16)} {ch : Nat} {next : Option Nat} {met : Bool}
    (reads : nextReadFrom sc row (ch + 1) = (next, met)) (found : List Arrival) :
    let tt := travelTime row ch
    let cell := c.readCell ch (p.t0 + tt)
    let found' := if c.readTaken ch (p.t0 + tt) = true then
      found ++ [⟨ch, tt, cell.toNat, sc.weights.getD ch 0 * cell.toNat⟩] else found
    listRead bank sc o row ch found c = next.elim
      (c.withBank bank (some (c.afterRead (p.t0 + tt) met sc)), some (.conclude o (arrivalList found')))
      fun next => (c.withBank bank (some
        { c.afterRead (p.t0 + tt) met sc with phase := .listing o row next found' }), none) := by
  intro tt cell found'
  have flagged := raise_readFlags c ch (p.t0 + tt) met sc
  have raised := runningBank_withBank (x := sc.raise (readFlags (readCf c ch (p.t0 + tt)))) runs rfl
  have peak : ((finalPeak sc o).map Peak.t0).getD 0 = p.t0 := by rw [final]; rfl
  have both : (sc.raise (readFlags (readCf c ch (p.t0 + tt)))).raise (raiseRange met) =
      c.afterRead (p.t0 + tt) met sc :=
    flagged
  simp only [listRead, peak]
  obtain ⟨taken, read⟩ | ⟨notTaken, read | read | read⟩ := readCf_cases c ch (p.t0 + tt)
  all_goals
    rw [read] at raised both
    simp only [tt, found', cell] at *
    simp only [onScan_running runs, listAction, *]
    cases next <;> simp only [onScan_running raised, withBank_withBank, *] <;> rfl

end Sys2Proof.Machine
end


section
/-! PROOFS. The statement about the CF reads of the RUNNING scan (R57, R90 to R96, R98, R99, R102, R155). -/

namespace Sys2Proof.Machine

/-- CF_READ_ANSWER has the RUNNING scan take its read and the engine go on. -/
theorem exec_cfReadAnswer (c : Chip) (q : List Instr) :
    exec .cfReadAnswer ⟨c, q⟩ = .next ⟨concludeStep (engineOn (cfAnswered c)), q⟩ := rfl

/-- A read that leaves the scan waiting for the next one. -/
theorem exec_cfReadAnswer_waits {c d : Chip} (q : List Instr) (settled : d.settled)
    (answered : cfAnswered c = (d, none)) :
    exec .cfReadAnswer ⟨c, q⟩ = .next ⟨d, q⟩ := by
  rw [exec_cfReadAnswer, answered, engineOn, concludeStep_of_settled d settled]

/-- A read after which the engine runs. -/
theorem exec_cfReadAnswer_runs {c d e : Chip} (q : List Instr) {task : EngineTask} {n : Nat}
    (answered : cfAnswered c = (d, some task)) (run : EngineRun task d n e) (few : n ≤ engineFuel) :
    exec .cfReadAnswer ⟨c, q⟩ = .next ⟨concludeStep e, q⟩ := by
  rw [exec_cfReadAnswer, answered, engineOn, run.engine_eq few]

/-- The step that leaves the scan waiting for a row. -/
theorem concludeStep_fetchingRow {c : Chip} (notAsked : c.dlv.progressAsked = false) (bank : Nat) (y : Option Scan)
    (grid node : Nat) (g : GridDef) :
    let d := concludeStep ((c.withBank bank y).fetchingRow grid node g)
    d.sce = { c.sce with banks := c.sce.banks.set bank y } ∧
      d.tcu = { c.tcu with misses := countUp c.tcu.misses, fetch := some ⟨grid, node, true⟩ } ∧
      d.mpt.carries (readAccess (.row grid node) (g.ttBase + node * g.stride) 512) ∧
      d.rgp = c.rgp ∧ d.lki = c.lki ∧ d.chc = c.chc ∧ d.ccu = c.ccu ∧ d.ord = c.ord ∧ d.dlv = c.dlv ∧
      d.mpt.windows = c.mpt.windows ∧ d.mpt.records = c.mpt.records ∧ d.mpt.overflow = c.mpt.overflow := by
  have dlv := concludeStep_dlv_of_notAsked (c := (c.withBank bank y).fetchingRow grid node g) notAsked
  refine ⟨by simp [Chip.fetchingRow, Chip.withBank], by simp [Chip.fetchingRow, Chip.withBank],
    concludeStep_carries _ _ ((request_carries ..).mpr (.inr rfl)), by simp [Chip.fetchingRow, Chip.withBank],
    by simp [Chip.fetchingRow, Chip.withBank], by simp [Chip.fetchingRow, Chip.withBank],
    by simp [Chip.fetchingRow, Chip.withBank], by simp [Chip.fetchingRow, Chip.withBank], dlv,
    by simp [Chip.fetchingRow, Chip.withBank], by simp [Chip.fetchingRow, Chip.withBank],
    by simp [Chip.fetchingRow, Chip.withBank]⟩

/-- The step that leaves the scan waiting for a refine entry. -/
theorem concludeStep_refineRequest {c : Chip} (notAsked : c.dlv.progressAsked = false) (bank : Nat) (y : Option Scan)
    (a : Access) :
    let d := concludeStep (request .tcu a (c.withBank bank y))
    d.sce = { c.sce with banks := c.sce.banks.set bank y } ∧ d.mpt.carries a ∧ d.tcu = c.tcu ∧
      d.rgp = c.rgp ∧ d.lki = c.lki ∧ d.chc = c.chc ∧ d.ccu = c.ccu ∧ d.ord = c.ord ∧ d.dlv = c.dlv ∧
      d.mpt.windows = c.mpt.windows ∧ d.mpt.records = c.mpt.records ∧ d.mpt.overflow = c.mpt.overflow := by
  have dlv := concludeStep_dlv_of_notAsked (c := request .tcu a (c.withBank bank y)) notAsked
  refine ⟨by simp [Chip.withBank], concludeStep_carries _ _ ((request_carries ..).mpr (.inr rfl)),
    by simp [Chip.withBank], by simp [Chip.withBank], by simp [Chip.withBank], by simp [Chip.withBank],
    by simp [Chip.withBank], by simp [Chip.withBank], dlv, by simp [Chip.withBank], by simp [Chip.withBank],
    by simp [Chip.withBank]⟩

/-- A change of the only scan in service leaves it the only one. -/
theorem aloneInService_withBank {c : Chip} {bank : Nat} {sc : Scan} (alone : c.aloneInService bank sc) (x : Scan) :
    (c.withBank bank (some x)).aloneInService bank x := by
  obtain ⟨banks, queue⟩ := alone
  refine ⟨?_, queue⟩
  simp only [Chip.withBank, List.length_set]
  rw [banks]
  simp [List.set_set]

/-! ## The statement, part by part -/

/-- With no CF read awaited nothing changes. -/
theorem exec_cfReadAnswer_idle {c : Chip} (q : List Instr) (settled : c.settled)
    (idle : ∀ bank sc, runningBank c = some (bank, sc) →
      sc.phase = .boundary ∨ sc.phase = .nodeRow ∨ sc.phase = .refineEntry ∨ ∃ o, sc.phase = .listRow o) :
    exec .cfReadAnswer ⟨c, q⟩ = .next ⟨c, q⟩ := by
  refine exec_cfReadAnswer_waits q settled ?_
  unfold cfAnswered
  cases runs : runningBank c with
  | none => rfl
  | some found =>
    obtain ⟨bank, sc⟩ := found
    obtain phase | phase | phase | ⟨o, phase⟩ := idle bank sc runs <;> simp only [phase]

/-- The best so far after a pair, written out. -/
theorem pairBest_eq (sc : Scan) (t0 sum wsum n : Nat) :
    pairBest sc t0 sum wsum n = if sc.captured.wmin ≤ wsum then
      some (sc.best.elim ⟨sc.grid, sc.cursor, t0, sum / wsum, wsum, n⟩ fun b =>
        if b.q < sum / wsum then ⟨sc.grid, sc.cursor, t0, sum / wsum, wsum, n⟩ else b) else sc.best := by
  unfold pairBest betterOf
  cases sc.best <;> rfl

/-- The scan after the last read of a pair. -/
def Chip.pairDone (c : Chip) (a : Nat) (met : Bool) (best : Option Peak) (sc : Scan) : Scan :=
  { c.afterRead a met sc with best := best }

/-- The scan behind its node that waits for the row of the next, written out. -/
theorem Chip.pairDone_nextRow (c : Chip) (a : Nat) (met : Bool) (best : Option Peak) (grid node : Nat) (sc : Scan) :
    { (c.pairDone a met best sc).behindNode.widenRange grid node with phase := .nodeRow } =
      { sc with
        flags := { sc.flags with
          partialRead := sc.flags.partialRead || c.readLate a
          expired := sc.flags.expired || c.readOld a
          range := sc.flags.range || met }
        best := best
        cursor := sc.cursor + 1
        ranges := modifyAt (widen node) sc.ranges grid
        phase := .nodeRow } := by
  simp only [Chip.pairDone, Chip.afterRead, Scan.flagged, Scan.behindNode, Scan.widenRange]

/-- The scan behind the last node of its stage, with its peaks, that waits for the row of its list, written out. -/
theorem Chip.pairDone_lists (c : Chip) (a : Nat) (met : Bool) (best stage1 stage2 : Option Peak) (unrefined : Bool)
    (grid node : Nat) (phase : ScanPhase) (sc : Scan) :
    { ((c.pairDone a met best sc).behindNode.withPeaks unrefined stage1 stage2).widenRange grid node with
      phase := phase } =
      { sc with
        flags := { sc.flags with
          partialRead := sc.flags.partialRead || c.readLate a
          expired := sc.flags.expired || c.readOld a
          range := sc.flags.range || met
          unrefined := unrefined }
        best := best
        cursor := sc.cursor + 1
        stage1 := stage1
        stage2 := stage2
        ranges := modifyAt (widen node) sc.ranges grid
        phase := phase } := by
  simp only [Chip.pairDone, Chip.afterRead, Scan.flagged, Scan.behindNode, Scan.withPeaks, Scan.widenRange]

/-- The last read of the last pair of a node. -/
theorem stackRead_lastPair {c : Chip} {bank : Nat} {sc : Scan} (runs : runningBank c = some (bank, sc))
    {row : List (BitVec 16)} {ch t0 : Nat} {met : Bool} (reads : nextReadFrom sc row (ch + 1) = (none, met))
    (last : sc.spanLast < t0 + sc.spanStep) (sum wsum n : Nat) :
    let a := t0 + travelTime row ch
    let w := sc.weights.getD ch 0
    stackRead bank sc row t0 ch sum wsum n c = (c.withBank bank (some (c.pairDone a met
      (pairBest sc t0 (c.readAdds ch a sum (w * (c.readCell ch a).toNat)) (c.readAdds ch a wsum w)
        (c.readAdds ch a n 1))
      sc)), some .nodeEnd) := by
  intro a w
  have read := runningBank_withBank (x := c.afterRead a met sc) runs rfl
  rw [stackRead_eq runs reads, Option.elim_none, endPair_last read last, withBank_withBank]
  rfl

/-- The last read of a pair with an origin time left. -/
theorem stackRead_nextPair {c : Chip} {bank : Nat} {sc : Scan} (runs : runningBank c = some (bank, sc))
    {row : List (BitVec 16)} {ch t0 first : Nat} {met met' : Bool} (reads : nextReadFrom sc row (ch + 1) = (none, met))
    (left : t0 + sc.spanStep ≤ sc.spanLast) (next : nextReadFrom sc row 0 = (some first, met')) (sum wsum n : Nat) :
    let a := t0 + travelTime row ch
    let w := sc.weights.getD ch 0
    stackRead bank sc row t0 ch sum wsum n c = (c.withBank bank (some
      { (c.pairDone a met (pairBest sc t0 (c.readAdds ch a sum (w * (c.readCell ch a).toNat)) (c.readAdds ch a wsum w)
          (c.readAdds ch a n 1)) sc).raise (raiseRange met') with
        phase := .stacking row (t0 + sc.spanStep) first 0 0 0 }), none) := by
  intro a w
  have read := runningBank_withBank (x := c.afterRead a met sc) runs rfl
  rw [stackRead_eq runs reads, Option.elim_none, endPair_next read left next, withBank_withBank]
  rfl

/-- Settles O31: a read is stacked or joins its list, and what it ends goes on as the engine runs. -/
theorem cfReadIsStacked : Obligations.CfReadIsStacked := by
  refine ⟨fun c q settled idle => exec_cfReadAnswer_idle q settled idle, ?_, ?_, fun found rising => ?_⟩
  · intro c q bank sc row t0 ch sum wsum n settled runs phase a cell late old taken w sum' wsum' n'
    have answered : cfAnswered c = stackRead bank sc row t0 ch sum wsum n c := by simp only [cfAnswered, runs, phase]
    refine ⟨fun next met reads => exec_cfReadAnswer_waits q settled (answered.trans (stackRead_reads runs reads ..)),
      ?_⟩
    intro best'
    have best : best' = pairBest sc t0 sum' wsum' n' := by
      rw [pairBest_eq]
      cases stored : sc.best <;> simp only [best', stored, Option.elim_none, Option.elim_some, apply_ite some]
    clear_value best'
    subst best
    refine ⟨fun met first met' reads left next =>
      exec_cfReadAnswer_waits q settled (answered.trans (stackRead_nextPair runs reads left next ..)), ?_, ?_⟩
    · intro met g reads last left unmarked queue defined within absent passes
      have ends := answered.trans (stackRead_lastPair runs reads last ..)
      have pair := runningBank_withBank (x := c.pairDone a met (pairBest sc t0 sum' wsum' n') sc) runs rfl
      have run := EngineRun.nodeEnd pair left unmarked queue (g := g) ⟨defined, within, absent, passes⟩
      rw [withBank_withBank, Chip.pairDone_nextRow] at run
      exact ⟨_, exec_cfReadAnswer_runs q ends run (by decide), concludeStep_fetchingRow settled.1 ..⟩
    · intro met reads last lastNode ended
      have ends := answered.trans (stackRead_lastPair runs reads last ..)
      let y := c.pairDone a met (pairBest sc t0 sum' wsum' n') sc
      have pair := runningBank_withBank (x := y) runs rfl
      have behind := runningBank_withBank (x := y.behindNode) runs rfl
      have stageEnds {n : Nat} {d : Chip} (few : n + 1 ≤ engineFuel)
          (rest : EngineRun .stageEnd (c.withBank bank (some y.behindNode)) n d) :
          exec .cfReadAnswer ⟨c, q⟩ = .next ⟨concludeStep d, q⟩ := by
        refine exec_cfReadAnswer_runs q ends (EngineRun.lastNode pair lastNode ?_) few
        rwa [withBank_withBank]
      refine ⟨fun stage noBest unmarked alone => ?_, ?_, ?_⟩
      · have rest := EngineRun.stageEnd_empty behind stage noBest unmarked (aloneInService_withBank alone _)
        exact ⟨_, stageEnds (by decide) rest, finishScan_finishes alone .empty [] rfl rfl⟩
      · intro p g stage best accepted refines defined table within passes
        have rest := EngineRun.stageEnd_refines behind stage best accepted refines (g := g) defined table within passes
        rw [withBank_withBank] at rest
        exact ⟨_, stageEnds (by decide) rest, concludeStep_refineRequest settled.1 ..⟩
      · intro p g o unrefined stage1 stage2 endsIn defined within absent passes
        have endsIn' : y.behindNode.EndsIn p o unrefined stage1 stage2 := endsIn
        have rest := EngineRun.stageEnd_lists behind endsIn' (g := g) ⟨defined, within, absent, passes⟩
        rw [withBank_withBank, Chip.pairDone_lists] at rest
        exact ⟨_, stageEnds (by decide) rest, concludeStep_fetchingRow settled.1 ..⟩
  · intro c q bank sc o row ch found p settled runs phase final tt cell late old found' met flags'
    have answered : cfAnswered c = listRead bank sc o row ch found c := by simp only [cfAnswered, runs, phase]
    refine ⟨fun next reads => exec_cfReadAnswer_waits q settled (answered.trans (listRead_eq runs final reads found)),
      fun reads unmarked alone => ?_⟩
    let x := c.afterRead (p.t0 + tt) met sc
    have read := runningBank_withBank (x := x) runs rfl
    have run := EngineRun.conclude read unmarked (aloneInService_withBank alone x) o (arrivalList found')
    exact ⟨_, exec_cfReadAnswer_runs q (answered.trans (listRead_eq runs final reads found)) run (by decide),
      finishScan_finishes alone o (arrivalList found') rfl rfl⟩
  · obtain ⟨perm, ranked⟩ := rank_spec found [] rising .nil nofun
    exact ⟨rankArrivals found, perm, rfl, ranked⟩

end Sys2Proof.Machine
end
